-- ==== Sys2Proof/Word.lean ====
section
/-! DEFINITION. The word and byte types of the EB7240 (R7: registers are 32 bits wide) and their plainest arithmetic. -/

namespace Sys2Proof

/-- A 32-bit register, port or DMEM word (R7). -/
abbrev Word := BitVec 32

/-- A byte of memory (R7, R76: little-endian). -/
abbrev Byte := BitVec 8

/-- A channel of the device, CH.0–CH.23 (R2). -/
abbrev Ch := Fin 24

/-- A cluster CL.0–CL.3 (R2). -/
abbrev Cl := Fin 4

/-- A camera pipeline CAM.0–CAM.23. -/
abbrev Cam := Fin 24

/-- A motion axis MA.0–MA.7. -/
abbrev Ma := Fin 8

/-- A ring RING.0–RING.127. -/
abbrev Ring := Fin 128

/-- A Tuikin register number w0–w31. -/
abbrev Reg := Fin 32

/-- A servo axis of a channel: 0 is X, 1 is Y, 2 is F. -/
abbrev Ax := Fin 3

/-- The cluster of a channel (R2). -/
def clusterOf (c : Ch) : Cl := ⟨c.val / 6, by omega⟩

end Sys2Proof
end

