-- ==== Sys2Proof/Machine/Bits.lean ====
section
/-! DEFINITION. Bit fields, sign extension, saturation and byte order: the helpers every family uses. -/

namespace Sys2Proof.Machine
open Sys2Proof

/-- The field of `n` bits of `w` that starts at bit `lo`, as a number. -/
def fld (w : Word) (lo n : Nat) : Nat := (w.toNat >>> lo) % 2 ^ n

/-- Bit `i` of `w`. -/
def bit (w : Word) (i : Nat) : Bool := w.getLsbD i

/-- A Boolean as one bit at place `i`. -/
def bitAt (b : Bool) (i : Nat) : Nat := if b then 2 ^ i else 0

/-- A number as a word, modulo 2^32. -/
def toW (n : Nat) : Word := BitVec.ofNat 32 n

/-- An integer as a word, modulo 2^32. -/
def intW (i : Int) : Word := BitVec.ofInt 32 i

/-- `v`, a number of `n` bits, read as two's complement. -/
def sx (n v : Nat) : Int := if v % 2 ^ n < 2 ^ (n - 1) then ((v % 2 ^ n : Nat) : Int) else ((v % 2 ^ n : Nat) : Int) - 2 ^ n

/-- `i` held between `lo` and `hi`. -/
def clampI (lo hi i : Int) : Int := if i < lo then lo else if hi < i then hi else i

/-- Signed saturation to 32 bits (R65, sat32). -/
def sat32 (i : Int) : Word := intW (clampI (-2147483648) 2147483647 i)

/-- Unsigned saturation to 32 bits, the rule of every saturating counter. -/
def satU32 (n : Nat) : Word := if n < 4294967296 then toW n else 0xFFFFFFFF#32

/-- Division rounding toward minus infinity. -/
def floorDiv (a b : Int) : Int := a.fdiv b

/-- The sign-extended 16-bit immediate of formats I and B (R59). -/
def sextImm (imm : BitVec 16) : Word := imm.signExtend 32

/-- The four little-endian bytes of a word (R7). -/
def bytesLE (w : Word) : List Byte :=
  [w.extractLsb' 0 8, w.extractLsb' 8 8, w.extractLsb' 16 8, w.extractLsb' 24 8]

/-- The four big-endian bytes of a word. -/
def bytesBE (w : Word) : List Byte :=
  [w.extractLsb' 24 8, w.extractLsb' 16 8, w.extractLsb' 8 8, w.extractLsb' 0 8]

/-- The word whose little-endian bytes are given. -/
def wordLE (b0 b1 b2 b3 : Byte) : Word := b3 ++ b2 ++ b1 ++ b0

/-- The number whose little-endian bytes are given. -/
def natLE : List Byte → Nat
  | [] => 0
  | b :: bs => b.toNat + 256 * natLE bs

/-- The number whose big-endian bytes are given. -/
def natBE (bs : List Byte) : Nat := bs.foldl (fun a b => a * 256 + b.toNat) 0

/-- `n` in `k` little-endian bytes. -/
def bytesOfNatLE : Nat → Nat → List Byte
  | 0, _ => []
  | k + 1, n => BitVec.ofNat 8 n :: bytesOfNatLE k (n / 256)

/-- `n` in `k` big-endian bytes. -/
def bytesOfNatBE (k n : Nat) : List Byte := (bytesOfNatLE k n).reverse

/-- The bytes of the low word and the high word of a 64-bit number. -/
def lo32 (n : Nat) : Word := toW n
/-- Bits [63:32] of a number. -/
def hi32 (n : Nat) : Word := toW (n / 4294967296)

/-- The indices 0 … 23. -/
def all24 : List (Fin 24) :=
  [0, 1, 2, 3, 4, 5, 6, 7, 8, 9, 10, 11, 12, 13, 14, 15, 16, 17, 18, 19, 20, 21, 22, 23]
/-- The indices 0 … 7. -/
def all8 : List (Fin 8) := [0, 1, 2, 3, 4, 5, 6, 7]
/-- The indices 0 … 3. -/
def all4 : List (Fin 4) := [0, 1, 2, 3]
/-- The indices 0 … 2. -/
def all3 : List (Fin 3) := [0, 1, 2]
/-- The indices 0 … 5. -/
def all6 : List (Fin 6) := [0, 1, 2, 3, 4, 5]

/-- Element `i` of a list, or `d` past its end. -/
def nthD {α : Type} (l : List α) (i : Nat) (d : α) : α := l.getD i d

/-- Words of a byte string, four bytes a word, little-endian; a short tail is filled with zeros. -/
def wordsLE : List Byte → List Word
  | b0 :: b1 :: b2 :: b3 :: r => wordLE b0 b1 b2 b3 :: wordsLE r
  | [] => []
  | [b0] => [wordLE b0 0 0 0]
  | [b0, b1] => [wordLE b0 b1 0 0]
  | [b0, b1, b2] => [wordLE b0 b1 b2 0]

end Sys2Proof.Machine
end

