-- ==== Sys2Proof/Machine/Float.lean ====
section
/-! DEFINITION. Binary floating point, computed exactly and rounded once: binary32 by R57 (subnormals flushed, canonical NaN) and binary64 (IEEE 754, R57's canonical NaN not needed). -/

namespace Sys2Proof.Machine
open Sys2Proof

/-- The sticky flags of R56: NV, DZ, OF, UF, NX. -/
structure FFlags where
  nv : Bool := false
  dz : Bool := false
  of : Bool := false
  uf : Bool := false
  nx : Bool := false
  deriving DecidableEq, Repr

/-- FSTAT's layout (R56): [0] NV, [1] DZ, [2] OF, [3] UF, [4] NX. -/
def FFlags.bits (f : FFlags) : BitVec 5 :=
  BitVec.ofNat 5 (bitAt f.nv 0 + bitAt f.dz 1 + bitAt f.of 2 + bitAt f.uf 3 + bitAt f.nx 4)

/-- Both flag sets. -/
def FFlags.or (f g : FFlags) : FFlags :=
  { nv := f.nv || g.nv, dz := f.dz || g.dz, of := f.of || g.of, uf := f.uf || g.uf, nx := f.nx || g.nx }

/-- A format: precision in bits, exponent bits, and whether subnormals are flushed to zero (R57). -/
structure Fmt where
  prec : Nat
  ebits : Nat
  ftz : Bool

/-- Binary32 with the restrictions of R57. -/
def fmt32 : Fmt := { prec := 24, ebits := 8, ftz := true }
/-- Binary64. -/
def fmt64 : Fmt := { prec := 53, ebits := 11, ftz := false }

/-- The exponent bias. -/
def Fmt.bias (f : Fmt) : Nat := 2 ^ (f.ebits - 1) - 1

/-- A decoded number: a NaN (signalling or not), an infinity, or (−1)^s · m · 2^e exactly. -/
inductive FV where
  | nan (sig : Bool)
  | inf (s : Bool)
  | fin (s : Bool) (m : Nat) (e : Int)
  deriving DecidableEq, Repr

/-- Decoding of a bit pattern; a subnormal input is a zero of its sign where the format flushes (R57). -/
def Fmt.decode (f : Fmt) (x : Nat) : FV :=
  let s := (x >>> (f.prec - 1 + f.ebits)) % 2 == 1
  let be := (x >>> (f.prec - 1)) % 2 ^ f.ebits
  let fr := x % 2 ^ (f.prec - 1)
  if be = 2 ^ f.ebits - 1 then
    if fr = 0 then .inf s else .nan (fr < 2 ^ (f.prec - 2))
  else if be = 0 then
    if f.ftz then .fin s 0 0 else .fin s fr (1 - (f.bias : Int) - (f.prec - 1 : Nat))
  else .fin s (fr + 2 ^ (f.prec - 1)) ((be : Int) - f.bias - (f.prec - 1 : Nat))

/-- The canonical quiet NaN, 0x7FC0_0000 in binary32 (R57). -/
def Fmt.qnan (f : Fmt) : Nat := (2 ^ f.ebits - 1) * 2 ^ (f.prec - 1) + 2 ^ (f.prec - 2)
/-- An infinity. -/
def Fmt.infBits (f : Fmt) (s : Bool) : Nat := bitAt s (f.prec - 1 + f.ebits) + (2 ^ f.ebits - 1) * 2 ^ (f.prec - 1)
/-- A zero. -/
def Fmt.zeroBits (f : Fmt) (s : Bool) : Nat := bitAt s (f.prec - 1 + f.ebits)

/-- `m / 2^k` rounded to nearest, ties to even, and whether it was inexact. -/
def rneShift (m k : Nat) : Nat × Bool :=
  if k = 0 then (m, false)
  else
    let q := m >>> k
    let r := m % 2 ^ k
    let h := 2 ^ (k - 1)
    (if h < r || (r == h && q % 2 == 1) then q + 1 else q, r != 0)

/-- R57: the exact value (−1)^s · m · 2^e rounded to the format, to nearest with ties to even. -/
def Fmt.round (f : Fmt) (s : Bool) (m : Nat) (e : Int) : Nat × FFlags :=
  if m = 0 then (f.zeroBits s, {})
  else
    let len := Nat.log2 m + 1
    let top : Int := e + len - 1
    let emin : Int := 1 - f.bias
    let emax : Int := f.bias
    -- the unbounded-exponent rounding to `prec` bits
    let q := if len ≤ f.prec then (m <<< (f.prec - len), false) else rneShift m (len - f.prec)
    let carry := q.1 = 2 ^ f.prec
    let sig := if carry then 2 ^ (f.prec - 1) else q.1
    let ex := if carry then top + 1 else top
    if emax < ex then (f.infBits s, { of := true, nx := true })
    else if emin ≤ ex then
      ((f.zeroBits s) + (ex + f.bias).toNat * 2 ^ (f.prec - 1) + (sig - 2 ^ (f.prec - 1)), { nx := q.2 })
    else if f.ftz then (f.zeroBits s, { uf := true, nx := true })
    else
      -- gradual underflow: units of 2^(emin − (prec − 1))
      let u : Int := emin - (f.prec - 1 : Nat)
      let r := if u ≤ e then (m <<< (e - u).toNat, false) else rneShift m (u - e).toNat
      (f.zeroBits s + r.1, { uf := r.2, nx := r.2 })

/-- Whether a decoded operand is a signalling NaN. -/
def FV.isSig : FV → Bool
  | .nan sg => sg
  | _ => false
/-- Whether a decoded operand is a NaN. -/
def FV.isNan : FV → Bool
  | .nan _ => true
  | _ => false

/-- The signed significand at exponent `e0 ≤ e`. -/
def alignedI (s : Bool) (m : Nat) (e e0 : Int) : Int :=
  let v : Int := ((m <<< (e - e0).toNat : Nat) : Int)
  if s then -v else v

/-- Exact sum of two finite values, rounded once; an exact zero sum is +0 unless both are −0. -/
def Fmt.addFin (f : Fmt) (s1 : Bool) (m1 : Nat) (e1 : Int) (s2 : Bool) (m2 : Nat) (e2 : Int) : Nat × FFlags :=
  let e0 := if m1 = 0 then e2 else if m2 = 0 then e1 else if e1 ≤ e2 then e1 else e2
  let a := if m1 = 0 then 0 else alignedI s1 m1 e1 e0
  let b := if m2 = 0 then 0 else alignedI s2 m2 e2 e0
  let t := a + b
  if t = 0 then (f.zeroBits (s1 && s2 && m1 == 0 && m2 == 0), {})
  else f.round (t < 0) t.natAbs e0

/-- Addition on decoded operands. -/
def Fmt.addV (f : Fmt) : FV → FV → Nat × FFlags
  | .nan a, .nan b => (f.qnan, { nv := a || b })
  | .nan a, _ => (f.qnan, { nv := a })
  | _, .nan b => (f.qnan, { nv := b })
  | .inf a, .inf b => if a == b then (f.infBits a, {}) else (f.qnan, { nv := true })
  | .inf a, .fin _ _ _ => (f.infBits a, {})
  | .fin _ _ _, .inf b => (f.infBits b, {})
  | .fin s1 m1 e1, .fin s2 m2 e2 => f.addFin s1 m1 e1 s2 m2 e2

/-- The operand with its sign inverted (a NaN stays a NaN). -/
def FV.neg : FV → FV
  | .nan a => .nan a
  | .inf s => .inf (!s)
  | .fin s m e => .fin (!s) m e

/-- The exact product of two operands, unrounded: `none` where it is invalid. -/
def mulExact : FV → FV → Option FV
  | .nan a, _ => some (.nan a)
  | _, .nan b => some (.nan b)
  | .inf a, .inf b => some (.inf (a != b))
  | .inf a, .fin s m _ => if m = 0 then none else some (.inf (a != s))
  | .fin s m _, .inf b => if m = 0 then none else some (.inf (s != b))
  | .fin s1 m1 e1, .fin s2 m2 e2 => some (.fin (s1 != s2) (m1 * m2) (e1 + e2))

/-- Multiplication. -/
def Fmt.mulV (f : Fmt) (a b : FV) : Nat × FFlags :=
  if a.isNan || b.isNan then (f.qnan, { nv := a.isSig || b.isSig })
  else match mulExact a b with
    | none => (f.qnan, { nv := true })
    | some (.nan _) => (f.qnan, {})
    | some (.inf s) => (f.infBits s, {})
    | some (.fin s m e) => f.round s m e

/-- Fused multiply-add d + a × b with one rounding (R69, FMAC). -/
def Fmt.fmaV (f : Fmt) (d a b : FV) : Nat × FFlags :=
  let sig := a.isSig || b.isSig || d.isSig
  match mulExact a b with
  | none => (f.qnan, { nv := true })
  | some p =>
    if a.isNan || b.isNan || d.isNan then (f.qnan, { nv := sig })
    else f.addV d p

/-- The integer square root by bits, `k` bits of result. -/
def isqrtBits : Nat → Nat → Nat → Nat
  | 0, _, r => r
  | k + 1, n, r =>
    let c := r + 2 ^ k
    isqrtBits k n (if c * c ≤ n then c else r)

/-- The integer square root, rounded down. -/
def isqrt (n : Nat) : Nat := isqrtBits (Nat.log2 n / 2 + 1) n 0

/-- Division. -/
def Fmt.divV (f : Fmt) : FV → FV → Nat × FFlags
  | .nan a, .nan b => (f.qnan, { nv := a || b })
  | .nan a, _ => (f.qnan, { nv := a })
  | _, .nan b => (f.qnan, { nv := b })
  | .inf _, .inf _ => (f.qnan, { nv := true })
  | .inf a, .fin s _ _ => (f.infBits (a != s), {})
  | .fin s _ _, .inf b => (f.zeroBits (s != b), {})
  | .fin s1 m1 e1, .fin s2 m2 e2 =>
    if m2 = 0 then if m1 = 0 then (f.qnan, { nv := true }) else (f.infBits (s1 != s2), { dz := true })
    else if m1 = 0 then (f.zeroBits (s1 != s2), {})
    else
      let k := f.prec + 3 + Nat.log2 m2
      let n := m1 <<< k
      let q := n / m2
      f.round (s1 != s2) (2 * q + (if n % m2 = 0 then 0 else 1)) (e1 - e2 - k - 1)

/-- Square root. -/
def Fmt.sqrtV (f : Fmt) : FV → Nat × FFlags
  | .nan a => (f.qnan, { nv := a })
  | .inf s => if s then (f.qnan, { nv := true }) else (f.infBits false, {})
  | .fin s m e =>
    if m = 0 then (f.zeroBits s, {})
    else if s then (f.qnan, { nv := true })
    else
      let k := 2 * f.prec + 6
      let k' := if (e - k) % 2 = 0 then k else k + 1
      let n := m <<< k'
      let r := isqrt n
      f.round false (2 * r + (if r * r = n then 0 else 1)) ((e - k') / 2 - 1)

/-- Three-way comparison: `none` where unordered. -/
def cmpV : FV → FV → Option Ordering
  | .nan _, _ => none
  | _, .nan _ => none
  | .inf a, .inf b => some (if a == b then .eq else if a then .lt else .gt)
  | .inf a, .fin _ _ _ => some (if a then .lt else .gt)
  | .fin _ _ _, .inf b => some (if b then .gt else .lt)
  | .fin s1 m1 e1, .fin s2 m2 e2 =>
    let e0 := if m1 = 0 then e2 else if m2 = 0 then e1 else if e1 ≤ e2 then e1 else e2
    let a := if m1 = 0 then 0 else alignedI s1 m1 e1 e0
    let b := if m2 = 0 then 0 else alignedI s2 m2 e2 e0
    some (if a < b then .lt else if a = b then .eq else .gt)

/-- The integer nearest a finite value, ties to even, and whether that was inexact. -/
def rintV (s : Bool) (m : Nat) (e : Int) : Int × Bool :=
  let r := if 0 ≤ e then (m <<< e.toNat, false) else rneShift m (-e).toNat
  (if s then -(r.1 : Int) else (r.1 : Int), r.2)

/-! Binary32 (R57). -/

/-- A binary32 word decoded. -/
def f32 (w : Word) : FV := fmt32.decode w.toNat
/-- The word of a binary32 result. -/
def w32 (r : Nat × FFlags) : Word := toW r.1

/-- R69 FADD. -/
def fadd (a b : Word) : Word := w32 (fmt32.addV (f32 a) (f32 b))
/-- R69 FSUB. -/
def fsub (a b : Word) : Word := w32 (fmt32.addV (f32 a) (f32 b).neg)
/-- R69 FMUL. -/
def fmul (a b : Word) : Word := w32 (fmt32.mulV (f32 a) (f32 b))
/-- R69 FDIV. -/
def fdiv (a b : Word) : Word := w32 (fmt32.divV (f32 a) (f32 b))
/-- R69 FSQRT. -/
def fsqrt (a : Word) : Word := w32 (fmt32.sqrtV (f32 a))
/-- R69 FNEG: the sign bit inverted. -/
def fneg (a : Word) : Word := a ^^^ 0x80000000#32
/-- R69 FABS: the sign bit cleared. -/
def fabs (a : Word) : Word := a &&& 0x7FFFFFFF#32
/-- Comparison of two words as binary32. -/
def fcmp (a b : Word) : Option Ordering := cmpV (f32 a) (f32 b)
/-- a < b, false where unordered. -/
def flt (a b : Word) : Bool := fcmp a b == some .lt
/-- a ≤ b, false where unordered. -/
def fle (a b : Word) : Bool := fcmp a b == some .lt || fcmp a b == some .eq
/-- Whether the word is neither a NaN nor an infinity. -/
def fFinite (a : Word) : Bool := fld a 23 8 != 255
/-- Whether the word is a NaN. -/
def fIsNan (a : Word) : Bool := (f32 a).isNan
/-- The integer as binary32, to nearest (R69, FCVTSW). -/
def fOfInt (i : Int) : Word := w32 (fmt32.round (i < 0) i.natAbs 0)
/-- The value of a finite binary32 word as an integer nearest to it, ties to even; 0 for a NaN, and the
saturation values of R69 past the range. -/
def fToInt (lo hi : Int) (a : Word) : Int :=
  match f32 a with
  | .nan _ => 0
  | .inf s => if s then lo else hi
  | .fin s m e => clampI lo hi (rintV s m e).1
/-- a held between lo and hi in binary32. -/
def fclamp (lo hi a : Word) : Word := if flt a lo then lo else if flt hi a then hi else a
/-- i · 2^(−s) as binary32. -/
def fOfQ (i : Int) (s : Nat) : Word := w32 (fmt32.round (i < 0) i.natAbs (-(s : Int)))
/-- +0.0. -/
def fzero : Word := 0#32
/-- 1.0. -/
def fone : Word := 0x3F800000#32

/-! Binary64. -/

/-- A binary64 value. -/
abbrev D64 := BitVec 64
/-- A binary64 value decoded. -/
def f64 (x : D64) : FV := fmt64.decode x.toNat
/-- The bits of a binary64 result. -/
def w64 (r : Nat × FFlags) : D64 := BitVec.ofNat 64 r.1
/-- Sum. -/
def dadd (a b : D64) : D64 := w64 (fmt64.addV (f64 a) (f64 b))
/-- Difference. -/
def dsub (a b : D64) : D64 := w64 (fmt64.addV (f64 a) (f64 b).neg)
/-- Product. -/
def dmul (a b : D64) : D64 := w64 (fmt64.mulV (f64 a) (f64 b))
/-- Quotient. -/
def ddiv (a b : D64) : D64 := w64 (fmt64.divV (f64 a) (f64 b))
/-- Comparison. -/
def dcmp (a b : D64) : Option Ordering := cmpV (f64 a) (f64 b)
/-- a ≤ b. -/
def dle (a b : D64) : Bool := dcmp a b == some .lt || dcmp a b == some .eq
/-- An integer as binary64. -/
def dOfInt (i : Int) : D64 := w64 (fmt64.round (i < 0) i.natAbs 0)
/-- i · 2^e as binary64. -/
def dScale (i : Int) (e : Int) : D64 := w64 (fmt64.round (i < 0) i.natAbs e)
/-- A binary32 word as binary64. -/
def dOfF (a : Word) : D64 :=
  match f32 a with
  | .nan _ => w64 (fmt64.qnan, {})
  | .inf s => w64 (fmt64.infBits s, {})
  | .fin s m e => w64 (fmt64.round s m e)
/-- The integer nearest a finite binary64 value, ties to even, held between lo and hi; 0 for a NaN. -/
def dToInt (lo hi : Int) (x : D64) : Int :=
  match f64 x with
  | .nan _ => 0
  | .inf s => if s then lo else hi
  | .fin s m e => clampI lo hi (rintV s m e).1
/-- 1.0. -/
def done64 : D64 := 0x3FF0000000000000#64

end Sys2Proof.Machine
end

