-- ==== Sys2Proof/Machine/Flags.lean ====
section
/-! DEFINITION. Every flag computation of the Tuikin instruction set: the condition flags and the conditions (R64, R65, R67, R69). -/

namespace Sys2Proof.Machine
open Sys2Proof

/-- The condition flags. -/
structure Flg where
  z : Bool
  n : Bool
  c : Bool
  v : Bool
  deriving DecidableEq, Repr

/-- CMP and CMPI: the flags of a − b (R65). -/
def subFlags (a b : Word) : Flg :=
  let r := a - b
  let x := a.toInt - b.toInt
  { z := r == 0#32, n := bit r 31, c := decide (b.toNat ≤ a.toNat), v := decide (x < -2147483648 ∨ 2147483647 < x) }

/-- TST: the flags of a & b (R65). -/
def tstFlags (a b : Word) : Flg :=
  let r := a &&& b
  { z := r == 0#32, n := bit r 31, c := false, v := false }

/-- FCMP: the flags of a binary32 comparison (R69). -/
def fcmpFlags (a b : Word) : Flg :=
  match fcmp a b with
  | some .lt => ⟨false, true, false, false⟩
  | some .eq => ⟨true, false, true, false⟩
  | some .gt => ⟨false, false, true, false⟩
  | none => ⟨false, false, false, true⟩

/-- A signalling NaN among the operands sets NV (R57). -/
def sigFlags (a b : Word) : FFlags := { nv := (f32 a).isSig || (f32 b).isSig }

/-- A condition code that R64 does not reserve. -/
def condOk (k : BitVec 5) : Bool := !k.getLsbD 3

/-- R64: the test in bits [3:0], inverted by bit [4]. -/
def condHolds (k : BitVec 5) (f : Flg) : Bool :=
  let t := match k.toNat % 8 with
    | 0 => true
    | 1 => f.z
    | 2 => f.n
    | 3 => f.c
    | 4 => f.v
    | 5 => f.c && !f.z
    | 6 => f.n == f.v
    | _ => !f.z && f.n == f.v
  t != k.getLsbD 4

end Sys2Proof.Machine
end

