-- ==== Sys2Proof/Config.lean ====
section
/-! DEFINITION. What the spec leaves open: constants without a body, one for each free value, applied to the state's counter of free values or to the operands (log entry 5). -/

namespace Sys2Proof.Config

/-- A value the spec leaves open, 32 bits, by the number of the draw. -/
opaque freeWord : Nat → BitVec 32
/-- A yes or no the spec leaves open, by the number of the draw. -/
opaque freeBool : Nat → Bool
/-- A number the spec leaves open, by the number of the draw; its bound is applied where it is drawn. -/
opaque freeNat : Nat → Nat
/-- The 32 random bytes of a service or tag challenge (R345, R403), by the number of the draw. -/
opaque freeBytes : Nat → List (BitVec 8)

/-- The eight bytes of the device identifier, unique to each part (R450). -/
opaque uidByte : Nat → BitVec 8

/-- The error of the assist's arc in units of 2^-60 of a field unit, by radius, phase and axis; R120's bound is applied where it is used. -/
opaque arcErr : Nat → Nat → Bool → Int
/-- The word a RICE code of the record profile stands for where its mapped residual needs more than 32 bits (R373). -/
opaque riceWide : Nat → BitVec 32

/-- The ember map's decay factor as a binary32 word, by age in units, core cycles a stoke and EM_TAU; R202's bound is applied where it is used. -/
opaque decay : Nat → Nat → Nat → BitVec 32
/-- Whether an inexact quotient whose rounding no rule states goes up, by numerator and denominator (log entry 14). -/
opaque roundUp : Int → Nat → Bool

/-- ORIENT of a region whose second moments are equal, where no angle is defined, by its weight (R238, log entry 14). -/
opaque orientFlat : Nat → BitVec 32

/-- The halfword of the merge and line buffer that holds a selected raw code and member, whose places in it no rule gives (R237), by both. -/
opaque mergeHalf : Nat → Nat → BitVec 16

/-- Whether 0 × ∞ + quiet NaN signals invalid, which IEEE 754 (R57) leaves to the implementation, by the three operands. -/
opaque fmaQuiet : Nat → Nat → Nat → Bool

end Sys2Proof.Config
end

