-- ==== Sys2Proof/Machine/Hash.lean ====
section
/-! DEFINITION. The checks and signatures the spec names: CRC-16 (R341), CRC-32 (R153), SHA-256 (R104, R406) and ECDSA P-256 verification (R104, R403). -/

namespace Sys2Proof.Machine
open Sys2Proof

/-! CRC-16 of R341 and CRC-32 of R153. -/

/-- One bit of the CRC-16 register, MSB first, polynomial 0x1021 (R341). -/
def crc16Bit (c : BitVec 16) : BitVec 16 := if c.msb then (c <<< 1) ^^^ 0x1021#16 else c <<< 1

/-- One byte of the CRC-16 (R341). -/
def crc16Byte (c : BitVec 16) (b : Byte) : BitVec 16 :=
  let c0 := c ^^^ (b.zeroExtend 16 <<< 8)
  crc16Bit (crc16Bit (crc16Bit (crc16Bit (crc16Bit (crc16Bit (crc16Bit (crc16Bit c0)))))))

/-- The CRC-16 of a byte string, from 0xFFFF (R341). -/
def crc16 (bs : List Byte) : BitVec 16 := bs.foldl crc16Byte 0xFFFF#16

/-- One bit of the reflected CRC-32 register (R153). -/
def crc32Bit (c : Word) : Word := if c.getLsbD 0 then (c >>> 1) ^^^ 0xEDB88320#32 else c >>> 1

/-- One byte of the CRC-32 (R153). -/
def crc32Byte (c : Word) (b : Byte) : Word :=
  let c0 := c ^^^ b.zeroExtend 32
  crc32Bit (crc32Bit (crc32Bit (crc32Bit (crc32Bit (crc32Bit (crc32Bit (crc32Bit c0)))))))

/-- The CRC-32 of a byte string: IEEE 802.3 polynomial, reflected, initial and final value 0xFFFF_FFFF (R153). -/
def crc32 (bs : List Byte) : Word := ~~~ (bs.foldl crc32Byte 0xFFFFFFFF#32)

/-! SHA-256. -/

/-- The 64 round constants in one number, 512 bits a part, the first constant at the top. -/
def shaTable : Nat :=
  0x428a2f9871374491b5c0fbcfe9b5dba53956c25b59f111f1923f82a4ab1c5ed5d807aa9812835b01243185be550c7dc372be5d7480deb1fe9bdc06a7c19bf174 * 2 ^ 1536
  + 0xe49b69c1efbe47860fc19dc6240ca1cc2de92c6f4a7484aa5cb0a9dc76f988da983e5152a831c66db00327c8bf597fc7c6e00bf3d5a7914706ca635114292967 * 2 ^ 1024
  + 0x27b70a852e1b21384d2c6dfc53380d13650a7354766a0abb81c2c92e92722c85a2bfe8a1a81a664bc24b8b70c76c51a3d192e819d6990624f40e3585106aa070 * 2 ^ 512
  + 0x19a4c1161e376c082748774c34b0bcb5391c0cb34ed8aa4a5b9cca4f682e6ff3748f82ee78a5636f84c878148cc7020890befffaa4506cebbef9a3f7c67178f2

/-- Constant of round i. -/
def shaConst (i : Nat) : Word := BitVec.ofNat 32 (shaTable / 2 ^ (32 * (63 - i)))

/-- Four words of a running digest, the newest first. -/
abbrev Quad := Word × Word × Word × Word

/-- Word i of a 128-bit number, counted from its top. -/
def quadOf (n : Nat) : Quad := (toW (n / 2 ^ 96), toW (n / 2 ^ 64), toW (n / 2 ^ 32), toW n)

/-- A digest before its first block. -/
def shaSeed : Quad × Quad := (quadOf 0x6a09e667bb67ae853c6ef372a54ff53a, quadOf 0x510e527f9b05688c1f83d9ab5be0cd19)

/-- Three rotations to the right of one word, added without carry. -/
def spin (i j k : Nat) (x : Word) : Word := x.rotateRight i ^^^ (x.rotateRight j ^^^ x.rotateRight k)
/-- Two rotations and a shift to the right of one word, added without carry. -/
def slide (i j k : Nat) (x : Word) : Word := x.rotateRight i ^^^ (x.rotateRight j ^^^ x >>> k)
/-- Bits of y where x has ones, of z where it has zeros. -/
def pickBits (x y z : Word) : Word := z ^^^ (x &&& (y ^^^ z))
/-- The bit that two of three words have. -/
def most (x y z : Word) : Word := (x &&& y) ||| (z &&& (x ||| y))

/-- One round with a constant and a schedule word: each half takes a new word and lets its oldest go. -/
def shaRound : Quad × Quad → Word × Word → Quad × Quad
  | ((p, q, r, o), u, v, w, l), (k, x) =>
    let t := spin 6 11 25 u + pickBits u v w + (l + (k + x))
    ((t + spin 2 13 22 p + most p q r, p, q, r), o + t, u, v, w)

/-- A schedule, newest word first, grows by one word. -/
def shaGrow (w : List Word) : List Word :=
  (slide 17 19 10 (nthD w 1 0#32) + nthD w 6 0#32 + slide 7 18 3 (nthD w 14 0#32) + nthD w 15 0#32) :: w
/-- The schedule of a block: its 16 big-endian words and the 48 that follow from them. -/
def shaSchedule (blk : List Byte) : List Word :=
  let w := (List.range 16).map fun i => BitVec.ofNat 32 (natBE ((blk.drop (4 * i)).take 4))
  ((List.range 48).foldl (fun v _ => shaGrow v) w.reverse).reverse

/-- Word by word sums. -/
def Quad.plus (x y : Quad) : Quad := (x.1 + y.1, x.2.1 + y.2.1, x.2.2.1 + y.2.2.1, x.2.2.2 + y.2.2.2)
/-- One block of 64 bytes. -/
def shaBlock (s : Quad × Quad) (blk : List Byte) : Quad × Quad :=
  let z := (((List.range 64).map shaConst).zip (shaSchedule blk)).foldl shaRound s
  (s.1.plus z.1, s.2.plus z.2)
/-- A message with its padding: a one bit, zeros and the length in bits, whole blocks in all. -/
def shaPad (m : List Byte) : List Byte :=
  m ++ 0x80#8 :: (List.replicate ((119 - m.length % 64) % 64) 0#8 ++ bytesOfNatBE 8 (8 * m.length))
/-- The bytes of four words. -/
def Quad.bytes (x : Quad) : List Byte := bytesBE x.1 ++ (bytesBE x.2.1 ++ (bytesBE x.2.2.1 ++ bytesBE x.2.2.2))

/-- SHA-256 of a byte string, as 32 bytes. -/
def sha256 (m : List Byte) : List Byte :=
  let p := shaPad m
  let d := (List.range (p.length / 64)).foldl (fun s i => shaBlock s ((p.drop (64 * i)).take 64)) shaSeed
  d.1.bytes ++ d.2.bytes

/-! ECDSA over P-256. -/

/-- The field prime of P-256. -/
def p256P : Nat := 0xffffffff00000001000000000000000000000000ffffffffffffffffffffffff
/-- The group order. -/
def p256N : Nat := 0xffffffff00000000ffffffffffffffffbce6faada7179e84f3b9cac2fc632551
/-- The curve constant b. -/
def p256B : Nat := 0x5ac635d8aa3a93e7b3ebbd55769886bc651d06b0cc53b0f63bce3c3e27d2604b
/-- The generator's x coordinate. -/
def p256Gx : Nat := 0x6b17d1f2e12c4247f8bce6e563a440f277037d812deb33a0f4a13945d898c296
/-- The generator's y coordinate. -/
def p256Gy : Nat := 0x4fe342e2fe1a7f9b8ee7eb4a7c0f9e162bce33576b315ececbb6406837bf51f5

/-- `a^e mod m` over the lowest `k` bits of the exponent. -/
def powMod (m : Nat) : Nat → Nat → Nat → Nat → Nat
  | 0, _, _, r => r
  | k + 1, a, e, r => powMod m k (a * a % m) (e / 2) (if e % 2 = 1 then r * a % m else r)

/-- The inverse modulo a prime of at most 256 bits. -/
def invMod (m a : Nat) : Nat := powMod m 256 (a % m) (m - 2) 1

/-- Subtraction modulo m. -/
def subMod (m a b : Nat) : Nat := (a % m + m - b % m) % m

/-- A point in Jacobian coordinates; z = 0 is the point at infinity. -/
structure JPt where
  x : Nat
  y : Nat
  z : Nat
  deriving DecidableEq, Repr

/-- Point doubling (a = −3). -/
def JPt.dbl (q : JPt) : JPt :=
  let p := p256P
  if q.z = 0 then q else
  let d := q.z * q.z % p
  let g := q.y * q.y % p
  let b := q.x * g % p
  let al := 3 * subMod p q.x d * ((q.x + d) % p) % p
  let x3 := subMod p (al * al) (8 * b)
  let yz := (q.y + q.z) % p
  let z3 := subMod p (subMod p (yz * yz) g) d
  ⟨x3, subMod p (al * subMod p (4 * b) x3) (8 * g * g), z3⟩

/-- Point addition. -/
def JPt.add (q r : JPt) : JPt :=
  let p := p256P
  if q.z = 0 then r else if r.z = 0 then q else
  let z1 := q.z * q.z % p
  let z2 := r.z * r.z % p
  let u1 := q.x * z2 % p
  let u2 := r.x * z1 % p
  let s1 := q.y * r.z * z2 % p
  let s2 := r.y * q.z * z1 % p
  if u1 = u2 then (if s1 = s2 then q.dbl else ⟨1, 1, 0⟩) else
  let h := subMod p u2 u1
  let i := 4 * h * h % p
  let j := h * i % p
  let rr := 2 * subMod p s2 s1 % p
  let v := u1 * i % p
  let x3 := subMod p (subMod p (rr * rr) j) (2 * v)
  let y3 := subMod p (rr * subMod p v x3) (2 * s1 * j)
  ⟨x3, y3, 2 * q.z * r.z % p * h % p⟩

/-- Scalar multiplication over the lowest `k` bits, adding to an accumulator. -/
def JPt.mulAcc : Nat → Nat → JPt → JPt → JPt
  | 0, _, _, acc => acc
  | k + 1, n, q, acc => JPt.mulAcc k (n / 2) q.dbl (if n % 2 = 1 then acc.add q else acc)

/-- Whether (x, y) is a point of P-256. -/
def onCurve (x y : Nat) : Bool :=
  decide (x < p256P) && decide (y < p256P) &&
    (y * y % p256P == (subMod p256P (x * x * x) (3 * x) + p256B) % p256P)

/-- ECDSA P-256 verification of a 32-byte digest under the key X then Y, 64 bytes big-endian (R104, R403, R438). -/
def ecdsaOk (digest key : List Byte) (r s : Nat) : Bool :=
  let n := p256N
  let qx := natBE (key.take 32)
  let qy := natBE (key.drop 32)
  if r = 0 || n ≤ r || s = 0 || n ≤ s || !onCurve qx qy then false
  else
    let w := invMod n s
    let u1 := natBE digest * w % n
    let u2 := r * w % n
    let pt := (JPt.mulAcc 256 u1 ⟨p256Gx, p256Gy, 1⟩ ⟨1, 1, 0⟩).add (JPt.mulAcc 256 u2 ⟨qx, qy, 1⟩ ⟨1, 1, 0⟩)
    if pt.z = 0 then false
    else
      let zi := invMod p256P pt.z
      let x := pt.x * (zi * zi % p256P) % p256P
      x % n == r

/-- SHA-256 of a public key as the 65-byte uncompressed point (R438). -/
def keyHash (key : List Byte) : List Byte := sha256 (0x04#8 :: key)

end Sys2Proof.Machine
end

