-- ==== Sys2Proof/Machine/RegMap.lean ====
section
/-! DEFINITION. The register map of the EB7240: every register of R446's block map, with its access code (R10), its Writable by set (R9), its reset value (R448) and the ranges, encodings and alignments of its fields (R470). -/

namespace Sys2Proof.Machine
open Sys2Proof

/-- The access codes of R10. -/
inductive Acc where
  | ro | rw | w1c | w1s | wo | rc
  deriving DecidableEq, Repr

/-- What R470 requires of a field's value. -/
inductive FChk where
  /-- every value is in range -/
  | any
  /-- an unsigned range -/
  | rng (lo hi : Nat)
  /-- a signed range -/
  | srng (lo hi : Int)
  /-- an alignment -/
  | mult (k : Nat)
  /-- binary32, finite -/
  | fin
  /-- binary32, finite and above 0 -/
  | fpos
  /-- binary32, at least 0 -/
  | fnn
  /-- binary32, nonzero -/
  | fnz
  /-- binary32, above 0 -/
  | fgt0
  /-- binary32, between two values -/
  | frng (lo hi : Nat)
  /-- an event source code of R22's table -/
  | evSrc
  deriving DecidableEq, Repr

/-- A field: its lowest bit, its width and R470's requirement. -/
structure Fld where
  lo : Nat
  w : Nat
  chk : FChk
  deriving DecidableEq, Repr

/-- A reset value (R448): one constant, a constant plus the instance, a multiple of the index, or the ring defaults of R361. -/
inductive RVal where
  | const (n : Nat)
  | inst (n : Nat)
  | lin (k : Nat)
  | ringCfg
  | ringBind
  deriving DecidableEq, Repr

/-- One row of a register map: `cnt` registers from offset `off`, `st` apart. `by_` is the set of origins, one bit each:
1 HOST0, 2 HOST1, 4 SAFE, 8 SVC, 16 PEER, 32 CORE, 64 HW. `imm` marks a register whose write acts at receipt and not at a
stoke boundary (log entry 12). -/
structure RegDef where
  off : Nat
  cnt : Nat
  st : Nat
  acc : Acc
  by_ : Nat
  reset : RVal
  flds : List Fld
  imm : Bool
  deriving DecidableEq, Repr

/-- The blocks of R446. -/
inductive Blk where
  | glb | stk | acc | hk | cl | ch | cam | em | emp | ma | prb | ill | tag | ev | ring | host | eps | lan | dbg
  deriving DecidableEq, Repr

/-! The bases of R446. -/

/-- A register of CH.n. -/
abbrev chReg (n : Ch) (o : Nat) : Nat := 0x100000 + 0x10000 * n.val + o
/-- A register of a servo axis of CH.n; `o` counts from the channel base, for axis X. -/
abbrev axReg (n : Ch) (a : Ax) (o : Nat) : Nat := chReg n (o + 0x100 * a.val)
/-- A register of CAM.n. -/
abbrev camReg (n : Cam) (o : Nat) : Nat := 0x300000 + 0x8000 * n.val + o
/-- A register of MA.n. -/
abbrev maReg (n : Ma) (o : Nat) : Nat := 0x410000 + 0x1000 * n.val + o
/-- A register of RING.r. -/
abbrev ringReg (r : Ring) (o : Nat) : Nat := 0x500000 + 0x100 * r.val + o
/-- A register of CL.c. -/
abbrev clReg (c : Cl) (o : Nat) : Nat := 0x40000 + 0x4000 * c.val + o
/-- A register of the stoke and time block. -/
abbrev stkReg (o : Nat) : Nat := 0x10000 + o
/-- A register of the access block. -/
abbrev accReg (o : Nat) : Nat := 0x20000 + o
/-- A register of the housekeeping block. -/
abbrev hkReg (o : Nat) : Nat := 0x30000 + o
/-- A register of the ember map and guard block. -/
abbrev emReg (o : Nat) : Nat := 0x400000 + o
/-- The register of an ember or guard port of CH.n. -/
abbrev empReg (n : Ch) (o : Nat) : Nat := 0x402000 + 0x100 * n.val + o
/-- A register of the probe block. -/
abbrev prbReg (o : Nat) : Nat := 0x418000 + o
/-- A register of the illumination block. -/
abbrev illReg (o : Nat) : Nat := 0x4A0000 + o
/-- A register of the tag block. -/
abbrev tagReg (o : Nat) : Nat := 0x4B0000 + o
/-- A register of the event matrix. -/
abbrev evReg (o : Nat) : Nat := 0x4C0000 + o
/-- A host register. -/
abbrev hostReg (o : Nat) : Nat := 0x508000 + o
/-- An EPS register. -/
abbrev epsReg (o : Nat) : Nat := 0x510000 + o
/-- A gang or lane register. -/
abbrev lanReg (o : Nat) : Nat := 0x600000 + o
/-- A register of lane port p (0 EAST, 1 WEST); `o` counts from the lane block's base, for port 0. -/
abbrev portReg (p : Fin 2) (o : Nat) : Nat := 0x600000 + 0x1000 * p.val + o
/-- A register of the debug block. -/
abbrev dbgReg (o : Nat) : Nat := 0x800000 + o

/-- R446: the block, the instance and the offset that an address decodes to. -/
def locate (a : Nat) : Option (Blk × Nat × Nat) :=
  if a ≤ 0x2BF then some (.glb, 0, a)
  else if 0x10000 ≤ a && a ≤ 0x1015F then some (.stk, 0, a - 0x10000)
  else if 0x20000 ≤ a && a ≤ 0x200CF then some (.acc, 0, a - 0x20000)
  else if 0x30000 ≤ a && a ≤ 0x301EF then some (.hk, 0, a - 0x30000)
  else if 0x40000 ≤ a && a < 0x50000 then some (.cl, (a - 0x40000) / 0x4000, (a - 0x40000) % 0x4000)
  else if 0x100000 ≤ a && a < 0x280000 then some (.ch, (a - 0x100000) / 0x10000, (a - 0x100000) % 0x10000)
  else if 0x300000 ≤ a && a < 0x3C0000 then some (.cam, (a - 0x300000) / 0x8000, (a - 0x300000) % 0x8000)
  else if 0x400000 ≤ a && a ≤ 0x401FFF then some (.em, 0, a - 0x400000)
  else if 0x402000 ≤ a && a ≤ 0x4037FF then some (.emp, (a - 0x402000) / 0x100, (a - 0x402000) % 0x100)
  else if 0x410000 ≤ a && a < 0x418000 then some (.ma, (a - 0x410000) / 0x1000, (a - 0x410000) % 0x1000)
  else if 0x418000 ≤ a && a ≤ 0x4181FF then some (.prb, 0, a - 0x418000)
  else if 0x4A0000 ≤ a && a ≤ 0x4A4FFF then some (.ill, 0, a - 0x4A0000)
  else if 0x4B0000 ≤ a && a ≤ 0x4B037F then some (.tag, 0, a - 0x4B0000)
  else if 0x4C0000 ≤ a && a ≤ 0x4C057F then some (.ev, 0, a - 0x4C0000)
  else if 0x500000 ≤ a && a < 0x508000 then some (.ring, (a - 0x500000) / 0x100, (a - 0x500000) % 0x100)
  else if 0x508000 ≤ a && a ≤ 0x508823 then some (.host, 0, a - 0x508000)
  else if 0x510000 ≤ a && a ≤ 0x51027F then some (.eps, 0, a - 0x510000)
  else if 0x600000 ≤ a && a ≤ 0x602FFF then some (.lan, 0, a - 0x600000)
  else if 0x800000 ≤ a && a ≤ 0x800187 then some (.dbg, 0, a - 0x800000)
  else none

/-- Registers of the block: global, identity, boot, keys, safety inputs (R449, R173, R444). -/
def glbMap : List RegDef :=
  [⟨0x0, 1, 0x4, .ro, 0, .const 0x7240, [], false⟩,
   ⟨0x4, 1, 0x4, .ro, 0, .const 0x4331, [], false⟩,
   ⟨0x8, 1, 0x4, .ro, 0, .const 0x5A7, [], false⟩,
   ⟨0xC, 1, 0x4, .ro, 0, .const 0x0, [], false⟩,
   ⟨0x10, 1, 0x4, .ro, 0, .const 0x0, [], false⟩,
   ⟨0x14, 1, 0x4, .ro, 0, .const 0x8188418, [], false⟩,
   ⟨0x18, 1, 0x4, .ro, 0, .const 0x0, [], false⟩,
   ⟨0x1C, 1, 0x4, .rw, 11, .const 0x0, [⟨0, 32, .any⟩], true⟩,
   ⟨0x100, 1, 0x4, .ro, 0, .const 0x0, [], false⟩,
   ⟨0x104, 1, 0x4, .rw, 1, .const 0x2710, [⟨0, 16, .any⟩], false⟩,
   ⟨0x108, 1, 0x4, .wo, 1, .const 0x0, [⟨0, 1, .any⟩], true⟩,
   ⟨0x10C, 1, 0x4, .rc, 0, .const 0x0, [], false⟩,
   ⟨0x200, 1, 0x4, .ro, 0, .const 0x0, [], false⟩,
   ⟨0x204, 1, 0x4, .ro, 0, .const 0x0, [], false⟩,
   ⟨0x208, 1, 0x4, .ro, 0, .const 0x0, [], false⟩,
   ⟨0x20C, 1, 0x4, .rw, 1, .const 0x0, [⟨0, 32, .mult 4⟩], true⟩,
   ⟨0x210, 1, 0x4, .rw, 1, .const 0x0, [⟨0, 32, .any⟩], true⟩,
   ⟨0x214, 1, 0x4, .rw, 1, .const 0x0, [⟨0, 23, .rng 0 4194304⟩], true⟩,
   ⟨0x218, 1, 0x4, .w1s, 1, .const 0x0, [⟨0, 1, .any⟩], true⟩,
   ⟨0x220, 8, 0x4, .ro, 0, .const 0x0, [], false⟩,
   ⟨0x240, 1, 0x4, .ro, 0, .const 0x0, [], false⟩,
   ⟨0x244, 1, 0x4, .w1s, 8, .const 0x0, [⟨0, 2, .any⟩, ⟨8, 1, .any⟩, ⟨9, 1, .any⟩, ⟨16, 1, .any⟩], true⟩,
   ⟨0x280, 16, 0x4, .rw, 8, .const 0x0, [⟨0, 32, .any⟩], true⟩]

/-- Registers of the block: stoke and time (R50). -/
def stkMap : List RegDef :=
  [⟨0x0, 1, 0x4, .rw, 1, .const 0x2, [⟨0, 2, .any⟩, ⟨8, 1, .any⟩], false⟩,
   ⟨0x4, 1, 0x4, .w1s, 1, .const 0x0, [⟨0, 1, .any⟩], true⟩,
   ⟨0x8, 1, 0x4, .ro, 0, .const 0x8, [], false⟩,
   ⟨0x10, 1, 0x4, .ro, 0, .const 0x0, [], false⟩,
   ⟨0x14, 1, 0x4, .ro, 0, .const 0x0, [], false⟩,
   ⟨0x18, 1, 0x4, .ro, 0, .const 0x0, [], false⟩,
   ⟨0x1C, 1, 0x4, .ro, 0, .const 0x0, [], false⟩,
   ⟨0x20, 1, 0x4, .ro, 0, .const 0x0, [], false⟩,
   ⟨0x30, 1, 0x4, .rw, 1, .const 0x0, [⟨0, 1, .any⟩, ⟨1, 1, .any⟩], true⟩,
   ⟨0x34, 1, 0x4, .rw, 1, .const 0x0, [⟨0, 32, .any⟩], true⟩,
   ⟨0x38, 1, 0x4, .rw, 1, .const 0x0, [⟨0, 8, .any⟩], true⟩,
   ⟨0x40, 1, 0x4, .ro, 0, .const 0x0, [], false⟩,
   ⟨0x44, 1, 0x4, .ro, 0, .const 0x0, [], false⟩,
   ⟨0x48, 1, 0x4, .rc, 0, .const 0x0, [], false⟩,
   ⟨0x4C, 1, 0x4, .rc, 0, .const 0x0, [], false⟩,
   ⟨0x50, 1, 0x4, .rc, 0, .const 0x0, [], false⟩,
   ⟨0x54, 1, 0x4, .ro, 0, .const 0x0, [], false⟩,
   ⟨0x60, 1, 0x4, .ro, 0, .const 0x0, [], false⟩,
   ⟨0x64, 2, 0x4, .rw, 1, .const 0x0, [⟨0, 32, .any⟩], false⟩,
   ⟨0x70, 2, 0x4, .ro, 0, .const 0x0, [], false⟩,
   ⟨0x80, 1, 0x4, .ro, 0, .const 0x0, [], false⟩,
   ⟨0x90, 1, 0x4, .w1c, 1, .const 0x0, [⟨0, 24, .any⟩], true⟩,
   ⟨0x100, 24, 0x4, .rc, 0, .const 0x0, [], false⟩]

/-- Registers of the block: access and change log (R411). -/
def accMap : List RegDef :=
  [⟨0x0, 1, 0x4, .ro, 0, .const 0x0, [], false⟩,
   ⟨0x4, 1, 0x4, .rw, 9, .const 0x8, [⟨0, 8, .rng 1 255⟩], false⟩,
   ⟨0x8, 1, 0x4, .ro, 0, .const 0x0, [], false⟩,
   ⟨0x10, 1, 0x4, .ro, 0, .const 0x0, [], false⟩,
   ⟨0x14, 1, 0x4, .ro, 0, .const 0x0, [], false⟩,
   ⟨0x20, 8, 0x4, .ro, 0, .const 0x0, [], false⟩,
   ⟨0x40, 1, 0x4, .rc, 0, .const 0x0, [], false⟩,
   ⟨0x44, 1, 0x4, .rc, 0, .const 0x0, [], false⟩,
   ⟨0x48, 1, 0x4, .ro, 0, .const 0x0, [], false⟩,
   ⟨0x4C, 1, 0x4, .ro, 0, .const 0x0, [], false⟩,
   ⟨0x50, 1, 0x4, .rc, 0, .const 0x0, [], false⟩,
   ⟨0x54, 1, 0x4, .rc, 0, .const 0x0, [], false⟩,
   ⟨0x80, 1, 0x4, .rw, 8, .const 0x64, [⟨0, 16, .rng 10 60000⟩, ⟨16, 1, .any⟩], false⟩,
   ⟨0x84, 1, 0x4, .ro, 0, .const 0x0, [], false⟩,
   ⟨0x88, 1, 0x4, .ro, 0, .const 0x0, [], false⟩,
   ⟨0x8C, 1, 0x4, .ro, 0, .const 0x0, [], false⟩,
   ⟨0x90, 1, 0x4, .rc, 0, .const 0x0, [], false⟩,
   ⟨0xC0, 1, 0x4, .rw, 8, .const 0x2580000, [⟨0, 2, .any⟩, ⟨16, 16, .rng 1 65535⟩], false⟩,
   ⟨0xC4, 1, 0x4, .ro, 0, .const 0x0, [], false⟩,
   ⟨0xC8, 1, 0x4, .w1s, 9, .const 0x0, [⟨0, 1, .any⟩], true⟩,
   ⟨0xCC, 1, 0x4, .rc, 0, .const 0x0, [], false⟩]

/-- Registers of the block: housekeeping (R428). -/
def hkMap : List RegDef :=
  [⟨0x0, 1, 0x4, .ro, 0, .const 0x600, [], false⟩,
   ⟨0x4, 1, 0x4, .wo, 9, .const 0x0, [⟨0, 1, .any⟩], false⟩,
   ⟨0x8, 1, 0x4, .ro, 0, .const 0x0, [], false⟩,
   ⟨0xC, 1, 0x4, .ro, 0, .const 0x0, [], false⟩,
   ⟨0x10, 1, 0x4, .rc, 0, .const 0x0, [], false⟩,
   ⟨0x14, 1, 0x4, .rc, 0, .const 0x0, [], false⟩,
   ⟨0x40, 22, 0x4, .ro, 0, .const 0x0, [], false⟩,
   ⟨0xA0, 16, 0x4, .rw, 1, .const 0x1900, [⟨0, 16, .any⟩, ⟨16, 1, .any⟩], false⟩,
   ⟨0xE0, 1, 0x4, .ro, 0, .const 0x0, [], false⟩,
   ⟨0x100, 8, 0x4, .rw, 1, .const 0x3E80D6B, [⟨0, 16, .any⟩, ⟨16, 16, .any⟩], false⟩,
   ⟨0x120, 8, 0x4, .rw, 1, .const 0x2760, [⟨0, 16, .rng 9000 11000⟩], false⟩,
   ⟨0x140, 12, 0x4, .ro, 0, .const 0x0, [], false⟩,
   ⟨0x180, 1, 0x4, .w1c, 1, .const 0x0, [⟨0, 12, .any⟩], true⟩,
   ⟨0x184, 1, 0x4, .rw, 13, .const 0x10, [⟨0, 16, .any⟩], false⟩,
   ⟨0x188, 1, 0x4, .ro, 0, .const 0x0, [], false⟩,
   ⟨0x1C0, 12, 0x4, .rc, 0, .const 0x0, [], false⟩]

/-- Registers of the block: cluster CL.c (R285). -/
def clMap : List RegDef :=
  [⟨0x0, 1, 0x4, .rw, 1, .const 0x7, [⟨0, 1, .any⟩, ⟨1, 1, .any⟩, ⟨2, 1, .any⟩], false⟩,
   ⟨0x4, 1, 0x4, .ro, 0, .const 0x80, [], false⟩,
   ⟨0x8, 1, 0x4, .rw, 9, .const 0x0, [⟨0, 3, .rng 0 5⟩], false⟩,
   ⟨0xC, 1, 0x4, .w1s, 9, .const 0x0, [⟨0, 1, .any⟩, ⟨1, 1, .any⟩, ⟨2, 1, .any⟩], false⟩,
   ⟨0x10, 6, 0x4, .ro, 0, .const 0x0, [], false⟩,
   ⟨0x40, 1, 0x4, .rc, 0, .const 0x0, [], false⟩,
   ⟨0x44, 1, 0x4, .rc, 0, .const 0x0, [], false⟩,
   ⟨0x48, 1, 0x4, .rc, 0, .const 0x0, [], false⟩,
   ⟨0x4C, 1, 0x4, .rc, 0, .const 0x0, [], false⟩,
   ⟨0x50, 1, 0x4, .rc, 0, .const 0x0, [], false⟩,
   ⟨0x54, 1, 0x4, .rc, 0, .const 0x0, [], false⟩,
   ⟨0x58, 1, 0x4, .rc, 0, .const 0x0, [], false⟩,
   ⟨0x60, 6, 0x4, .rc, 0, .const 0x0, [], false⟩,
   ⟨0x80, 1, 0x4, .rc, 0, .const 0x0, [], false⟩]

/-- Registers of the block: channel CH.n (R88, R107, R118, R156, R157, R172, R194, R197, R266, R352). -/
def chMapA : List RegDef :=
  [⟨0x0, 1, 0x4, .rw, 9, .const 0x0, [⟨0, 32, .mult 4⟩], true⟩,
   ⟨0x4, 1, 0x4, .rw, 9, .const 0x0, [⟨0, 32, .any⟩], true⟩,
   ⟨0x8, 1, 0x4, .rw, 9, .const 0x0, [⟨0, 32, .any⟩], true⟩,
   ⟨0xC, 1, 0x4, .w1s, 9, .const 0x0, [⟨0, 1, .any⟩, ⟨1, 1, .any⟩, ⟨2, 1, .any⟩, ⟨3, 1, .any⟩, ⟨4, 1, .any⟩], false⟩,
   ⟨0x10, 1, 0x4, .ro, 0, .const 0x0, [], false⟩,
   ⟨0x20, 8, 0x4, .ro, 0, .const 0x0, [], false⟩,
   ⟨0x40, 8, 0x4, .ro, 0, .const 0x0, [], false⟩,
   ⟨0x60, 1, 0x4, .ro, 0, .const 0x0, [], false⟩,
   ⟨0x64, 1, 0x4, .ro, 0, .const 0x0, [], false⟩,
   ⟨0x68, 1, 0x4, .w1s, 1, .const 0x0, [⟨0, 1, .any⟩], false⟩,
   ⟨0x6C, 1, 0x4, .ro, 0, .const 0x0, [], false⟩,
   ⟨0x70, 1, 0x4, .ro, 0, .const 0x0, [], false⟩,
   ⟨0x74, 1, 0x4, .w1s, 1, .const 0x0, [⟨0, 1, .any⟩, ⟨1, 1, .any⟩], false⟩,
   ⟨0x78, 1, 0x4, .ro, 0, .const 0x0, [], false⟩,
   ⟨0x100, 1, 0x4, .ro, 0, .const 0x0, [], false⟩,
   ⟨0x104, 1, 0x4, .ro, 0, .const 0x0, [], false⟩,
   ⟨0x108, 1, 0x4, .ro, 0, .const 0x0, [], false⟩,
   ⟨0x10C, 1, 0x4, .ro, 0, .const 0x0, [], false⟩,
   ⟨0x110, 1, 0x4, .rc, 0, .const 0x0, [], false⟩,
   ⟨0x114, 1, 0x4, .ro, 0, .const 0x0, [], false⟩,
   ⟨0x118, 1, 0x4, .w1c, 1, .const 0x0, [⟨0, 5, .any⟩], true⟩,
   ⟨0x11C, 1, 0x4, .rc, 0, .const 0x0, [], false⟩,
   ⟨0x120, 1, 0x4, .wo, 1, .const 0x0, [⟨0, 1, .any⟩], true⟩,
   ⟨0x2000, 1, 0x4, .rw, 1, .const 0x1000000, [⟨0, 1, .any⟩, ⟨1, 1, .any⟩, ⟨16, 13, .any⟩], false⟩,
   ⟨0x2004, 1, 0x4, .ro, 0, .const 0x0, [], false⟩]

/-- Registers of the block: channel CH.n (R88, R107, R118, R156, R157, R172, R194, R197, R266, R352). -/
def chMapB : List RegDef :=
  [⟨0x2008, 1, 0x4, .w1s, 1, .const 0x0, [⟨0, 1, .any⟩], false⟩,
   ⟨0x200C, 1, 0x4, .rw, 1, .const 0x40, [⟨0, 11, .rng 1 1024⟩], false⟩,
   ⟨0x2010, 1, 0x4, .ro, 0, .const 0x0, [], false⟩,
   ⟨0x2014, 1, 0x4, .rc, 0, .const 0x0, [], false⟩,
   ⟨0x2018, 1, 0x4, .rc, 0, .const 0x0, [], false⟩,
   ⟨0x201C, 1, 0x4, .ro, 0, .const 0x0, [], false⟩,
   ⟨0x2020, 1, 0x4, .ro, 0, .const 0x0, [], false⟩,
   ⟨0x2024, 1, 0x4, .ro, 0, .const 0x0, [], false⟩,
   ⟨0x2030, 1, 0x4, .rw, 1, .const 0x30D40, [⟨0, 32, .any⟩], false⟩,
   ⟨0x2034, 1, 0x4, .rc, 0, .const 0x0, [], false⟩,
   ⟨0x2100, 64, 0x4, .ro, 0, .const 0x0, [], false⟩,
   ⟨0x4000, 3, 0x100, .rw, 33, .const 0x0, [⟨0, 32, .any⟩], false⟩,
   ⟨0x4004, 3, 0x100, .rw, 33, .const 0x0, [⟨0, 1, .any⟩], false⟩,
   ⟨0x4008, 3, 0x100, .ro, 0, .const 0x0, [], false⟩,
   ⟨0x400C, 3, 0x100, .ro, 0, .const 0x0, [], false⟩,
   ⟨0x4010, 3, 0x100, .ro, 0, .const 0x0, [], false⟩,
   ⟨0x4014, 3, 0x100, .ro, 0, .const 0x0, [], false⟩,
   ⟨0x4018, 3, 0x100, .ro, 0, .const 0x0, [], false⟩,
   ⟨0x401C, 3, 0x100, .ro, 0, .const 0x0, [], false⟩,
   ⟨0x4020, 3, 0x100, .rw, 33, .const 0x0, [⟨0, 32, .any⟩], false⟩,
   ⟨0x4024, 3, 0x100, .rw, 33, .const 0x0, [⟨0, 32, .any⟩], false⟩,
   ⟨0x4028, 3, 0x100, .rw, 33, .const 0x0, [⟨0, 32, .any⟩], false⟩,
   ⟨0x402C, 3, 0x100, .rw, 33, .const 0x0, [⟨0, 32, .any⟩], false⟩,
   ⟨0x4030, 3, 0x100, .rw, 33, .const 0x0, [⟨0, 32, .any⟩], false⟩,
   ⟨0x4034, 3, 0x100, .rw, 33, .const 0x0, [⟨0, 32, .any⟩], false⟩]

/-- Registers of the block: channel CH.n (R88, R107, R118, R156, R157, R172, R194, R197, R266, R352). -/
def chMapC : List RegDef :=
  [⟨0x4038, 3, 0x100, .rw, 33, .const 0x0, [⟨0, 32, .any⟩], false⟩,
   ⟨0x403C, 3, 0x100, .rw, 33, .const 0x40000, [⟨0, 20, .rng 0 524287⟩], false⟩,
   ⟨0x4040, 3, 0x100, .rw, 33, .const 0x3F800000, [⟨0, 32, .any⟩], false⟩,
   ⟨0x4044, 3, 0x100, .rw, 33, .const 0x0, [⟨0, 32, .any⟩], false⟩,
   ⟨0x4048, 3, 0x100, .rw, 33, .const 0x0, [⟨0, 32, .any⟩], false⟩,
   ⟨0x404C, 3, 0x100, .rw, 33, .const 0x0, [⟨0, 32, .any⟩], false⟩,
   ⟨0x4050, 3, 0x100, .rw, 33, .const 0x0, [⟨0, 32, .any⟩], false⟩,
   ⟨0x4054, 3, 0x100, .rw, 33, .const 0x3F800000, [⟨0, 32, .any⟩], false⟩,
   ⟨0x4058, 3, 0x100, .rw, 33, .const 0x0, [⟨0, 32, .any⟩], false⟩,
   ⟨0x405C, 3, 0x100, .rw, 33, .const 0x0, [⟨0, 32, .any⟩], false⟩,
   ⟨0x4060, 3, 0x100, .rw, 33, .const 0x0, [⟨0, 32, .any⟩], false⟩,
   ⟨0x4064, 3, 0x100, .rw, 33, .const 0x0, [⟨0, 32, .any⟩], false⟩,
   ⟨0x4068, 3, 0x100, .rw, 33, .const 0x0, [⟨0, 1, .any⟩, ⟨1, 1, .any⟩], false⟩,
   ⟨0x406C, 3, 0x100, .rw, 33, .const 0x0, [⟨0, 32, .any⟩], false⟩,
   ⟨0x4070, 3, 0x100, .rw, 33, .const 0x0, [⟨0, 20, .any⟩], false⟩,
   ⟨0x4074, 3, 0x100, .rw, 33, .const 0x14, [⟨0, 16, .rng 1 65535⟩], false⟩,
   ⟨0x4078, 3, 0x100, .rw, 33, .const 0x8, [⟨0, 16, .rng 1 65535⟩], false⟩,
   ⟨0x407C, 3, 0x100, .rw, 33, .const 0xC8, [⟨0, 16, .rng 1 65535⟩], false⟩,
   ⟨0x4080, 3, 0x100, .rw, 1, .const 0x0, [⟨0, 1, .any⟩, ⟨1, 1, .any⟩, ⟨2, 1, .any⟩, ⟨3, 1, .any⟩], false⟩,
   ⟨0x4084, 3, 0x100, .wo, 33, .const 0x0, [⟨0, 1, .any⟩], false⟩,
   ⟨0x4088, 3, 0x100, .rw, 65, .const 0x0, [⟨0, 32, .any⟩], false⟩,
   ⟨0x408C, 3, 0x100, .rw, 65, .const 0x3F800000, [⟨0, 32, .frng 0x3F000000 0x40000000⟩], false⟩,
   ⟨0x4090, 3, 0x100, .ro, 0, .const 0x0, [], false⟩,
   ⟨0x4094, 3, 0x100, .ro, 0, .const 0x3F800000, [], false⟩,
   ⟨0x4098, 3, 0x100, .rc, 0, .const 0x0, [], false⟩]

/-- Registers of the block: channel CH.n (R88, R107, R118, R156, R157, R172, R194, R197, R266, R352). -/
def chMapD : List RegDef :=
  [⟨0x4400, 1, 0x4, .rw, 1, .const 0x0, [⟨0, 1, .any⟩, ⟨1, 1, .any⟩, ⟨2, 1, .any⟩], false⟩,
   ⟨0x4404, 1, 0x4, .wo, 1, .const 0x0, [⟨0, 1, .any⟩], false⟩,
   ⟨0x4408, 1, 0x4, .ro, 0, .const 0x0, [], false⟩,
   ⟨0x440C, 1, 0x4, .rc, 0, .const 0x0, [], false⟩,
   ⟨0x4410, 1, 0x4, .rw, 1, .const 0xD, [⟨0, 5, .rng 8 16⟩, ⟨8, 1, .any⟩], false⟩,
   ⟨0x4414, 1, 0x4, .rw, 1, .const 0x0, [⟨0, 32, .any⟩], false⟩,
   ⟨0x4418, 1, 0x4, .rw, 1, .const 0x0, [⟨0, 32, .any⟩], false⟩,
   ⟨0x441C, 1, 0x4, .rw, 1, .const 0x0, [⟨0, 32, .any⟩], false⟩,
   ⟨0x4420, 1, 0x4, .rw, 65, .const 0x0, [⟨0, 32, .any⟩], false⟩,
   ⟨0x4424, 1, 0x4, .rw, 65, .const 0x0, [⟨0, 32, .any⟩], false⟩,
   ⟨0x4428, 1, 0x4, .rw, 65, .const 0x0, [⟨0, 32, .srng (-10000000) 10000000⟩], false⟩,
   ⟨0x442C, 1, 0x4, .rw, 65, .const 0x0, [⟨0, 32, .srng (-1000000) 1000000⟩], false⟩,
   ⟨0x4430, 1, 0x4, .rw, 1, .const 0x7D0, [⟨0, 16, .rng 1 65535⟩], false⟩,
   ⟨0x4434, 1, 0x4, .rw, 1, .const 0x40, [⟨0, 16, .rng 1 65535⟩], false⟩,
   ⟨0x4438, 1, 0x4, .rw, 1, .const 0x4, [⟨0, 16, .rng 1 65535⟩], false⟩,
   ⟨0x4440, 1, 0x4, .ro, 0, .const 0x0, [], false⟩,
   ⟨0x4444, 1, 0x4, .ro, 0, .const 0x0, [], false⟩,
   ⟨0x4448, 1, 0x4, .ro, 0, .const 0x0, [], false⟩,
   ⟨0x444C, 1, 0x4, .ro, 0, .const 0x0, [], false⟩,
   ⟨0x4450, 1, 0x4, .ro, 0, .const 0x0, [], false⟩,
   ⟨0x4460, 1, 0x4, .rw, 1, .const 0x0, [⟨0, 32, .mult 4⟩], false⟩,
   ⟨0x4464, 1, 0x4, .rw, 1, .const 0x0, [⟨0, 32, .any⟩], false⟩,
   ⟨0x4468, 1, 0x4, .rw, 1, .const 0x0, [⟨0, 32, .any⟩], false⟩,
   ⟨0x446C, 1, 0x4, .w1s, 1, .const 0x0, [⟨0, 1, .any⟩, ⟨1, 1, .any⟩, ⟨2, 1, .any⟩], false⟩,
   ⟨0x4470, 1, 0x4, .ro, 0, .const 0x0, [], false⟩]

/-- Registers of the block: channel CH.n (R88, R107, R118, R156, R157, R172, R194, R197, R266, R352). -/
def chMapE : List RegDef :=
  [⟨0x4480, 8, 0x4, .ro, 0, .const 0x0, [], false⟩,
   ⟨0x8000, 1, 0x4, .rw, 1, .const 0x9C401400, [⟨0, 1, .any⟩, ⟨1, 1, .any⟩, ⟨2, 1, .any⟩, ⟨8, 8, .any⟩, ⟨16, 16, .rng 1 65535⟩], false⟩,
   ⟨0x8004, 1, 0x4, .w1s, 5, .const 0x0, [⟨0, 1, .any⟩, ⟨1, 1, .any⟩], false⟩,
   ⟨0x8008, 1, 0x4, .ro, 0, .const 0x0, [], false⟩,
   ⟨0x800C, 1, 0x4, .rw, 1, .const 0xFFFF, [⟨0, 16, .any⟩], false⟩,
   ⟨0x8010, 1, 0x4, .rw, 5, .const 0xFFFF, [⟨0, 16, .any⟩], false⟩,
   ⟨0x8014, 1, 0x4, .rw, 1, .const 0x0, [⟨0, 2, .rng 0 1⟩, ⟨2, 1, .any⟩], false⟩,
   ⟨0x8018, 1, 0x4, .rw, 1, .const 0x200002, [⟨0, 4, .any⟩, ⟨4, 1, .any⟩, ⟨5, 1, .any⟩, ⟨16, 16, .rng 1 65535⟩], false⟩,
   ⟨0x801C, 1, 0x4, .rw, 1, .const 0x800, [⟨0, 16, .any⟩], false⟩,
   ⟨0x8020, 1, 0x4, .rw, 1, .const 0x3F800000, [⟨0, 32, .any⟩], false⟩,
   ⟨0x8024, 1, 0x4, .rw, 1, .const 0x0, [⟨0, 32, .any⟩], false⟩,
   ⟨0x8028, 1, 0x4, .rw, 1, .const 0x0, [⟨0, 32, .any⟩], false⟩,
   ⟨0x802C, 1, 0x4, .ro, 0, .const 0x0, [], false⟩,
   ⟨0x8030, 1, 0x4, .ro, 0, .const 0x0, [], false⟩,
   ⟨0x8034, 1, 0x4, .rc, 0, .const 0x0, [], false⟩,
   ⟨0x8038, 1, 0x4, .rc, 0, .const 0x0, [], false⟩,
   ⟨0x803C, 1, 0x4, .rc, 0, .const 0x0, [], false⟩,
   ⟨0x8040, 1, 0x4, .rw, 33, .const 0x0, [⟨0, 32, .rng 0 65535⟩], false⟩,
   ⟨0x8044, 1, 0x4, .rw, 33, .const 0xFFFFFFFF, [⟨0, 32, .any⟩], false⟩,
   ⟨0x8048, 1, 0x4, .rw, 33, .const 0xFFFFFFFF, [⟨0, 32, .any⟩], false⟩,
   ⟨0xA000, 1, 0x4, .rw, 33, .const 0x0, [⟨0, 2, .any⟩, ⟨2, 6, .any⟩, ⟨8, 1, .any⟩], false⟩,
   ⟨0xA004, 1, 0x4, .rw, 97, .const 0x0, [⟨0, 32, .any⟩], false⟩,
   ⟨0xA008, 1, 0x4, .rw, 33, .const 0x0, [⟨0, 32, .any⟩], false⟩,
   ⟨0xA00C, 1, 0x4, .rw, 33, .const 0x0, [⟨0, 2, .rng 0 2⟩, ⟨2, 1, .any⟩, ⟨3, 1, .any⟩, ⟨4, 1, .any⟩, ⟨8, 4, .any⟩], false⟩,
   ⟨0xA010, 1, 0x4, .rw, 33, .const 0x0, [⟨0, 32, .any⟩], false⟩]

/-- Registers of the block: channel CH.n (R88, R107, R118, R156, R157, R172, R194, R197, R266, R352). -/
def chMapF : List RegDef :=
  [⟨0xA014, 1, 0x4, .rw, 33, .const 0x46800000, [⟨0, 32, .fpos⟩], false⟩,
   ⟨0xA018, 1, 0x4, .rw, 33, .const 0xC7000000, [⟨0, 32, .any⟩], false⟩,
   ⟨0xA01C, 1, 0x4, .rw, 33, .const 0x47000000, [⟨0, 32, .any⟩], false⟩,
   ⟨0xA020, 1, 0x4, .rw, 33, .const 0xFFFF, [⟨0, 16, .any⟩], false⟩,
   ⟨0xA024, 1, 0x4, .rw, 33, .const 0x3F800000, [⟨0, 32, .fin⟩], false⟩,
   ⟨0xA028, 1, 0x4, .rw, 33, .const 0x0, [⟨0, 32, .fin⟩], false⟩,
   ⟨0xA02C, 1, 0x4, .rw, 33, .const 0x0, [⟨0, 32, .any⟩], false⟩,
   ⟨0xA030, 1, 0x4, .rw, 33, .const 0x0, [⟨0, 32, .any⟩], false⟩,
   ⟨0xA034, 1, 0x4, .rw, 33, .const 0x0, [⟨0, 32, .any⟩], false⟩,
   ⟨0xA038, 1, 0x4, .rw, 33, .const 0x477FFF00, [⟨0, 32, .any⟩], false⟩,
   ⟨0xA03C, 1, 0x4, .rw, 33, .const 0x100, [⟨0, 16, .any⟩], false⟩,
   ⟨0xA040, 1, 0x4, .rw, 33, .const 0x20, [⟨0, 16, .rng 1 65535⟩], false⟩,
   ⟨0xA044, 1, 0x4, .rw, 33, .const 0x2000, [⟨0, 16, .any⟩], false⟩,
   ⟨0xA048, 1, 0x4, .rw, 33, .const 0x4, [⟨0, 16, .rng 1 65535⟩], false⟩,
   ⟨0xA04C, 1, 0x4, .rw, 33, .const 0x40800000, [⟨0, 32, .fnn⟩], false⟩,
   ⟨0xA050, 1, 0x4, .rw, 33, .const 0xC8, [⟨0, 16, .rng 1 65535⟩], false⟩,
   ⟨0xA054, 1, 0x4, .rw, 33, .const 0x400, [⟨0, 16, .any⟩], false⟩,
   ⟨0xA058, 1, 0x4, .rw, 33, .const 0x28, [⟨0, 16, .rng 0 65534⟩], false⟩,
   ⟨0xA05C, 1, 0x4, .rw, 97, .const 0x0, [⟨0, 32, .any⟩], false⟩,
   ⟨0xA060, 1, 0x4, .ro, 0, .const 0x0, [], false⟩,
   ⟨0xA064, 1, 0x4, .ro, 0, .const 0x0, [], false⟩,
   ⟨0xA068, 1, 0x4, .ro, 0, .const 0x0, [], false⟩,
   ⟨0xA06C, 1, 0x4, .ro, 0, .const 0x0, [], false⟩,
   ⟨0xA070, 1, 0x4, .ro, 0, .const 0x0, [], false⟩,
   ⟨0xA074, 1, 0x4, .ro, 0, .const 0x0, [], false⟩]

/-- Registers of the block: channel CH.n (R88, R107, R118, R156, R157, R172, R194, R197, R266, R352). -/
def chMapG : List RegDef :=
  [⟨0xA078, 1, 0x4, .ro, 0, .const 0x0, [], false⟩,
   ⟨0xA07C, 1, 0x4, .rc, 0, .const 0x0, [], false⟩,
   ⟨0xA080, 1, 0x4, .rc, 0, .const 0x0, [], false⟩,
   ⟨0xA084, 1, 0x4, .rc, 0, .const 0x0, [], false⟩,
   ⟨0xA088, 1, 0x4, .rc, 0, .const 0x0, [], false⟩,
   ⟨0xA08C, 1, 0x4, .rc, 0, .const 0x0, [], false⟩,
   ⟨0xA090, 1, 0x4, .ro, 0, .const 0xFFFF, [], false⟩,
   ⟨0xA094, 1, 0x4, .ro, 0, .const 0x0, [], false⟩,
   ⟨0xA098, 1, 0x4, .ro, 0, .const 0x0, [], false⟩,
   ⟨0xA100, 5, 0x4, .ro, 0, .const 0x0, [], false⟩,
   ⟨0xA120, 5, 0x4, .ro, 0, .const 0x0, [], false⟩,
   ⟨0xA200, 64, 0x4, .wo, 33, .const 0x0, [⟨0, 32, .fin⟩], false⟩,
   ⟨0xC000, 1, 0x4, .rw, 33, .const 0x10001, [⟨0, 5, .rng 1 16⟩, ⟨8, 8, .any⟩, ⟨16, 16, .any⟩], false⟩,
   ⟨0xC004, 1, 0x4, .rw, 1, .const 0x0, [⟨0, 10, .any⟩, ⟨16, 11, .rng 0 1024⟩], false⟩,
   ⟨0xC008, 1, 0x4, .rw, 33, .const 0x1, [⟨0, 1, .any⟩, ⟨1, 1, .any⟩, ⟨2, 1, .any⟩, ⟨3, 1, .any⟩, ⟨4, 1, .any⟩, ⟨5, 1, .any⟩, ⟨8, 4, .any⟩, ⟨12, 1, .any⟩], false⟩,
   ⟨0xC00C, 1, 0x4, .rw, 33, .const 0x0, [⟨0, 32, .any⟩], false⟩,
   ⟨0xC010, 1, 0x4, .w1s, 33, .const 0x0, [⟨0, 1, .any⟩, ⟨1, 1, .any⟩, ⟨2, 1, .any⟩], false⟩,
   ⟨0xC014, 1, 0x4, .ro, 0, .const 0x0, [], false⟩,
   ⟨0xC018, 1, 0x4, .ro, 0, .const 0x0, [], false⟩,
   ⟨0xC01C, 1, 0x4, .ro, 0, .const 0x0, [], false⟩,
   ⟨0xC040, 16, 0x4, .rw, 33, .const 0x0, [⟨0, 8, .any⟩], false⟩,
   ⟨0xE000, 5, 0x80, .rw, 1, .const 0x800, [⟨0, 1, .any⟩, ⟨1, 1, .any⟩, ⟨2, 1, .any⟩, ⟨8, 8, .rng 1 255⟩], false⟩,
   ⟨0xE004, 5, 0x80, .w1s, 1, .const 0x0, [⟨0, 1, .any⟩, ⟨1, 1, .any⟩], false⟩,
   ⟨0xE008, 5, 0x80, .ro, 0, .const 0x0, [], false⟩,
   ⟨0xE00C, 1, 0x4, .rw, 1, .const 0x100, [⟨0, 16, .rng 1 65535⟩], false⟩]

/-- Registers of the block: channel CH.n (R88, R107, R118, R156, R157, R172, R194, R197, R266, R352). -/
def chMapH : List RegDef :=
  [⟨0xE08C, 3, 0x80, .rw, 1, .const 0x40, [⟨0, 16, .rng 1 65535⟩], false⟩,
   ⟨0xE20C, 1, 0x4, .rw, 1, .const 0x80, [⟨0, 16, .rng 1 1024⟩], false⟩,
   ⟨0xE010, 5, 0x80, .rw, 1, .const 0x30D40, [⟨0, 32, .any⟩], false⟩,
   ⟨0xE014, 1, 0x4, .rw, 1, .const 0x40, [⟨0, 16, .rng 1 65535⟩], false⟩,
   ⟨0xE094, 4, 0x80, .rw, 1, .const 0x0, [⟨0, 16, .any⟩], false⟩,
   ⟨0xE018, 1, 0x4, .rw, 1, .const 0x42800000, [⟨0, 32, .any⟩], false⟩,
   ⟨0xE098, 3, 0x80, .rw, 1, .const 0x43480000, [⟨0, 32, .any⟩], false⟩,
   ⟨0xE218, 1, 0x4, .rw, 1, .const 0x41000000, [⟨0, 32, .any⟩], false⟩,
   ⟨0xE01C, 5, 0x80, .ro, 0, .const 0x0, [], false⟩,
   ⟨0xE020, 5, 0x80, .ro, 0, .const 0x0, [], false⟩,
   ⟨0xE024, 5, 0x80, .rc, 0, .const 0x0, [], false⟩,
   ⟨0xE028, 5, 0x80, .ro, 0, .const 0x0, [], false⟩,
   ⟨0xE02C, 5, 0x80, .ro, 0, .const 0x0, [], false⟩,
   ⟨0xE030, 5, 0x80, .ro, 0, .const 0x0, [], false⟩,
   ⟨0xE034, 5, 0x80, .ro, 0, .const 0x0, [], false⟩,
   ⟨0xE040, 1, 0x4, .rw, 65, .const 0x0, [⟨0, 32, .frng 0x00000000 0x477FFF00⟩], false⟩,
   ⟨0xE044, 1, 0x4, .rw, 65, .const 0x0, [⟨0, 32, .frng 0x00000000 0x477FFF00⟩], false⟩,
   ⟨0xE048, 1, 0x4, .ro, 0, .const 0x0, [], false⟩,
   ⟨0xE04C, 1, 0x4, .ro, 0, .const 0x0, [], false⟩,
   ⟨0xE050, 1, 0x4, .rw, 1, .const 0x402, [⟨0, 4, .any⟩, ⟨8, 8, .rng 4 255⟩], false⟩,
   ⟨0xE054, 1, 0x4, .rw, 1, .const 0x46000000, [⟨0, 32, .any⟩], false⟩,
   ⟨0xE058, 1, 0x4, .rw, 1, .const 0x43800000, [⟨0, 32, .any⟩], false⟩,
   ⟨0xE0C0, 3, 0x80, .rw, 1, .const 0x7D0, [⟨0, 20, .any⟩], false⟩,
   ⟨0xE0C4, 3, 0x80, .rw, 1, .const 0x186A0, [⟨0, 20, .any⟩], false⟩,
   ⟨0xE0C8, 3, 0x80, .rw, 1, .const 0x3F800000, [⟨0, 32, .fnz⟩], false⟩]

/-- Registers of the block: channel CH.n (R88, R107, R118, R156, R157, R172, R194, R197, R266, R352). -/
def chMapI : List RegDef :=
  [⟨0xE0CC, 3, 0x80, .rw, 1, .const 0x0, [⟨0, 32, .any⟩], false⟩,
   ⟨0xE0D0, 3, 0x80, .rw, 1, .const 0x4E20, [⟨0, 20, .any⟩], false⟩,
   ⟨0xE0D4, 3, 0x80, .rw, 1, .const 0x1F4, [⟨0, 20, .any⟩], false⟩,
   ⟨0xE0D8, 3, 0x80, .rw, 1, .const 0x3C23D70A, [⟨0, 32, .any⟩], false⟩,
   ⟨0xE240, 1, 0x4, .rw, 1, .const 0x1000, [⟨0, 2, .rng 0 2⟩, ⟨8, 7, .rng 4 64⟩], false⟩,
   ⟨0xE244, 1, 0x4, .rw, 1, .const 0x0, [⟨0, 20, .rng 0 1000000⟩], false⟩,
   ⟨0xE248, 1, 0x4, .rw, 1, .const 0x44000000, [⟨0, 32, .any⟩], false⟩,
   ⟨0xE24C, 1, 0x4, .rw, 1, .const 0x46000000, [⟨0, 32, .any⟩], false⟩,
   ⟨0xE250, 1, 0x4, .rw, 1, .const 0xC8, [⟨0, 16, .any⟩], false⟩,
   ⟨0xE254, 1, 0x4, .rw, 1, .const 0x3DCCCCCD, [⟨0, 32, .any⟩], false⟩,
   ⟨0xE258, 1, 0x4, .rw, 1, .const 0xFA0, [⟨0, 24, .any⟩], false⟩,
   ⟨0xE25C, 1, 0x4, .rw, 1, .const 0x50, [⟨0, 16, .any⟩], false⟩,
   ⟨0xE260, 1, 0x4, .rw, 1, .const 0x30D40, [⟨0, 24, .any⟩], false⟩,
   ⟨0xE264, 1, 0x4, .rw, 1, .const 0x30D40, [⟨0, 24, .any⟩], false⟩,
   ⟨0xE268, 1, 0x4, .rc, 0, .const 0x0, [], false⟩,
   ⟨0xE26C, 1, 0x4, .rc, 0, .const 0x0, [], false⟩,
   ⟨0xE270, 1, 0x4, .rc, 0, .const 0x0, [], false⟩,
   ⟨0xE400, 32, 0x20, .rw, 1, .const 0x0, [⟨0, 32, .any⟩], false⟩,
   ⟨0xE404, 32, 0x20, .rw, 1, .const 0x0, [⟨0, 32, .any⟩], false⟩,
   ⟨0xE408, 32, 0x20, .rw, 1, .const 0x0, [⟨0, 32, .any⟩], false⟩,
   ⟨0xE40C, 32, 0x20, .rw, 1, .const 0x0, [⟨0, 32, .any⟩], false⟩,
   ⟨0xE410, 32, 0x20, .rw, 1, .const 0x0, [⟨0, 1, .any⟩, ⟨8, 7, .rng 0 95⟩], false⟩,
   ⟨0xE800, 1, 0x4, .ro, 0, .const 0x0, [], false⟩,
   ⟨0xE804, 1, 0x4, .ro, 0, .const 0x0, [], false⟩,
   ⟨0xE808, 1, 0x4, .ro, 0, .const 0x0, [], false⟩]

/-- Registers of the block: channel CH.n (R88, R107, R118, R156, R157, R172, R194, R197, R266, R352). -/
def chMapJ : List RegDef :=
  [⟨0xE80C, 1, 0x4, .ro, 0, .const 0x0, [], false⟩,
   ⟨0xE810, 1, 0x4, .ro, 0, .const 0x0, [], false⟩,
   ⟨0xE814, 1, 0x4, .rw, 1, .const 0x1000, [⟨0, 16, .any⟩], false⟩,
   ⟨0xE818, 1, 0x4, .rw, 1, .const 0x3A83126F, [⟨0, 32, .frng 0x00000000 0x3F800000⟩], false⟩,
   ⟨0xE81C, 1, 0x4, .rw, 1, .const 0x3F800000, [⟨0, 32, .any⟩], false⟩,
   ⟨0xE820, 1, 0x4, .rc, 0, .const 0x0, [], false⟩]

/-- All registers of the block: channel CH.n (R88, R107, R118, R156, R157, R172, R194, R197, R266, R352). -/
def chMap : List RegDef := chMapA ++ chMapB ++ chMapC ++ chMapD ++ chMapE ++ chMapF ++ chMapG ++ chMapH ++ chMapI ++ chMapJ

/-- Registers of the block: camera CAM.n (R249, R266). -/
def camMapA : List RegDef :=
  [⟨0x0, 1, 0x4, .w1s, 1, .const 0x0, [⟨0, 1, .any⟩, ⟨1, 1, .any⟩, ⟨2, 1, .any⟩], false⟩,
   ⟨0x4, 1, 0x4, .ro, 0, .const 0x0, [], false⟩,
   ⟨0x8, 1, 0x4, .rw, 1, .inst 0x80, [⟨0, 5, .rng 0 23⟩, ⟨7, 1, .any⟩], false⟩,
   ⟨0xC, 1, 0x4, .rw, 1, .const 0x0, [⟨0, 1, .any⟩, ⟨1, 1, .any⟩, ⟨2, 1, .any⟩, ⟨3, 1, .any⟩, ⟨4, 1, .any⟩, ⟨5, 1, .any⟩], false⟩,
   ⟨0x10, 1, 0x4, .rw, 1, .const 0x400040, [⟨0, 14, .any⟩, ⟨16, 9, .any⟩], false⟩,
   ⟨0x14, 1, 0x4, .rw, 1, .const 0x0, [⟨0, 12, .any⟩], false⟩,
   ⟨0x18, 1, 0x4, .rw, 1, .const 0xC8, [⟨0, 16, .rng 1 65535⟩], false⟩,
   ⟨0x1C, 1, 0x4, .rw, 1, .const 0x2710, [⟨0, 24, .rng 1 16777215⟩], false⟩,
   ⟨0x20, 1, 0x4, .rw, 1, .const 0xFFF, [⟨0, 12, .any⟩], false⟩,
   ⟨0x24, 1, 0x4, .rw, 1, .const 0x0, [⟨0, 4, .rng 0 8⟩], false⟩,
   ⟨0x28, 1, 0x4, .rw, 1, .const 0x0, [⟨0, 1, .any⟩, ⟨8, 4, .rng 0 8⟩], false⟩,
   ⟨0x2C, 1, 0x4, .rw, 1, .const 0x0, [⟨0, 24, .any⟩], false⟩,
   ⟨0x30, 1, 0x4, .rw, 1, .const 0x0, [⟨0, 24, .any⟩], false⟩,
   ⟨0x34, 1, 0x4, .rw, 1, .const 0x1000000, [⟨0, 24, .any⟩, ⟨24, 8, .rng 1 255⟩], false⟩,
   ⟨0x38, 1, 0x4, .rw, 1, .const 0x0, [⟨0, 2, .any⟩, ⟨2, 1, .any⟩, ⟨3, 1, .any⟩, ⟨8, 8, .any⟩, ⟨16, 2, .any⟩], false⟩,
   ⟨0x40, 1, 0x4, .rw, 1, .const 0x0, [⟨0, 16, .any⟩], false⟩,
   ⟨0x44, 1, 0x4, .rw, 1, .const 0x0, [⟨0, 10, .any⟩, ⟨16, 11, .rng 0 1024⟩], false⟩,
   ⟨0x48, 1, 0x4, .w1s, 1, .const 0x0, [⟨0, 1, .any⟩, ⟨1, 1, .any⟩, ⟨2, 1, .any⟩], false⟩,
   ⟨0x4C, 1, 0x4, .ro, 0, .const 0x0, [], false⟩,
   ⟨0x50, 1, 0x4, .ro, 0, .const 0x0, [], false⟩,
   ⟨0x60, 1, 0x4, .rc, 0, .const 0x0, [], false⟩,
   ⟨0x64, 1, 0x4, .rc, 0, .const 0x0, [], false⟩,
   ⟨0x68, 1, 0x4, .rc, 0, .const 0x0, [], false⟩,
   ⟨0x6C, 1, 0x4, .rc, 0, .const 0x0, [], false⟩,
   ⟨0x70, 1, 0x4, .rc, 0, .const 0x0, [], false⟩]

/-- Registers of the block: camera CAM.n (R249, R266). -/
def camMapB : List RegDef :=
  [⟨0x74, 1, 0x4, .rc, 0, .const 0x0, [], false⟩,
   ⟨0x78, 1, 0x4, .rc, 0, .const 0x0, [], false⟩,
   ⟨0x7C, 1, 0x4, .rc, 0, .const 0x0, [], false⟩,
   ⟨0x80, 1, 0x4, .rc, 0, .const 0x0, [], false⟩,
   ⟨0x84, 1, 0x4, .rc, 0, .const 0x0, [], false⟩,
   ⟨0x88, 1, 0x4, .rc, 0, .const 0x0, [], false⟩,
   ⟨0x100, 1, 0x4, .rw, 33, .const 0x640, [⟨0, 24, .rng 8 16777215⟩], false⟩,
   ⟨0x104, 1, 0x4, .rw, 33, .const 0x3200, [⟨0, 24, .rng 8 16777215⟩], false⟩,
   ⟨0x108, 1, 0x4, .rw, 33, .const 0xC800, [⟨0, 24, .rng 8 16777215⟩], false⟩,
   ⟨0x10C, 1, 0x4, .rw, 33, .const 0x1, [⟨0, 2, .rng 1 3⟩], false⟩,
   ⟨0x110, 1, 0x4, .rw, 33, .const 0x50, [⟨0, 24, .rng 8 16777215⟩], false⟩,
   ⟨0x114, 1, 0x4, .rw, 33, .const 0x10000, [⟨0, 2, .any⟩, ⟨16, 16, .rng 1 65535⟩], false⟩,
   ⟨0x118, 1, 0x4, .rw, 33, .const 0x0, [⟨0, 13, .any⟩], false⟩,
   ⟨0x11C, 1, 0x4, .rw, 33, .const 0xFFFFFFFF, [⟨0, 32, .any⟩], false⟩,
   ⟨0x120, 1, 0x4, .wo, 1, .const 0x0, [⟨0, 1, .any⟩], false⟩,
   ⟨0x200, 16, 0x4, .ro, 0, .const 0x0, [], false⟩,
   ⟨0x240, 3, 0x4, .ro, 0, .const 0x0, [], false⟩,
   ⟨0x250, 1, 0x4, .ro, 0, .const 0x0, [], false⟩,
   ⟨0x254, 1, 0x4, .ro, 0, .const 0x0, [], false⟩,
   ⟨0x300, 1, 0x4, .rw, 1, .const 0x800, [⟨0, 1, .any⟩, ⟨1, 1, .any⟩, ⟨2, 1, .any⟩, ⟨8, 8, .rng 1 255⟩], false⟩,
   ⟨0x304, 1, 0x4, .w1s, 1, .const 0x0, [⟨0, 1, .any⟩, ⟨1, 1, .any⟩], false⟩,
   ⟨0x308, 1, 0x4, .ro, 0, .const 0x0, [], false⟩,
   ⟨0x30C, 1, 0x4, .rw, 1, .const 0x10, [⟨0, 16, .rng 1 65535⟩], false⟩,
   ⟨0x310, 1, 0x4, .rw, 1, .const 0x30D40, [⟨0, 32, .any⟩], false⟩,
   ⟨0x314, 1, 0x4, .rw, 1, .const 0x10, [⟨0, 16, .rng 1 65535⟩], false⟩]

/-- Registers of the block: camera CAM.n (R249, R266). -/
def camMapC : List RegDef :=
  [⟨0x318, 1, 0x4, .rw, 1, .const 0x42000000, [⟨0, 32, .any⟩], false⟩,
   ⟨0x31C, 1, 0x4, .ro, 0, .const 0x0, [], false⟩,
   ⟨0x320, 1, 0x4, .ro, 0, .const 0x0, [], false⟩,
   ⟨0x324, 1, 0x4, .rc, 0, .const 0x0, [], false⟩,
   ⟨0x328, 1, 0x4, .ro, 0, .const 0x0, [], false⟩,
   ⟨0x32C, 1, 0x4, .ro, 0, .const 0x0, [], false⟩,
   ⟨0x330, 1, 0x4, .ro, 0, .const 0x0, [], false⟩,
   ⟨0x334, 1, 0x4, .ro, 0, .const 0x0, [], false⟩,
   ⟨0x340, 1, 0x4, .rw, 65, .const 0x0, [⟨0, 24, .any⟩], false⟩,
   ⟨0x344, 1, 0x4, .ro, 0, .const 0x0, [], false⟩,
   ⟨0x348, 1, 0x4, .rw, 1, .const 0xFFFF, [⟨0, 24, .any⟩], false⟩,
   ⟨0x34C, 1, 0x4, .rw, 1, .const 0x100, [⟨0, 24, .any⟩], false⟩,
   ⟨0x4000, 4096, 0x4, .rw, 1, .lin 256, [⟨0, 20, .any⟩], false⟩]

/-- All registers of the block: camera CAM.n (R249, R266). -/
def camMap : List RegDef := camMapA ++ camMapB ++ camMapC

/-- Registers of the block: ember map and guard (R211, R223). -/
def emMapA : List RegDef :=
  [⟨0x0, 1, 0x4, .rw, 1, .const 0x0, [⟨0, 1, .any⟩, ⟨1, 1, .any⟩], false⟩,
   ⟨0x4, 1, 0x4, .rw, 1, .const 0x1F4, [⟨0, 12, .rng 250 4000⟩], false⟩,
   ⟨0x8, 1, 0x4, .rw, 1, .const 0x0, [⟨0, 32, .any⟩], false⟩,
   ⟨0xC, 1, 0x4, .rw, 1, .const 0x0, [⟨0, 32, .any⟩], false⟩,
   ⟨0x10, 1, 0x4, .rw, 1, .const 0xC350, [⟨0, 25, .rng 5000 20000000⟩], false⟩,
   ⟨0x14, 1, 0x4, .rw, 1, .const 0x4000, [⟨0, 17, .any⟩], false⟩,
   ⟨0x18, 1, 0x4, .rw, 1, .const 0x2000, [⟨0, 17, .any⟩], false⟩,
   ⟨0x1C, 1, 0x4, .rw, 1, .const 0x1000, [⟨0, 17, .any⟩], false⟩,
   ⟨0x20, 1, 0x4, .rw, 1, .const 0x10000, [⟨0, 18, .rng 0 131072⟩], false⟩,
   ⟨0x24, 1, 0x4, .rw, 1, .const 0x8000, [⟨0, 18, .rng 0 131072⟩], false⟩,
   ⟨0x28, 1, 0x4, .rw, 1, .const 0x599A, [⟨0, 18, .rng 0 131072⟩], false⟩,
   ⟨0x2C, 1, 0x4, .rw, 1, .const 0x2000, [⟨0, 18, .rng 0 131072⟩], false⟩,
   ⟨0x30, 1, 0x4, .rw, 1, .const 0x170A, [⟨0, 18, .rng 0 131072⟩], false⟩,
   ⟨0x34, 1, 0x4, .rw, 1, .const 0x7AE, [⟨0, 18, .rng 0 131072⟩], false⟩,
   ⟨0x40, 1, 0x4, .w1s, 1, .const 0x0, [⟨0, 1, .any⟩], false⟩,
   ⟨0x44, 1, 0x4, .w1c, 1, .const 0x0, [⟨3, 1, .any⟩, ⟨4, 1, .any⟩], true⟩,
   ⟨0x48, 1, 0x4, .rc, 0, .const 0x0, [], false⟩,
   ⟨0x4C, 1, 0x4, .rc, 0, .const 0x0, [], false⟩,
   ⟨0x50, 1, 0x4, .rc, 0, .const 0x0, [], false⟩,
   ⟨0x54, 1, 0x4, .rc, 0, .const 0x0, [], false⟩,
   ⟨0x58, 1, 0x4, .rc, 0, .const 0x0, [], false⟩,
   ⟨0x100, 24, 0x4, .rw, 1, .const 0x0, [⟨0, 32, .any⟩], false⟩,
   ⟨0x1000, 1, 0x4, .rw, 1, .const 0x0, [⟨0, 1, .any⟩], false⟩,
   ⟨0x1004, 1, 0x4, .rw, 1, .const 0x0, [⟨0, 32, .any⟩], false⟩,
   ⟨0x1008, 1, 0x4, .rw, 1, .const 0x4E20, [⟨0, 20, .rng 0 1000000⟩], false⟩]

/-- Registers of the block: ember map and guard (R211, R223). -/
def emMapB : List RegDef :=
  [⟨0x100C, 1, 0x4, .rw, 1, .const 0xFA0, [⟨0, 20, .rng 0 1000000⟩], false⟩,
   ⟨0x1010, 1, 0x4, .rw, 1, .const 0x7D0, [⟨0, 13, .any⟩], false⟩,
   ⟨0x1014, 1, 0x4, .rw, 1, .const 0xC8, [⟨0, 16, .any⟩], false⟩,
   ⟨0x1018, 1, 0x4, .rw, 1, .const 0x4E20, [⟨0, 16, .rng 1 65535⟩], false⟩,
   ⟨0x101C, 1, 0x4, .rw, 1, .const 0x0, [⟨0, 4, .any⟩], false⟩,
   ⟨0x1020, 1, 0x4, .rw, 1, .const 0x40, [⟨0, 8, .rng 1 255⟩], false⟩,
   ⟨0x1024, 1, 0x4, .rw, 1, .const 0x64, [⟨0, 12, .any⟩], false⟩,
   ⟨0x1030, 1, 0x4, .w1c, 1, .const 0x0, [⟨2, 1, .any⟩], true⟩,
   ⟨0x1100, 24, 0x4, .rc, 0, .const 0x0, [], false⟩,
   ⟨0x1180, 24, 0x4, .rc, 0, .const 0x0, [], false⟩,
   ⟨0x1200, 16, 0x20, .rw, 1, .const 0x0, [⟨0, 32, .any⟩], false⟩,
   ⟨0x1204, 16, 0x20, .rw, 1, .const 0x0, [⟨0, 32, .any⟩], false⟩,
   ⟨0x1208, 16, 0x20, .rw, 1, .const 0x0, [⟨0, 32, .any⟩], false⟩,
   ⟨0x120C, 16, 0x20, .rw, 1, .const 0x0, [⟨0, 32, .any⟩], false⟩,
   ⟨0x1210, 16, 0x20, .rw, 1, .const 0x0, [⟨0, 32, .any⟩], false⟩,
   ⟨0x1214, 16, 0x20, .rw, 1, .const 0x0, [⟨0, 32, .any⟩], false⟩,
   ⟨0x1218, 16, 0x20, .rw, 1, .const 0x0, [⟨0, 32, .any⟩], false⟩,
   ⟨0x121C, 16, 0x20, .rw, 1, .const 0x0, [⟨0, 1, .any⟩, ⟨1, 1, .any⟩], false⟩,
   ⟨0x1400, 16, 0x4, .rc, 0, .const 0x0, [], false⟩]

/-- All registers of the block: ember map and guard (R211, R223). -/
def emMap : List RegDef := emMapA ++ emMapB

/-- Registers of the block: the ember and guard ports of CH.n (R210, R222). -/
def empMap : List RegDef :=
  [⟨0x0, 1, 0x4, .rw, 33, .const 0x0, [⟨0, 1, .any⟩], false⟩,
   ⟨0x4, 1, 0x4, .rw, 33, .const 0x3F800000, [⟨0, 32, .any⟩], false⟩,
   ⟨0x20, 1, 0x4, .ro, 0, .const 0x0, [], false⟩,
   ⟨0x24, 1, 0x4, .ro, 0, .const 0x0, [], false⟩,
   ⟨0x28, 1, 0x4, .ro, 0, .const 0x0, [], false⟩,
   ⟨0x2C, 1, 0x4, .ro, 0, .const 0x1F4, [], false⟩,
   ⟨0x30, 1, 0x4, .ro, 0, .const 0x0, [], false⟩,
   ⟨0x34, 1, 0x4, .ro, 0, .const 0x0, [], false⟩,
   ⟨0x80, 16, 0x4, .rw, 33, .const 0x0, [⟨0, 32, .any⟩], false⟩,
   ⟨0xC0, 1, 0x4, .wo, 33, .const 0x0, [⟨0, 1, .any⟩, ⟨1, 1, .any⟩, ⟨4, 1, .any⟩, ⟨5, 1, .any⟩], false⟩,
   ⟨0xC4, 1, 0x4, .ro, 0, .const 0x0, [], false⟩,
   ⟨0xC8, 1, 0x4, .ro, 0, .const 0x0, [], false⟩,
   ⟨0xCC, 1, 0x4, .ro, 0, .const 0x0, [], false⟩]

/-- Registers of the block: motion axis MA.n with its feedback (R312, R327). -/
def maMapA : List RegDef :=
  [⟨0x0, 1, 0x4, .rw, 1, .const 0x0, [⟨0, 2, .rng 0 1⟩, ⟨2, 1, .any⟩], false⟩,
   ⟨0x4, 1, 0x4, .w1s, 5, .const 0x0, [⟨0, 1, .any⟩, ⟨1, 1, .any⟩, ⟨2, 1, .any⟩, ⟨3, 1, .any⟩, ⟨4, 1, .any⟩, ⟨5, 1, .any⟩, ⟨6, 1, .any⟩, ⟨7, 1, .any⟩], false⟩,
   ⟨0x8, 1, 0x4, .ro, 0, .const 0x0, [], false⟩,
   ⟨0xC, 1, 0x4, .ro, 0, .const 0x0, [], false⟩,
   ⟨0x10, 1, 0x4, .rw, 1, .const 0x0, [⟨0, 32, .any⟩], false⟩,
   ⟨0x14, 1, 0x4, .rw, 1, .const 0x100, [⟨0, 24, .rng 1 16777215⟩], false⟩,
   ⟨0x18, 1, 0x4, .rw, 1, .const 0x10000, [⟨0, 32, .rng 1 4294967295⟩], false⟩,
   ⟨0x1C, 1, 0x4, .rw, 1, .const 0x10000, [⟨0, 32, .rng 1 4294967295⟩], false⟩,
   ⟨0x20, 1, 0x4, .rw, 1, .const 0x40000, [⟨0, 32, .rng 1 4294967295⟩], false⟩,
   ⟨0x24, 1, 0x4, .rw, 1, .const 0x0, [⟨0, 32, .any⟩], false⟩,
   ⟨0x28, 1, 0x4, .ro, 0, .const 0x0, [], false⟩,
   ⟨0x2C, 1, 0x4, .ro, 0, .const 0x0, [], false⟩,
   ⟨0x30, 1, 0x4, .ro, 0, .const 0x0, [], false⟩,
   ⟨0x34, 1, 0x4, .wo, 1, .const 0x0, [⟨0, 32, .any⟩], false⟩,
   ⟨0x40, 1, 0x4, .rw, 1, .const 0x1F4, [⟨0, 16, .rng 0 20000⟩], false⟩,
   ⟨0x44, 1, 0x4, .rw, 1, .const 0x3E8, [⟨0, 16, .any⟩], false⟩,
   ⟨0x48, 1, 0x4, .rw, 1, .const 0xFA, [⟨0, 16, .any⟩], false⟩,
   ⟨0x4C, 1, 0x4, .rw, 1, .const 0x3E8, [⟨0, 16, .any⟩], false⟩,
   ⟨0x50, 1, 0x4, .rw, 1, .const 0x186A0, [⟨0, 32, .any⟩], false⟩,
   ⟨0x54, 1, 0x4, .rw, 1, .const 0x0, [⟨0, 32, .any⟩], false⟩,
   ⟨0x58, 1, 0x4, .rw, 1, .const 0x0, [⟨0, 32, .any⟩], false⟩,
   ⟨0x5C, 1, 0x4, .rw, 1, .const 0x0, [⟨0, 32, .any⟩], false⟩,
   ⟨0x60, 1, 0x4, .rw, 1, .const 0x0, [⟨0, 32, .any⟩], false⟩,
   ⟨0x64, 1, 0x4, .rw, 1, .const 0x3F733333, [⟨0, 32, .frng 0x00000000 0x3F7AE148⟩], false⟩,
   ⟨0x68, 1, 0x4, .rw, 1, .const 0x0, [⟨0, 32, .any⟩], false⟩]

/-- Registers of the block: motion axis MA.n with its feedback (R312, R327). -/
def maMapB : List RegDef :=
  [⟨0x6C, 1, 0x4, .rw, 1, .const 0x0, [⟨0, 32, .any⟩], false⟩,
   ⟨0x70, 1, 0x4, .rw, 1, .const 0x9C4, [⟨0, 16, .any⟩], false⟩,
   ⟨0x74, 1, 0x4, .rw, 1, .const 0x2EE0, [⟨0, 16, .any⟩], false⟩,
   ⟨0x80, 1, 0x4, .rw, 1, .const 0x20, [⟨0, 24, .any⟩], false⟩,
   ⟨0x84, 1, 0x4, .rw, 1, .const 0x3000, [⟨0, 16, .any⟩], false⟩,
   ⟨0x88, 1, 0x4, .rw, 1, .const 0x64, [⟨0, 16, .rng 1 65535⟩], false⟩,
   ⟨0x8C, 1, 0x4, .rw, 1, .const 0x3D800000, [⟨0, 32, .frng 0x00000000 0x3F800000⟩], false⟩,
   ⟨0x90, 4, 0x4, .rw, 1, .const 0x0, [⟨0, 32, .any⟩], false⟩,
   ⟨0xA0, 1, 0x4, .ro, 0, .const 0xFFFF, [], false⟩,
   ⟨0xC0, 1, 0x4, .rw, 1, .const 0x640009, [⟨0, 2, .rng 0 2⟩, ⟨2, 2, .rng 0 2⟩, ⟨4, 2, .rng 0 2⟩, ⟨6, 3, .any⟩, ⟨16, 10, .rng 0 1000⟩], false⟩,
   ⟨0xC4, 1, 0x4, .ro, 0, .const 0x0, [], false⟩,
   ⟨0xC8, 1, 0x4, .wo, 1, .const 0x0, [⟨0, 1, .any⟩, ⟨1, 1, .any⟩, ⟨2, 1, .any⟩], true⟩,
   ⟨0xCC, 3, 0x4, .rc, 0, .const 0x0, [], false⟩,
   ⟨0xD8, 1, 0x4, .rw, 1, .const 0x522, [⟨0, 2, .rng 1 2⟩, ⟨4, 2, .rng 1 2⟩, ⟨8, 2, .rng 1 2⟩, ⟨10, 2, .rng 1 2⟩], false⟩,
   ⟨0xE0, 1, 0x4, .rw, 1, .const 0x0, [⟨0, 2, .rng 0 2⟩, ⟨2, 1, .any⟩], false⟩,
   ⟨0xE4, 1, 0x4, .rw, 1, .const 0x40, [⟨0, 24, .any⟩], false⟩,
   ⟨0xE8, 1, 0x4, .rw, 1, .const 0x4, [⟨0, 24, .any⟩], false⟩,
   ⟨0xEC, 1, 0x4, .rw, 1, .const 0x0, [⟨0, 32, .any⟩], false⟩,
   ⟨0xF0, 1, 0x4, .rw, 1, .const 0x400, [⟨0, 32, .any⟩], false⟩,
   ⟨0xF4, 1, 0x4, .rw, 1, .const 0x1000000, [⟨0, 32, .rng 1 4294967295⟩], false⟩,
   ⟨0xF8, 1, 0x4, .ro, 0, .const 0x0, [], false⟩,
   ⟨0x100, 1, 0x4, .rw, 1, .const 0x11414, [⟨0, 8, .rng 1 255⟩, ⟨8, 8, .any⟩, ⟨16, 9, .rng 1 256⟩], false⟩,
   ⟨0x110, 1, 0x4, .rw, 1, .const 0x3F800000, [⟨0, 32, .any⟩], false⟩,
   ⟨0x114, 1, 0x4, .rw, 1, .const 0x0, [⟨0, 32, .any⟩], false⟩,
   ⟨0x118, 1, 0x4, .ro, 0, .const 0x0, [], false⟩]

/-- Registers of the block: motion axis MA.n with its feedback (R312, R327). -/
def maMapC : List RegDef :=
  [⟨0x140, 1, 0x4, .rc, 0, .const 0x0, [], false⟩,
   ⟨0x144, 1, 0x4, .rc, 0, .const 0x0, [], false⟩,
   ⟨0x148, 1, 0x4, .rc, 0, .const 0x0, [], false⟩,
   ⟨0x14C, 1, 0x4, .rc, 0, .const 0x0, [], false⟩,
   ⟨0x400, 1, 0x4, .rw, 1, .const 0x500, [⟨0, 2, .any⟩, ⟨2, 1, .any⟩, ⟨3, 1, .any⟩, ⟨4, 1, .any⟩, ⟨8, 8, .rng 5 255⟩, ⟨16, 12, .any⟩, ⟨28, 4, .any⟩], false⟩,
   ⟨0x404, 1, 0x4, .rw, 1, .const 0x1900, [⟨0, 3, .any⟩, ⟨8, 6, .rng 8 32⟩, ⟨16, 4, .rng 0 8⟩, ⟨24, 4, .rng 0 8⟩, ⟨28, 3, .rng 0 4⟩], false⟩,
   ⟨0x408, 1, 0x4, .rw, 1, .const 0x3, [⟨0, 8, .any⟩, ⟨8, 8, .any⟩, ⟨16, 5, .any⟩], false⟩,
   ⟨0x40C, 1, 0x4, .rw, 1, .const 0x0, [⟨0, 32, .any⟩], false⟩,
   ⟨0x410, 1, 0x4, .rw, 1, .const 0x0, [⟨0, 32, .any⟩], false⟩,
   ⟨0x414, 1, 0x4, .rw, 1, .const 0x3, [⟨0, 8, .rng 1 255⟩], false⟩,
   ⟨0x418, 1, 0x4, .ro, 0, .const 0x0, [], false⟩,
   ⟨0x41C, 1, 0x4, .ro, 0, .const 0x0, [], false⟩,
   ⟨0x420, 1, 0x4, .ro, 0, .const 0x0, [], false⟩,
   ⟨0x424, 1, 0x4, .ro, 0, .const 0x0, [], false⟩,
   ⟨0x428, 1, 0x4, .ro, 0, .const 0x0, [], false⟩,
   ⟨0x42C, 1, 0x4, .ro, 0, .const 0x0, [], false⟩,
   ⟨0x430, 1, 0x4, .rw, 1, .const 0x4, [⟨0, 32, .any⟩], false⟩,
   ⟨0x440, 1, 0x4, .rc, 0, .const 0x0, [], false⟩,
   ⟨0x444, 1, 0x4, .rc, 0, .const 0x0, [], false⟩,
   ⟨0x448, 1, 0x4, .rc, 0, .const 0x0, [], false⟩,
   ⟨0x44C, 1, 0x4, .rc, 0, .const 0x0, [], false⟩,
   ⟨0x450, 1, 0x4, .rc, 0, .const 0x0, [], false⟩,
   ⟨0x454, 1, 0x4, .rc, 0, .const 0x0, [], false⟩,
   ⟨0x480, 1, 0x4, .rw, 1, .const 0x0, [⟨0, 2, .rng 0 2⟩, ⟨2, 1, .any⟩, ⟨3, 1, .any⟩], false⟩,
   ⟨0x484, 1, 0x4, .rw, 1, .const 0x0, [⟨0, 32, .any⟩], false⟩]

/-- Registers of the block: motion axis MA.n with its feedback (R312, R327). -/
def maMapD : List RegDef :=
  [⟨0x488, 1, 0x4, .rw, 1, .const 0x0, [⟨0, 32, .any⟩], false⟩,
   ⟨0x48C, 1, 0x4, .rw, 1, .const 0x4, [⟨0, 32, .any⟩], false⟩,
   ⟨0x490, 1, 0x4, .w1s, 1, .const 0x0, [⟨0, 1, .any⟩], true⟩,
   ⟨0x494, 1, 0x4, .ro, 0, .const 0x0, [], false⟩,
   ⟨0x498, 1, 0x4, .ro, 0, .const 0x0, [], false⟩,
   ⟨0x49C, 1, 0x4, .rc, 0, .const 0x0, [], false⟩,
   ⟨0x4A0, 1, 0x4, .rc, 0, .const 0x0, [], false⟩,
   ⟨0x500, 1, 0x4, .rw, 1, .const 0x10000, [⟨0, 2, .rng 0 2⟩, ⟨2, 1, .any⟩, ⟨3, 1, .any⟩, ⟨4, 1, .any⟩, ⟨16, 16, .rng 1 65535⟩], false⟩,
   ⟨0x504, 1, 0x4, .rw, 1, .const 0x0, [⟨0, 32, .any⟩], false⟩,
   ⟨0x508, 1, 0x4, .rw, 1, .const 0x1, [⟨0, 32, .rng 1 2147483647⟩], false⟩,
   ⟨0x50C, 1, 0x4, .rw, 1, .const 0x0, [⟨0, 32, .any⟩], false⟩,
   ⟨0x510, 1, 0x4, .w1s, 1, .const 0x0, [⟨0, 1, .any⟩, ⟨1, 1, .any⟩], false⟩,
   ⟨0x514, 1, 0x4, .ro, 0, .const 0x0, [], false⟩,
   ⟨0x518, 1, 0x4, .ro, 0, .const 0x0, [], false⟩,
   ⟨0x51C, 1, 0x4, .ro, 0, .const 0x0, [], false⟩,
   ⟨0x520, 1, 0x4, .rc, 0, .const 0x0, [], false⟩,
   ⟨0x524, 1, 0x4, .rc, 0, .const 0x0, [], false⟩,
   ⟨0x580, 1, 0x4, .rw, 1, .const 0x1400, [⟨0, 2, .rng 0 2⟩, ⟨8, 8, .rng 1 255⟩], false⟩]

/-- All registers of the block: motion axis MA.n with its feedback (R312, R327). -/
def maMap : List RegDef := maMapA ++ maMapB ++ maMapC ++ maMapD

/-- Registers of the block: probes (R328). -/
def prbMap : List RegDef :=
  [⟨0x0, 4, 0x4, .rw, 1, .const 0x4, [⟨0, 1, .any⟩, ⟨1, 1, .any⟩, ⟨2, 2, .rng 1 3⟩, ⟨8, 8, .any⟩, ⟨16, 1, .any⟩], false⟩,
   ⟨0x10, 1, 0x4, .w1s, 1, .const 0x0, [⟨0, 1, .any⟩, ⟨1, 1, .any⟩, ⟨2, 1, .any⟩, ⟨3, 1, .any⟩], true⟩,
   ⟨0x14, 1, 0x4, .ro, 0, .const 0x0, [], false⟩,
   ⟨0x20, 4, 0x4, .ro, 0, .const 0x0, [], false⟩,
   ⟨0x30, 4, 0x4, .ro, 0, .const 0x0, [], false⟩,
   ⟨0x40, 4, 0x4, .rc, 0, .const 0x0, [], false⟩,
   ⟨0x50, 4, 0x4, .rc, 0, .const 0x0, [], false⟩,
   ⟨0x100, 8, 0x4, .ro, 0, .const 0x0, [], false⟩,
   ⟨0x120, 8, 0x4, .ro, 0, .const 0x0, [], false⟩,
   ⟨0x140, 8, 0x4, .ro, 0, .const 0x0, [], false⟩,
   ⟨0x160, 8, 0x4, .ro, 0, .const 0x0, [], false⟩,
   ⟨0x180, 8, 0x4, .ro, 0, .const 0x0, [], false⟩,
   ⟨0x1A0, 8, 0x4, .ro, 0, .const 0x0, [], false⟩,
   ⟨0x1C0, 8, 0x4, .ro, 0, .const 0x0, [], false⟩,
   ⟨0x1E0, 8, 0x4, .ro, 0, .const 0x0, [], false⟩]

/-- Registers of the block: illumination (R339, R340). -/
def illMapA : List RegDef :=
  [⟨0x0, 4, 0x100, .rw, 1, .const 0x200, [⟨0, 6, .rng 0 32⟩, ⟨8, 8, .rng 2 255⟩, ⟨16, 1, .any⟩, ⟨17, 1, .any⟩, ⟨18, 1, .any⟩, ⟨24, 3, .any⟩], false⟩,
   ⟨0x4, 4, 0x100, .w1s, 1, .const 0x0, [⟨0, 1, .any⟩, ⟨1, 1, .any⟩], false⟩,
   ⟨0x8, 4, 0x100, .ro, 0, .const 0x0, [], false⟩,
   ⟨0xC, 4, 0x100, .rw, 1, .const 0x64, [⟨0, 20, .rng 1 1000000⟩], false⟩,
   ⟨0x10, 4, 0x100, .rw, 1, .const 0x0, [⟨0, 16, .any⟩], false⟩,
   ⟨0x14, 4, 0x100, .rw, 1, .const 0x64, [⟨0, 16, .rng 1 65535⟩], false⟩,
   ⟨0x18, 4, 0x100, .rw, 1, .const 0x100, [⟨0, 16, .rng 1 65535⟩], false⟩,
   ⟨0x1C, 4, 0x100, .rw, 1, .const 0x0, [⟨0, 24, .any⟩], false⟩,
   ⟨0x20, 4, 0x100, .rw, 1, .const 0x42700000, [⟨0, 32, .any⟩], false⟩,
   ⟨0x24, 4, 0x100, .rw, 1, .const 0x42A00000, [⟨0, 32, .any⟩], false⟩,
   ⟨0x28, 4, 0x100, .rw, 1, .const 0x400, [⟨0, 12, .any⟩], false⟩,
   ⟨0x30, 4, 0x100, .rc, 0, .const 0x0, [], false⟩,
   ⟨0x34, 4, 0x100, .rc, 0, .const 0x0, [], false⟩,
   ⟨0x38, 4, 0x100, .rc, 0, .const 0x0, [], false⟩,
   ⟨0x3C, 4, 0x100, .rc, 0, .const 0x0, [], false⟩,
   ⟨0x40, 4, 0x100, .rc, 0, .const 0x0, [], false⟩,
   ⟨0x400, 4, 0x20, .rw, 1, .const 0x0, [⟨0, 1, .any⟩, ⟨1, 2, .any⟩, ⟨8, 8, .any⟩], false⟩,
   ⟨0x404, 4, 0x20, .rw, 1, .const 0x8000, [⟨0, 16, .rng 1 65535⟩], false⟩,
   ⟨0x408, 4, 0x20, .rw, 1, .const 0x3D4CCCCD, [⟨0, 32, .frng 0x00000000 0x3F800000⟩], false⟩,
   ⟨0x40C, 4, 0x20, .rw, 1, .const 0x3F000000, [⟨0, 32, .fgt0⟩], false⟩,
   ⟨0x410, 4, 0x20, .rw, 1, .const 0x40000000, [⟨0, 32, .any⟩], false⟩,
   ⟨0x414, 4, 0x20, .ro, 0, .const 0x0, [], false⟩,
   ⟨0x418, 4, 0x20, .ro, 0, .const 0x3F800000, [], false⟩,
   ⟨0x480, 1, 0x4, .ro, 0, .const 0x0, [], false⟩,
   ⟨0x1000, 2048, 0x4, .rw, 1, .const 0x0, [⟨0, 12, .any⟩, ⟨12, 1, .any⟩, ⟨13, 2, .any⟩], false⟩]

/-- Registers of the block: illumination (R339, R340). -/
def illMapB : List RegDef :=
  [⟨0x3000, 2048, 0x4, .ro, 0, .const 0x0, [], false⟩]

/-- All registers of the block: illumination (R339, R340). -/
def illMap : List RegDef := illMapA ++ illMapB

/-- Registers of the block: consumable tags (R353). -/
def tagMap : List RegDef :=
  [⟨0x0, 1, 0x4, .rw, 1, .const 0x3FFFFFF, [⟨0, 26, .any⟩], false⟩,
   ⟨0x4, 1, 0x4, .rw, 1, .const 0x3C, [⟨0, 16, .rng 1 65535⟩], false⟩,
   ⟨0x8, 1, 0x4, .w1s, 1, .const 0x0, [⟨0, 5, .rng 0 25⟩, ⟨8, 1, .any⟩, ⟨9, 1, .any⟩], true⟩,
   ⟨0x10, 1, 0x4, .rw, 1, .const 0x0, [⟨0, 3, .any⟩, ⟨3, 2, .any⟩, ⟨8, 3, .any⟩, ⟨11, 2, .any⟩], false⟩,
   ⟨0x14, 2, 0x4, .rw, 1, .const 0x0, [⟨0, 32, .any⟩], false⟩,
   ⟨0x20, 2, 0x10, .ro, 0, .const 0x0, [], false⟩,
   ⟨0x24, 2, 0x10, .ro, 0, .const 0x0, [], false⟩,
   ⟨0x28, 2, 0x10, .ro, 0, .const 0x0, [], false⟩,
   ⟨0x2C, 2, 0x10, .ro, 0, .const 0x0, [], false⟩,
   ⟨0x40, 2, 0x4, .rc, 0, .const 0x0, [], false⟩,
   ⟨0x100, 26, 0x4, .ro, 0, .const 0x0, [], false⟩,
   ⟨0x180, 26, 0x4, .rc, 0, .const 0x0, [], false⟩,
   ⟨0x200, 64, 0x4, .rw, 8, .const 0x0, [⟨0, 32, .any⟩], true⟩,
   ⟨0x300, 1, 0x4, .rw, 1, .const 0x0, [⟨0, 5, .rng 0 25⟩, ⟨8, 8, .rng 1 64⟩, ⟨16, 11, .any⟩, ⟨30, 1, .any⟩, ⟨31, 1, .any⟩], true⟩,
   ⟨0x304, 1, 0x4, .ro, 0, .const 0x0, [], false⟩,
   ⟨0x340, 16, 0x4, .rw, 1, .const 0x0, [⟨0, 32, .any⟩], true⟩]

/-- Registers of the block: event matrix (R25). -/
def evMap : List RegDef :=
  [⟨0x0, 64, 0x4, .rw, 1, .const 0x0, [⟨0, 10, .evSrc⟩, ⟨12, 1, .any⟩, ⟨13, 1, .any⟩, ⟨16, 8, .any⟩], false⟩,
   ⟨0x100, 64, 0x4, .rc, 0, .const 0x0, [], false⟩,
   ⟨0x200, 2, 0x4, .ro, 0, .const 0x0, [], false⟩,
   ⟨0x400, 96, 0x4, .rw, 1, .const 0x0, [⟨0, 6, .any⟩, ⟨8, 1, .any⟩], false⟩]

/-- Registers of the block: ring RING.r (R375). -/
def ringMap : List RegDef :=
  [⟨0x0, 1, 0x4, .rw, 1, .ringCfg, [⟨0, 2, .rng 0 2⟩, ⟨2, 2, .rng 0 2⟩, ⟨4, 5, .rng 6 16⟩, ⟨9, 1, .any⟩], false⟩,
   ⟨0x4, 1, 0x4, .rw, 1, .ringBind, [⟨0, 8, .any⟩, ⟨8, 8, .any⟩, ⟨16, 16, .any⟩], false⟩,
   ⟨0x8, 1, 0x4, .rw, 1, .const 0x0, [⟨0, 32, .mult 4096⟩], false⟩,
   ⟨0xC, 1, 0x4, .rw, 1, .const 0x0, [⟨0, 32, .any⟩], false⟩,
   ⟨0x10, 1, 0x4, .rw, 1, .const 0x0, [⟨0, 32, .mult 16⟩], false⟩,
   ⟨0x14, 1, 0x4, .rw, 1, .const 0x0, [⟨0, 32, .any⟩], false⟩,
   ⟨0x18, 1, 0x4, .rw, 3, .const 0x0, [⟨0, 32, .any⟩], true⟩,
   ⟨0x1C, 1, 0x4, .ro, 0, .const 0x0, [], false⟩,
   ⟨0x20, 1, 0x4, .w1s, 1, .const 0x0, [⟨0, 1, .any⟩, ⟨1, 1, .any⟩], false⟩,
   ⟨0x24, 1, 0x4, .ro, 0, .const 0x0, [], false⟩,
   ⟨0x28, 1, 0x4, .rw, 1, .const 0x0, [⟨0, 16, .any⟩, ⟨16, 16, .rng 1 65535⟩], false⟩,
   ⟨0x2C, 1, 0x4, .rc, 0, .const 0x0, [], false⟩,
   ⟨0x30, 1, 0x4, .rc, 0, .const 0x0, [], false⟩]

/-- Registers of the block: host and interrupts (R376). -/
def hostMap : List RegDef :=
  [⟨0x0, 1, 0x4, .ro, 0, .const 0x0, [], false⟩,
   ⟨0x4, 1, 0x4, .rc, 0, .const 0x0, [], false⟩,
   ⟨0x8, 1, 0x4, .rw, 1, .const 0x0, [⟨0, 1, .any⟩, ⟨1, 2, .any⟩], false⟩,
   ⟨0xC, 1, 0x4, .rc, 0, .const 0x0, [], false⟩,
   ⟨0x100, 24, 0x4, .w1c, 1, .const 0x0, [⟨0, 1, .any⟩, ⟨1, 1, .any⟩, ⟨2, 1, .any⟩, ⟨3, 1, .any⟩, ⟨4, 1, .any⟩, ⟨5, 1, .any⟩], true⟩,
   ⟨0x400, 256, 0x4, .rw, 1, .const 0x0, [⟨0, 8, .any⟩, ⟨8, 1, .any⟩], false⟩,
   ⟨0x800, 8, 0x4, .w1c, 3, .const 0x0, [⟨0, 32, .any⟩], true⟩,
   ⟨0x820, 1, 0x4, .wo, 3, .const 0x0, [⟨0, 8, .any⟩], true⟩]

/-- Registers of the block: EPS codec (R376). -/
def epsMap : List RegDef :=
  [⟨0x0, 1, 0x4, .ro, 0, .const 0x180, [], false⟩,
   ⟨0x100, 24, 0x10, .rc, 0, .const 0x0, [], false⟩,
   ⟨0x104, 24, 0x10, .rc, 0, .const 0x0, [], false⟩,
   ⟨0x108, 24, 0x10, .rc, 0, .const 0x0, [], false⟩,
   ⟨0x10C, 24, 0x10, .rc, 0, .const 0x0, [], false⟩]

/-- Registers of the block: Suder lanes and gang (R394). -/
def lanMapA : List RegDef :=
  [⟨0x0, 1, 0x4, .ro, 0, .const 0x0, [], false⟩,
   ⟨0x4, 1, 0x4, .rw, 1, .const 0x4E20, [⟨0, 16, .rng 1 65535⟩], false⟩,
   ⟨0x8, 1, 0x4, .rc, 0, .const 0x0, [], false⟩,
   ⟨0x1000, 2, 0x1000, .rw, 1, .const 0x6204004, [⟨0, 2, .rng 0 1⟩, ⟨2, 1, .any⟩, ⟨3, 1, .any⟩, ⟨8, 8, .any⟩, ⟨16, 8, .any⟩, ⟨24, 8, .rng 1 255⟩], false⟩,
   ⟨0x1004, 2, 0x1000, .w1s, 1, .const 0x0, [⟨0, 1, .any⟩, ⟨1, 1, .any⟩, ⟨2, 1, .any⟩, ⟨3, 1, .any⟩], true⟩,
   ⟨0x1008, 2, 0x1000, .ro, 0, .const 0x0, [], false⟩,
   ⟨0x100C, 2, 0x1000, .rc, 0, .const 0x0, [], false⟩,
   ⟨0x1010, 2, 0x1000, .rc, 0, .const 0x0, [], false⟩,
   ⟨0x1014, 2, 0x1000, .rc, 0, .const 0x0, [], false⟩,
   ⟨0x1018, 2, 0x1000, .rc, 0, .const 0x0, [], false⟩,
   ⟨0x101C, 2, 0x1000, .rc, 0, .const 0x0, [], false⟩,
   ⟨0x1020, 2, 0x1000, .ro, 0, .const 0x0, [], false⟩,
   ⟨0x1100, 2, 0x1000, .ro, 0, .const 0x0, [], false⟩,
   ⟨0x1104, 2, 0x1000, .rw, 1, .const 0x0, [⟨0, 2, .any⟩, ⟨2, 1, .any⟩, ⟨3, 1, .any⟩], false⟩,
   ⟨0x1108, 2, 0x1000, .rc, 0, .const 0x0, [], false⟩,
   ⟨0x1110, 2, 0x1000, .ro, 0, .const 0x0, [], false⟩,
   ⟨0x1114, 2, 0x1000, .ro, 0, .const 0x0, [], false⟩,
   ⟨0x1118, 2, 0x1000, .ro, 0, .const 0x0, [], false⟩,
   ⟨0x111C, 2, 0x1000, .ro, 0, .const 0x0, [], false⟩,
   ⟨0x1120, 2, 0x1000, .ro, 0, .const 0x0, [], false⟩,
   ⟨0x1124, 2, 0x1000, .ro, 0, .const 0x0, [], false⟩,
   ⟨0x1128, 2, 0x1000, .ro, 0, .const 0x0, [], false⟩,
   ⟨0x112C, 2, 0x1000, .ro, 0, .const 0x0, [], false⟩,
   ⟨0x1130, 2, 0x1000, .ro, 0, .const 0x0, [], false⟩,
   ⟨0x1134, 2, 0x1000, .ro, 0, .const 0x0, [], false⟩]

/-- Registers of the block: Suder lanes and gang (R394). -/
def lanMapB : List RegDef :=
  [⟨0x1138, 2, 0x1000, .ro, 0, .const 0x0, [], false⟩,
   ⟨0x113C, 2, 0x1000, .ro, 0, .const 0x0, [], false⟩,
   ⟨0x1140, 2, 0x1000, .ro, 0, .const 0x0, [], false⟩,
   ⟨0x1144, 2, 0x1000, .rw, 1, .const 0x0, [⟨0, 2, .any⟩, ⟨2, 1, .any⟩, ⟨3, 1, .any⟩], false⟩,
   ⟨0x1148, 2, 0x1000, .rc, 0, .const 0x0, [], false⟩,
   ⟨0x1150, 2, 0x1000, .ro, 0, .const 0x0, [], false⟩,
   ⟨0x1154, 2, 0x1000, .ro, 0, .const 0x0, [], false⟩,
   ⟨0x1158, 2, 0x1000, .ro, 0, .const 0x0, [], false⟩,
   ⟨0x115C, 2, 0x1000, .ro, 0, .const 0x0, [], false⟩,
   ⟨0x1160, 2, 0x1000, .ro, 0, .const 0x0, [], false⟩,
   ⟨0x1164, 2, 0x1000, .ro, 0, .const 0x0, [], false⟩,
   ⟨0x1168, 2, 0x1000, .ro, 0, .const 0x0, [], false⟩,
   ⟨0x116C, 2, 0x1000, .ro, 0, .const 0x0, [], false⟩,
   ⟨0x1170, 2, 0x1000, .ro, 0, .const 0x0, [], false⟩,
   ⟨0x1174, 2, 0x1000, .ro, 0, .const 0x0, [], false⟩,
   ⟨0x1178, 2, 0x1000, .ro, 0, .const 0x0, [], false⟩,
   ⟨0x117C, 2, 0x1000, .ro, 0, .const 0x0, [], false⟩,
   ⟨0x1180, 2, 0x1000, .ro, 0, .const 0x0, [], false⟩,
   ⟨0x1184, 2, 0x1000, .rw, 1, .const 0x0, [⟨0, 2, .any⟩, ⟨2, 1, .any⟩, ⟨3, 1, .any⟩], false⟩,
   ⟨0x1188, 2, 0x1000, .rc, 0, .const 0x0, [], false⟩,
   ⟨0x1190, 2, 0x1000, .ro, 0, .const 0x0, [], false⟩,
   ⟨0x1194, 2, 0x1000, .ro, 0, .const 0x0, [], false⟩,
   ⟨0x1198, 2, 0x1000, .ro, 0, .const 0x0, [], false⟩,
   ⟨0x119C, 2, 0x1000, .ro, 0, .const 0x0, [], false⟩,
   ⟨0x11A0, 2, 0x1000, .ro, 0, .const 0x0, [], false⟩]

/-- Registers of the block: Suder lanes and gang (R394). -/
def lanMapC : List RegDef :=
  [⟨0x11A4, 2, 0x1000, .ro, 0, .const 0x0, [], false⟩,
   ⟨0x11A8, 2, 0x1000, .ro, 0, .const 0x0, [], false⟩,
   ⟨0x11AC, 2, 0x1000, .ro, 0, .const 0x0, [], false⟩,
   ⟨0x11B0, 2, 0x1000, .ro, 0, .const 0x0, [], false⟩,
   ⟨0x11B4, 2, 0x1000, .ro, 0, .const 0x0, [], false⟩,
   ⟨0x11B8, 2, 0x1000, .ro, 0, .const 0x0, [], false⟩,
   ⟨0x11BC, 2, 0x1000, .ro, 0, .const 0x0, [], false⟩,
   ⟨0x11C0, 2, 0x1000, .ro, 0, .const 0x0, [], false⟩,
   ⟨0x11C4, 2, 0x1000, .rw, 1, .const 0x0, [⟨0, 2, .any⟩, ⟨2, 1, .any⟩, ⟨3, 1, .any⟩], false⟩,
   ⟨0x11C8, 2, 0x1000, .rc, 0, .const 0x0, [], false⟩,
   ⟨0x11D0, 2, 0x1000, .ro, 0, .const 0x0, [], false⟩,
   ⟨0x11D4, 2, 0x1000, .ro, 0, .const 0x0, [], false⟩,
   ⟨0x11D8, 2, 0x1000, .ro, 0, .const 0x0, [], false⟩,
   ⟨0x11DC, 2, 0x1000, .ro, 0, .const 0x0, [], false⟩,
   ⟨0x11E0, 2, 0x1000, .ro, 0, .const 0x0, [], false⟩,
   ⟨0x11E4, 2, 0x1000, .ro, 0, .const 0x0, [], false⟩,
   ⟨0x11E8, 2, 0x1000, .ro, 0, .const 0x0, [], false⟩,
   ⟨0x11EC, 2, 0x1000, .ro, 0, .const 0x0, [], false⟩,
   ⟨0x11F0, 2, 0x1000, .ro, 0, .const 0x0, [], false⟩,
   ⟨0x11F4, 2, 0x1000, .ro, 0, .const 0x0, [], false⟩,
   ⟨0x11F8, 2, 0x1000, .ro, 0, .const 0x0, [], false⟩,
   ⟨0x11FC, 2, 0x1000, .ro, 0, .const 0x0, [], false⟩]

/-- All registers of the block: Suder lanes and gang (R394). -/
def lanMap : List RegDef := lanMapA ++ lanMapB ++ lanMapC

/-- Registers of the block: debug and damper (R445). -/
def dbgMap : List RegDef :=
  [⟨0x0, 1, 0x4, .rw, 1, .const 0x0, [⟨0, 1, .any⟩], false⟩,
   ⟨0x4, 1, 0x4, .w1s, 1, .const 0x0, [⟨0, 1, .any⟩, ⟨1, 1, .any⟩], true⟩,
   ⟨0x8, 1, 0x4, .ro, 0, .const 0x0, [], false⟩,
   ⟨0xC, 1, 0x4, .ro, 0, .const 0x0, [], false⟩,
   ⟨0x10, 1, 0x4, .rc, 0, .const 0x0, [], false⟩,
   ⟨0x100, 12, 0x4, .rc, 0, .const 0x0, [], false⟩,
   ⟨0x140, 12, 0x4, .rc, 0, .const 0x0, [], false⟩,
   ⟨0x180, 1, 0x4, .ro, 0, .const 0x0, [], false⟩,
   ⟨0x184, 1, 0x4, .ro, 0, .const 0x0, [], false⟩]

/-- The registers of a block. -/
def blkMap : Blk → List RegDef
  | .glb => glbMap
  | .stk => stkMap
  | .acc => accMap
  | .hk => hkMap
  | .cl => clMap
  | .ch => chMap
  | .cam => camMap
  | .em => emMap
  | .emp => empMap
  | .ma => maMap
  | .prb => prbMap
  | .ill => illMap
  | .tag => tagMap
  | .ev => evMap
  | .ring => ringMap
  | .host => hostMap
  | .eps => epsMap
  | .lan => lanMap
  | .dbg => dbgMap

/-- The row of a map that holds offset `o`, and the index in it. -/
def findReg : List RegDef → Nat → Option (RegDef × Nat)
  | [], _ => none
  | d :: ds, o =>
    if d.off ≤ o && (o - d.off) % d.st == 0 && decide ((o - d.off) / d.st < d.cnt) then some (d, (o - d.off) / d.st)
    else findReg ds o

/-- What an address names: the block, the instance, the row and the index. -/
structure RegAt where
  blk : Blk
  inst : Nat
  off : Nat
  rd : RegDef
  idx : Nat
  deriving DecidableEq, Repr

/-- The register at a BAR0 byte address, if one is mapped there (R446, R447). -/
def regAt (a : Nat) : Option RegAt :=
  match locate a with
  | none => none
  | some (b, i, o) =>
    match findReg (blkMap b) o with
    | none => none
    | some (d, k) => some ⟨b, i, o, d, k⟩

/-- R361: the reset value of RING_CFG of ring r. -/
def ringCfgReset (r : Nat) : Nat :=
  let kind := if r < 24 then 0 else if r < 48 then 1 else if r < 72 then 2 else if r < 80 then 0 else if r < 100 then 1 else 0
  let slot := if r < 24 then 0 else if r < 48 then 2 else if r < 90 then 0 else if r < 100 then 1 else 0
  let func := if r < 24 then 0 else if r < 72 then 1 else if r < 80 then 0 else if r < 89 then 1 else if r = 90 || r = 91 then 1 else 0
  kind + 4 * slot + 16 * 6 + 512 * func

/-- R361: the reset value of RING_BIND of ring r. -/
def ringBindReset (r : Nat) : Nat :=
  if r < 24 then 0x01 + 256 * r else if r < 48 then 0x02 + 256 * (r - 24) else if r < 72 then 0x03 + 256 * (r - 48)
  else if r < 80 then 0x04 + 256 * (r - 72) else if r < 88 then 0x05 + 256 * (r - 80) else if r = 88 then 0x06
  else if r = 89 then 0x07 else if r = 90 then 0x08 else if r = 91 then 0x09 else if r < 96 then 0x0A + 256 * (r - 92)
  else if r < 100 then 0x0B + 256 * (r - 96) else 0

/-- The reset value of one register (R448). -/
def RegAt.resetVal (x : RegAt) : Word :=
  match x.rd.reset with
  | .const n => toW n
  | .inst n => toW (n + x.inst)
  | .lin k => toW (x.idx * k)
  | .ringCfg => toW (ringCfgReset x.inst)
  | .ringBind => toW (ringBindReset x.inst)

/-- The reset value of the register at an address; an unmapped address reads 0 (R447). -/
def resetAt (a : Nat) : Word :=
  match regAt a with
  | none => 0#32
  | some x => x.resetVal

/-! The offsets of the registers, under the spec's names (R446). -/

namespace Reg
/-- Offset of DEVICE_ID. -/
abbrev DEVICE_ID : Nat := 0x0
/-- Offset of STEPPING. -/
abbrev STEPPING : Nat := 0x4
/-- Offset of VENDOR_ID. -/
abbrev VENDOR_ID : Nat := 0x8
/-- Offset of DEV_UID_LO. -/
abbrev DEV_UID_LO : Nat := 0xC
/-- Offset of DEV_UID_HI. -/
abbrev DEV_UID_HI : Nat := 0x10
/-- Offset of CAPS. -/
abbrev CAPS : Nat := 0x14
/-- Offset of GLB_STATUS. -/
abbrev GLB_STATUS : Nat := 0x18
/-- Offset of GLB_SCRATCH. -/
abbrev GLB_SCRATCH : Nat := 0x1C
/-- Offset of LSAFE_STATUS. -/
abbrev LSAFE_STATUS : Nat := 0x100
/-- Offset of LSAFE_CFG. -/
abbrev LSAFE_CFG : Nat := 0x104
/-- Offset of LSAFE_CLR. -/
abbrev LSAFE_CLR : Nat := 0x108
/-- Offset of LSAFE_CNT. -/
abbrev LSAFE_CNT : Nat := 0x10C
/-- Offset of BOOT_STATUS. -/
abbrev BOOT_STATUS : Nat := 0x200
/-- Offset of BOOT_STRAPS. -/
abbrev BOOT_STRAPS : Nat := 0x204
/-- Offset of RST_CAUSE. -/
abbrev RST_CAUSE : Nat := 0x208
/-- Offset of BOOT_SRC_LO. -/
abbrev BOOT_SRC_LO : Nat := 0x20C
/-- Offset of BOOT_SRC_HI. -/
abbrev BOOT_SRC_HI : Nat := 0x210
/-- Offset of BOOT_LEN. -/
abbrev BOOT_LEN : Nat := 0x214
/-- Offset of BOOT_CTRL. -/
abbrev BOOT_CTRL : Nat := 0x218
/-- Offset of BOOT_HASH. -/
abbrev BOOT_HASH : Nat := 0x220
/-- Offset of KEY_STATUS. -/
abbrev KEY_STATUS : Nat := 0x240
/-- Offset of KEY_CTRL. -/
abbrev KEY_CTRL : Nat := 0x244
/-- Offset of KEY_DATA. -/
abbrev KEY_DATA : Nat := 0x280
/-- Offset of STOKE_CFG. -/
abbrev STOKE_CFG : Nat := 0x0
/-- Offset of STOKE_CTRL. -/
abbrev STOKE_CTRL : Nat := 0x4
/-- Offset of STOKE_STATUS. -/
abbrev STOKE_STATUS : Nat := 0x8
/-- Offset of STOKE_CNT_LO. -/
abbrev STOKE_CNT_LO : Nat := 0x10
/-- Offset of STOKE_CNT_HI. -/
abbrev STOKE_CNT_HI : Nat := 0x14
/-- Offset of TAI_NS. -/
abbrev TAI_NS : Nat := 0x18
/-- Offset of TAI_SEC_LO. -/
abbrev TAI_SEC_LO : Nat := 0x1C
/-- Offset of TAI_SEC_HI. -/
abbrev TAI_SEC_HI : Nat := 0x20
/-- Offset of PPS_CTRL. -/
abbrev PPS_CTRL : Nat := 0x30
/-- Offset of TAI_NEXT_SEC_LO. -/
abbrev TAI_NEXT_SEC_LO : Nat := 0x34
/-- Offset of TAI_NEXT_SEC_HI. -/
abbrev TAI_NEXT_SEC_HI : Nat := 0x38
/-- Offset of PPS_PHASE_ERR. -/
abbrev PPS_PHASE_ERR : Nat := 0x40
/-- Offset of SLEW_PPB. -/
abbrev SLEW_PPB : Nat := 0x44
/-- Offset of PPS_ACC_CNT. -/
abbrev PPS_ACC_CNT : Nat := 0x48
/-- Offset of PPS_REJ_CNT. -/
abbrev PPS_REJ_CNT : Nat := 0x4C
/-- Offset of HOLDOVER_CNT. -/
abbrev HOLDOVER_CNT : Nat := 0x50
/-- Offset of PPS_STOKES. -/
abbrev PPS_STOKES : Nat := 0x54
/-- Offset of GANG_CFG. -/
abbrev GANG_CFG : Nat := 0x60
/-- Offset of LANE_ASYM. -/
abbrev LANE_ASYM : Nat := 0x64
/-- Offset of PATH_LAT. -/
abbrev PATH_LAT : Nat := 0x70
/-- Offset of GANG_PHASE_ERR. -/
abbrev GANG_PHASE_ERR : Nat := 0x80
/-- Offset of OVR_FLAG. -/
abbrev OVR_FLAG : Nat := 0x90
/-- Offset of OVR_CNT. -/
abbrev OVR_CNT : Nat := 0x100
/-- Offset of LOG_STATUS. -/
abbrev LOG_STATUS : Nat := 0x0
/-- Offset of LOG_CFG. -/
abbrev LOG_CFG : Nat := 0x4
/-- Offset of LOG_HELD. -/
abbrev LOG_HELD : Nat := 0x8
/-- Offset of LOG_HEAD_SEQ_LO. -/
abbrev LOG_HEAD_SEQ_LO : Nat := 0x10
/-- Offset of LOG_HEAD_SEQ_HI. -/
abbrev LOG_HEAD_SEQ_HI : Nat := 0x14
/-- Offset of LOG_HEAD. -/
abbrev LOG_HEAD : Nat := 0x20
/-- Offset of DENIED_CNT. -/
abbrev DENIED_CNT : Nat := 0x40
/-- Offset of DENIED_SUPPR_CNT. -/
abbrev DENIED_SUPPR_CNT : Nat := 0x44
/-- Offset of LAST_DENIED. -/
abbrev LAST_DENIED : Nat := 0x48
/-- Offset of LAST_DENIED_ORG. -/
abbrev LAST_DENIED_ORG : Nat := 0x4C
/-- Offset of LOG_BLOCK_CNT. -/
abbrev LOG_BLOCK_CNT : Nat := 0x50
/-- Offset of LOG_LOST_CNT. -/
abbrev LOG_LOST_CNT : Nat := 0x54
/-- Offset of SAFE_CFG. -/
abbrev SAFE_CFG : Nat := 0x80
/-- Offset of SAFE_STATUS. -/
abbrev SAFE_STATUS : Nat := 0x84
/-- Offset of SAFE_INH_HOLD. -/
abbrev SAFE_INH_HOLD : Nat := 0x88
/-- Offset of SAFE_PCAP_HOLD. -/
abbrev SAFE_PCAP_HOLD : Nat := 0x8C
/-- Offset of SAFE_CRC_ERR_CNT. -/
abbrev SAFE_CRC_ERR_CNT : Nat := 0x90
/-- Offset of SVC_CFG. -/
abbrev SVC_CFG : Nat := 0xC0
/-- Offset of SVC_STATUS. -/
abbrev SVC_STATUS : Nat := 0xC4
/-- Offset of SVC_CTRL. -/
abbrev SVC_CTRL : Nat := 0xC8
/-- Offset of SVC_FAIL_CNT. -/
abbrev SVC_FAIL_CNT : Nat := 0xCC
/-- Offset of HK_STATUS. -/
abbrev HK_STATUS : Nat := 0x0
/-- Offset of HK_OVERRIDE. -/
abbrev HK_OVERRIDE : Nat := 0x4
/-- Offset of TJ_CTRL. -/
abbrev TJ_CTRL : Nat := 0x8
/-- Offset of HK_ROUND. -/
abbrev HK_ROUND : Nat := 0xC
/-- Offset of THROTTLE_CNT. -/
abbrev THROTTLE_CNT : Nat := 0x10
/-- Offset of SENS_FAULT_CNT. -/
abbrev SENS_FAULT_CNT : Nat := 0x14
/-- Offset of TEMP. -/
abbrev TEMP : Nat := 0x40
/-- Offset of EXT_CFG. -/
abbrev EXT_CFG : Nat := 0xA0
/-- Offset of EXT_WARN. -/
abbrev EXT_WARN : Nat := 0xE0
/-- Offset of TH_CFG. -/
abbrev TH_CFG : Nat := 0x100
/-- Offset of RD_CFG. -/
abbrev RD_CFG : Nat := 0x120
/-- Offset of SUP_V. -/
abbrev SUP_V : Nat := 0x140
/-- Offset of SUP_DIP. -/
abbrev SUP_DIP : Nat := 0x180
/-- Offset of DIP_GATE_STOKES. -/
abbrev DIP_GATE_STOKES : Nat := 0x184
/-- Offset of BANK_STATUS. -/
abbrev BANK_STATUS : Nat := 0x188
/-- Offset of SUP_DIP_CNT. -/
abbrev SUP_DIP_CNT : Nat := 0x1C0
/-- Offset of CL_CFG. -/
abbrev CL_CFG : Nat := 0x0
/-- Offset of CL_STATUS. -/
abbrev CL_STATUS : Nat := 0x4
/-- Offset of CL_SWAP_CH. -/
abbrev CL_SWAP_CH : Nat := 0x8
/-- Offset of CL_SWAP_CTRL. -/
abbrev CL_SWAP_CTRL : Nat := 0xC
/-- Offset of CL_PAIR_STATUS. -/
abbrev CL_PAIR_STATUS : Nat := 0x10
/-- Offset of FAILOVER_CNT. -/
abbrev FAILOVER_CNT : Nat := 0x40
/-- Offset of REVERT_CNT. -/
abbrev REVERT_CNT : Nat := 0x44
/-- Offset of SLICE_PASS_CNT. -/
abbrev SLICE_PASS_CNT : Nat := 0x48
/-- Offset of SLICE_FAIL_CNT. -/
abbrev SLICE_FAIL_CNT : Nat := 0x4C
/-- Offset of SPOT_MISMATCH_CNT. -/
abbrev SPOT_MISMATCH_CNT : Nat := 0x50
/-- Offset of MIRROR_ERR_CNT. -/
abbrev MIRROR_ERR_CNT : Nat := 0x54
/-- Offset of CL_STOP_CNT. -/
abbrev CL_STOP_CNT : Nat := 0x58
/-- Offset of LOCK_MISMATCH_CNT. -/
abbrev LOCK_MISMATCH_CNT : Nat := 0x60
/-- Offset of RES_MISMATCH_CNT. -/
abbrev RES_MISMATCH_CNT : Nat := 0x80
/-- Offset of PROG_SRC_LO. -/
abbrev PROG_SRC_LO : Nat := 0x0
/-- Offset of PROG_SRC_HI. -/
abbrev PROG_SRC_HI : Nat := 0x4
/-- Offset of PROG_LEN. -/
abbrev PROG_LEN : Nat := 0x8
/-- Offset of PROG_CTRL. -/
abbrev PROG_CTRL : Nat := 0xC
/-- Offset of PROG_STATUS. -/
abbrev PROG_STATUS : Nat := 0x10
/-- Offset of ACTIVE_HASH. -/
abbrev ACTIVE_HASH : Nat := 0x20
/-- Offset of PENDING_HASH. -/
abbrev PENDING_HASH : Nat := 0x40
/-- Offset of MIRROR_CFG. -/
abbrev MIRROR_CFG : Nat := 0x60
/-- Offset of WCET_ACTIVE. -/
abbrev WCET_ACTIVE : Nat := 0x64
/-- Offset of LAYER_CTRL. -/
abbrev LAYER_CTRL : Nat := 0x68
/-- Offset of LAYER_STATUS. -/
abbrev LAYER_STATUS : Nat := 0x6C
/-- Offset of LAYER_CNT. -/
abbrev LAYER_CNT : Nat := 0x70
/-- Offset of FAULT_CTRL. -/
abbrev FAULT_CTRL : Nat := 0x74
/-- Offset of FAULT_STATUS. -/
abbrev FAULT_STATUS : Nat := 0x78
/-- Offset of ENG_STATUS. -/
abbrev ENG_STATUS : Nat := 0x100
/-- Offset of ENG_TRAP. -/
abbrev ENG_TRAP : Nat := 0x104
/-- Offset of ENG_TRAP_STOKE. -/
abbrev ENG_TRAP_STOKE : Nat := 0x108
/-- Offset of ENG_CYC_LAST. -/
abbrev ENG_CYC_LAST : Nat := 0x10C
/-- Offset of ENG_CYC_MAX. -/
abbrev ENG_CYC_MAX : Nat := 0x110
/-- Offset of ENG_STALL_LAST. -/
abbrev ENG_STALL_LAST : Nat := 0x114
/-- Offset of ENG_FSTAT. -/
abbrev ENG_FSTAT : Nat := 0x118
/-- Offset of TRAP_CNT. -/
abbrev TRAP_CNT : Nat := 0x11C
/-- Offset of ENG_TRAP_CLR. -/
abbrev ENG_TRAP_CLR : Nat := 0x120
/-- Offset of VEC_CFG. -/
abbrev VEC_CFG : Nat := 0x2000
/-- Offset of VEC_STATUS. -/
abbrev VEC_STATUS : Nat := 0x2004
/-- Offset of VEC_CTRL. -/
abbrev VEC_CTRL : Nat := 0x2008
/-- Offset of VEC_EPS_RATIO. -/
abbrev VEC_EPS_RATIO : Nat := 0x200C
/-- Offset of VEC_ERR_IDX. -/
abbrev VEC_ERR_IDX : Nat := 0x2010
/-- Offset of VEC_UNDERRUN_CNT. -/
abbrev VEC_UNDERRUN_CNT : Nat := 0x2014
/-- Offset of VEC_REFETCH_CNT. -/
abbrev VEC_REFETCH_CNT : Nat := 0x2018
/-- Offset of VEC_STREAM_IDX. -/
abbrev VEC_STREAM_IDX : Nat := 0x201C
/-- Offset of VEC_IN_BYTES. -/
abbrev VEC_IN_BYTES : Nat := 0x2020
/-- Offset of VEC_OUT_BYTES. -/
abbrev VEC_OUT_BYTES : Nat := 0x2024
/-- Offset of SYNC_TIMEOUT_DEF. -/
abbrev SYNC_TIMEOUT_DEF : Nat := 0x2030
/-- Offset of SYNC_TIMEOUT_CNT. -/
abbrev SYNC_TIMEOUT_CNT : Nat := 0x2034
/-- Offset of TA_VIEW. -/
abbrev TA_VIEW : Nat := 0x2100
/-- Offset of SV_SET. -/
abbrev SV_SET : Nat := 0x4000
/-- Offset of SV_MODE. -/
abbrev SV_MODE : Nat := 0x4004
/-- Offset of SV_STATUS. -/
abbrev SV_STATUS : Nat := 0x4008
/-- Offset of SV_CMD. -/
abbrev SV_CMD : Nat := 0x400C
/-- Offset of SV_POS. -/
abbrev SV_POS : Nat := 0x4010
/-- Offset of SV_ERR. -/
abbrev SV_ERR : Nat := 0x4014
/-- Offset of SV_DAC_CODE. -/
abbrev SV_DAC_CODE : Nat := 0x4018
/-- Offset of SV_ADC_RAW. -/
abbrev SV_ADC_RAW : Nat := 0x401C
/-- Offset of SV_KP. -/
abbrev SV_KP : Nat := 0x4020
/-- Offset of SV_KI. -/
abbrev SV_KI : Nat := 0x4024
/-- Offset of SV_KD. -/
abbrev SV_KD : Nat := 0x4028
/-- Offset of SV_D_ALPHA. -/
abbrev SV_D_ALPHA : Nat := 0x402C
/-- Offset of SV_KFV. -/
abbrev SV_KFV : Nat := 0x4030
/-- Offset of SV_KFA. -/
abbrev SV_KFA : Nat := 0x4034
/-- Offset of SV_I_MAX. -/
abbrev SV_I_MAX : Nat := 0x4038
/-- Offset of SV_CLAMP. -/
abbrev SV_CLAMP : Nat := 0x403C
/-- Offset of SV_N1_B0. -/
abbrev SV_N1_B0 : Nat := 0x4040
/-- Offset of SV_N1_B1. -/
abbrev SV_N1_B1 : Nat := 0x4044
/-- Offset of SV_N1_B2. -/
abbrev SV_N1_B2 : Nat := 0x4048
/-- Offset of SV_N1_A1. -/
abbrev SV_N1_A1 : Nat := 0x404C
/-- Offset of SV_N1_A2. -/
abbrev SV_N1_A2 : Nat := 0x4050
/-- Offset of SV_N2_B0. -/
abbrev SV_N2_B0 : Nat := 0x4054
/-- Offset of SV_N2_B1. -/
abbrev SV_N2_B1 : Nat := 0x4058
/-- Offset of SV_N2_B2. -/
abbrev SV_N2_B2 : Nat := 0x405C
/-- Offset of SV_N2_A1. -/
abbrev SV_N2_A1 : Nat := 0x4060
/-- Offset of SV_N2_A2. -/
abbrev SV_N2_A2 : Nat := 0x4064
/-- Offset of SV_NOTCH_EN. -/
abbrev SV_NOTCH_EN : Nat := 0x4068
/-- Offset of SV_OUT_OFFSET. -/
abbrev SV_OUT_OFFSET : Nat := 0x406C
/-- Offset of SV_FERR_MAX. -/
abbrev SV_FERR_MAX : Nat := 0x4070
/-- Offset of SV_FERR_STOKES. -/
abbrev SV_FERR_STOKES : Nat := 0x4074
/-- Offset of SV_SAT_STOKES. -/
abbrev SV_SAT_STOKES : Nat := 0x4078
/-- Offset of SV_CLAMP_STOKES. -/
abbrev SV_CLAMP_STOKES : Nat := 0x407C
/-- Offset of SV_CFG. -/
abbrev SV_CFG : Nat := 0x4080
/-- Offset of SV_PARAM_APPLY. -/
abbrev SV_PARAM_APPLY : Nat := 0x4084
/-- Offset of SV_PD_OFFSET_TGT. -/
abbrev SV_PD_OFFSET_TGT : Nat := 0x4088
/-- Offset of SV_PD_GAIN_TGT. -/
abbrev SV_PD_GAIN_TGT : Nat := 0x408C
/-- Offset of SV_PD_OFFSET_APPL. -/
abbrev SV_PD_OFFSET_APPL : Nat := 0x4090
/-- Offset of SV_PD_GAIN_APPL. -/
abbrev SV_PD_GAIN_APPL : Nat := 0x4094
/-- Offset of SV_FERR_PEAK. -/
abbrev SV_FERR_PEAK : Nat := 0x4098
/-- Offset of SV_CTRL. -/
abbrev SV_CTRL : Nat := 0x4400
/-- Offset of SV_CLEAR. -/
abbrev SV_CLEAR : Nat := 0x4404
/-- Offset of SV_FAULT. -/
abbrev SV_FAULT : Nat := 0x4408
/-- Offset of OUTSIDE_CNT. -/
abbrev OUTSIDE_CNT : Nat := 0x440C
/-- Offset of FC_CFG. -/
abbrev FC_CFG : Nat := 0x4410
/-- Offset of FC_ORIGIN_X. -/
abbrev FC_ORIGIN_X : Nat := 0x4414
/-- Offset of FC_ORIGIN_Y. -/
abbrev FC_ORIGIN_Y : Nat := 0x4418
/-- Offset of FC_FZ_GAIN. -/
abbrev FC_FZ_GAIN : Nat := 0x441C
/-- Offset of TRIM_DX_TGT. -/
abbrev TRIM_DX_TGT : Nat := 0x4420
/-- Offset of TRIM_DY_TGT. -/
abbrev TRIM_DY_TGT : Nat := 0x4424
/-- Offset of TRIM_ROT_TGT. -/
abbrev TRIM_ROT_TGT : Nat := 0x4428
/-- Offset of TRIM_SCALE_TGT. -/
abbrev TRIM_SCALE_TGT : Nat := 0x442C
/-- Offset of TRIM_RAMP. -/
abbrev TRIM_RAMP : Nat := 0x4430
/-- Offset of TRIM_STEP_MAX. -/
abbrev TRIM_STEP_MAX : Nat := 0x4434
/-- Offset of PD_STEP_MAX. -/
abbrev PD_STEP_MAX : Nat := 0x4438
/-- Offset of TRIM_DX_APPL. -/
abbrev TRIM_DX_APPL : Nat := 0x4440
/-- Offset of TRIM_DY_APPL. -/
abbrev TRIM_DY_APPL : Nat := 0x4444
/-- Offset of TRIM_ROT_APPL. -/
abbrev TRIM_ROT_APPL : Nat := 0x4448
/-- Offset of TRIM_SCALE_APPL. -/
abbrev TRIM_SCALE_APPL : Nat := 0x444C
/-- Offset of TRIM_STATUS. -/
abbrev TRIM_STATUS : Nat := 0x4450
/-- Offset of GRID_SRC_LO. -/
abbrev GRID_SRC_LO : Nat := 0x4460
/-- Offset of GRID_SRC_HI. -/
abbrev GRID_SRC_HI : Nat := 0x4464
/-- Offset of GRID_CRC. -/
abbrev GRID_CRC : Nat := 0x4468
/-- Offset of GRID_CTRL. -/
abbrev GRID_CTRL : Nat := 0x446C
/-- Offset of GRID_STATUS. -/
abbrev GRID_STATUS : Nat := 0x4470
/-- Offset of GRID_HASH. -/
abbrev GRID_HASH : Nat := 0x4480
/-- Offset of LAS_CFG. -/
abbrev LAS_CFG : Nat := 0x8000
/-- Offset of LAS_CTRL. -/
abbrev LAS_CTRL : Nat := 0x8004
/-- Offset of LAS_STATE. -/
abbrev LAS_STATE : Nat := 0x8008
/-- Offset of LAS_PMAX. -/
abbrev LAS_PMAX : Nat := 0x800C
/-- Offset of LAS_PCAP. -/
abbrev LAS_PCAP : Nat := 0x8010
/-- Offset of LAS_HOLD. -/
abbrev LAS_HOLD : Nat := 0x8014
/-- Offset of MON_CFG. -/
abbrev MON_CFG : Nat := 0x8018
/-- Offset of MON_TOL. -/
abbrev MON_TOL : Nat := 0x801C
/-- Offset of MON_GAIN. -/
abbrev MON_GAIN : Nat := 0x8020
/-- Offset of MON_OFFSET. -/
abbrev MON_OFFSET : Nat := 0x8024
/-- Offset of MON_W_SCALE. -/
abbrev MON_W_SCALE : Nat := 0x8028
/-- Offset of MON_MEAN. -/
abbrev MON_MEAN : Nat := 0x802C
/-- Offset of POWER_PLAYED. -/
abbrev POWER_PLAYED : Nat := 0x8030
/-- Offset of MON_DEV_CNT. -/
abbrev MON_DEV_CNT : Nat := 0x8034
/-- Offset of MASK_CNT. -/
abbrev MASK_CNT : Nat := 0x8038
/-- Offset of EDGE_BAD_CNT. -/
abbrev EDGE_BAD_CNT : Nat := 0x803C
/-- Offset of LAS_POWER. -/
abbrev LAS_POWER : Nat := 0x8040
/-- Offset of LAS_GATE_ON. -/
abbrev LAS_GATE_ON : Nat := 0x8044
/-- Offset of LAS_GATE_OFF. -/
abbrev LAS_GATE_OFF : Nat := 0x8048
/-- Offset of LOOP_MODE. -/
abbrev LOOP_MODE : Nat := 0xA000
/-- Offset of LOOP_SP. -/
abbrev LOOP_SP : Nat := 0xA004
/-- Offset of LOOP_SP_CAM. -/
abbrev LOOP_SP_CAM : Nat := 0xA008
/-- Offset of LOOP_CFG. -/
abbrev LOOP_CFG : Nat := 0xA00C
/-- Offset of LOOP_KI. -/
abbrev LOOP_KI : Nat := 0xA010
/-- Offset of LOOP_E_SPAN. -/
abbrev LOOP_E_SPAN : Nat := 0xA014
/-- Offset of LOOP_I_MIN. -/
abbrev LOOP_I_MIN : Nat := 0xA018
/-- Offset of LOOP_I_MAX. -/
abbrev LOOP_I_MAX : Nat := 0xA01C
/-- Offset of LOOP_UMAX. -/
abbrev LOOP_UMAX : Nat := 0xA020
/-- Offset of MIX_WE. -/
abbrev MIX_WE : Nat := 0xA024
/-- Offset of MIX_WB. -/
abbrev MIX_WB : Nat := 0xA028
/-- Offset of SHP_KP. -/
abbrev SHP_KP : Nat := 0xA02C
/-- Offset of SHP_KI. -/
abbrev SHP_KI : Nat := 0xA030
/-- Offset of SHP_SP_MIN. -/
abbrev SHP_SP_MIN : Nat := 0xA034
/-- Offset of SHP_SP_MAX. -/
abbrev SHP_SP_MAX : Nat := 0xA038
/-- Offset of HANDOVER_TOL. -/
abbrev HANDOVER_TOL : Nat := 0xA03C
/-- Offset of HANDOVER_RAMP. -/
abbrev HANDOVER_RAMP : Nat := 0xA040
/-- Offset of HANDOVER_LIMIT. -/
abbrev HANDOVER_LIMIT : Nat := 0xA044
/-- Offset of LOSS_STOKES. -/
abbrev LOSS_STOKES : Nat := 0xA048
/-- Offset of FREEZE_VAR. -/
abbrev FREEZE_VAR : Nat := 0xA04C
/-- Offset of FREEZE_STOKES. -/
abbrev FREEZE_STOKES : Nat := 0xA050
/-- Offset of P_MIN. -/
abbrev P_MIN : Nat := 0xA054
/-- Offset of CAM_AGE_MAX. -/
abbrev CAM_AGE_MAX : Nat := 0xA058
/-- Offset of LOOP_TRIM. -/
abbrev LOOP_TRIM : Nat := 0xA05C
/-- Offset of LOOP_STATUS. -/
abbrev LOOP_STATUS : Nat := 0xA060
/-- Offset of LOOP_U. -/
abbrev LOOP_U : Nat := 0xA064
/-- Offset of LOOP_I. -/
abbrev LOOP_I : Nat := 0xA068
/-- Offset of LOOP_E. -/
abbrev LOOP_E : Nat := 0xA06C
/-- Offset of LOOP_FB. -/
abbrev LOOP_FB : Nat := 0xA070
/-- Offset of LOOP_SP_USED. -/
abbrev LOOP_SP_USED : Nat := 0xA074
/-- Offset of SHP_I. -/
abbrev SHP_I : Nat := 0xA078
/-- Offset of LOSS_CNT. -/
abbrev LOSS_CNT : Nat := 0xA07C
/-- Offset of FREEZE_CNT. -/
abbrev FREEZE_CNT : Nat := 0xA080
/-- Offset of HANDOVER_REF_CNT. -/
abbrev HANDOVER_REF_CNT : Nat := 0xA084
/-- Offset of CAM_AGE_CNT. -/
abbrev CAM_AGE_CNT : Nat := 0xA088
/-- Offset of COEF_DROP_CNT. -/
abbrev COEF_DROP_CNT : Nat := 0xA08C
/-- Offset of LOOP_CAM_AGE. -/
abbrev LOOP_CAM_AGE : Nat := 0xA090
/-- Offset of LOOP_CAM_VAL. -/
abbrev LOOP_CAM_VAL : Nat := 0xA094
/-- Offset of LOOP_BLEND_LEFT. -/
abbrev LOOP_BLEND_LEFT : Nat := 0xA098
/-- Offset of PDE_STAT. -/
abbrev PDE_STAT : Nat := 0xA100
/-- Offset of PDB_STAT. -/
abbrev PDB_STAT : Nat := 0xA120
/-- Offset of GAIN_LUT. -/
abbrev GAIN_LUT : Nat := 0xA200
/-- Offset of TRACE_CFG. -/
abbrev TRACE_CFG : Nat := 0xC000
/-- Offset of TRACE_ALLOC. -/
abbrev TRACE_ALLOC : Nat := 0xC004
/-- Offset of TRACE_TRIG_CFG. -/
abbrev TRACE_TRIG_CFG : Nat := 0xC008
/-- Offset of TRACE_TRIG_LEVEL. -/
abbrev TRACE_TRIG_LEVEL : Nat := 0xC00C
/-- Offset of TRACE_CTRL. -/
abbrev TRACE_CTRL : Nat := 0xC010
/-- Offset of TRACE_STATUS. -/
abbrev TRACE_STATUS : Nat := 0xC014
/-- Offset of TRACE_TRIG_IDX. -/
abbrev TRACE_TRIG_IDX : Nat := 0xC018
/-- Offset of TRACE_TRIG_STOKE. -/
abbrev TRACE_TRIG_STOKE : Nat := 0xC01C
/-- Offset of TRACE_NODE. -/
abbrev TRACE_NODE : Nat := 0xC040
/-- Offset of EST_CFG. -/
abbrev EST_CFG : Nat := 0xE000
/-- Offset of EST_CTRL. -/
abbrev EST_CTRL : Nat := 0xE004
/-- Offset of EST_STATUS. -/
abbrev EST_STATUS : Nat := 0xE008
/-- Offset of EST0_MIN_N. -/
abbrev EST0_MIN_N : Nat := 0xE00C
/-- Offset of EST13_MIN_N. -/
abbrev EST13_MIN_N : Nat := 0xE08C
/-- Offset of EST4_MIN_N. -/
abbrev EST4_MIN_N : Nat := 0xE20C
/-- Offset of EST_INTERVAL. -/
abbrev EST_INTERVAL : Nat := 0xE010
/-- Offset of EST0_RAMP. -/
abbrev EST0_RAMP : Nat := 0xE014
/-- Offset of EST14_RAMP. -/
abbrev EST14_RAMP : Nat := 0xE094
/-- Offset of EST0_SPREAD_MAX. -/
abbrev EST0_SPREAD_MAX : Nat := 0xE018
/-- Offset of EST13_SPREAD_MAX. -/
abbrev EST13_SPREAD_MAX : Nat := 0xE098
/-- Offset of EST4_SPREAD_MAX. -/
abbrev EST4_SPREAD_MAX : Nat := 0xE218
/-- Offset of EST_N. -/
abbrev EST_N : Nat := 0xE01C
/-- Offset of EST_CAL_CNT. -/
abbrev EST_CAL_CNT : Nat := 0xE020
/-- Offset of EST_REJ_CNT. -/
abbrev EST_REJ_CNT : Nat := 0xE024
/-- Offset of EST_LAST_SEC_LO. -/
abbrev EST_LAST_SEC_LO : Nat := 0xE028
/-- Offset of EST_LAST_SEC_HI. -/
abbrev EST_LAST_SEC_HI : Nat := 0xE02C
/-- Offset of EST_LAST_NS. -/
abbrev EST_LAST_NS : Nat := 0xE030
/-- Offset of EST_SPREAD_LAST. -/
abbrev EST_SPREAD_LAST : Nat := 0xE034
/-- Offset of DARK_E_TGT. -/
abbrev DARK_E_TGT : Nat := 0xE040
/-- Offset of DARK_B_TGT. -/
abbrev DARK_B_TGT : Nat := 0xE044
/-- Offset of DARK_E_APPL. -/
abbrev DARK_E_APPL : Nat := 0xE048
/-- Offset of DARK_B_APPL. -/
abbrev DARK_B_APPL : Nat := 0xE04C
/-- Offset of DARK_CFG. -/
abbrev DARK_CFG : Nat := 0xE050
/-- Offset of DARK_RES_MAX. -/
abbrev DARK_RES_MAX : Nat := 0xE054
/-- Offset of DARK_STEP_MAX. -/
abbrev DARK_STEP_MAX : Nat := 0xE058
/-- Offset of REV_ERR_MAX. -/
abbrev REV_ERR_MAX : Nat := 0xE0C0
/-- Offset of REV_SPAN_MIN. -/
abbrev REV_SPAN_MIN : Nat := 0xE0C4
/-- Offset of REV_S_REF. -/
abbrev REV_S_REF : Nat := 0xE0C8
/-- Offset of REV_H_REF. -/
abbrev REV_H_REF : Nat := 0xE0CC
/-- Offset of DET_OFF_LIM. -/
abbrev DET_OFF_LIM : Nat := 0xE0D0
/-- Offset of DET_OFF_STEP. -/
abbrev DET_OFF_STEP : Nat := 0xE0D4
/-- Offset of DET_GAIN_STEP. -/
abbrev DET_GAIN_STEP : Nat := 0xE0D8
/-- Offset of REG_CFG. -/
abbrev REG_CFG : Nat := 0xE240
/-- Offset of REG_LAG. -/
abbrev REG_LAG : Nat := 0xE244
/-- Offset of XING_THR. -/
abbrev XING_THR : Nat := 0xE248
/-- Offset of XING_WMIN. -/
abbrev XING_WMIN : Nat := 0xE24C
/-- Offset of XING_DMAX. -/
abbrev XING_DMAX : Nat := 0xE250
/-- Offset of REG_COND_MIN. -/
abbrev REG_COND_MIN : Nat := 0xE254
/-- Offset of REG_OFF_LIM. -/
abbrev REG_OFF_LIM : Nat := 0xE258
/-- Offset of REG_OFF_STEP. -/
abbrev REG_OFF_STEP : Nat := 0xE25C
/-- Offset of REG_ROT_STEP. -/
abbrev REG_ROT_STEP : Nat := 0xE260
/-- Offset of REG_SCALE_STEP. -/
abbrev REG_SCALE_STEP : Nat := 0xE264
/-- Offset of XING_CNT. -/
abbrev XING_CNT : Nat := 0xE268
/-- Offset of XING_MISS_CNT. -/
abbrev XING_MISS_CNT : Nat := 0xE26C
/-- Offset of XING_OUTLIER_CNT. -/
abbrev XING_OUTLIER_CNT : Nat := 0xE270
/-- Offset of SEAM_X0. -/
abbrev SEAM_X0 : Nat := 0xE400
/-- Offset of SEAM_Y0. -/
abbrev SEAM_Y0 : Nat := 0xE404
/-- Offset of SEAM_X1. -/
abbrev SEAM_X1 : Nat := 0xE408
/-- Offset of SEAM_Y1. -/
abbrev SEAM_Y1 : Nat := 0xE40C
/-- Offset of SEAM_CFG. -/
abbrev SEAM_CFG : Nat := 0xE410
/-- Offset of WIN_ID_LO. -/
abbrev WIN_ID_LO : Nat := 0xE800
/-- Offset of WIN_ID_HI. -/
abbrev WIN_ID_HI : Nat := 0xE804
/-- Offset of WIN_DOSE_LO. -/
abbrev WIN_DOSE_LO : Nat := 0xE808
/-- Offset of WIN_DOSE_HI. -/
abbrev WIN_DOSE_HI : Nat := 0xE80C
/-- Offset of WIN_CI_RD. -/
abbrev WIN_CI_RD : Nat := 0xE810
/-- Offset of CI_PMIN. -/
abbrev CI_PMIN : Nat := 0xE814
/-- Offset of CI_ALPHA. -/
abbrev CI_ALPHA : Nat := 0xE818
/-- Offset of CI_GAIN. -/
abbrev CI_GAIN : Nat := 0xE81C
/-- Offset of WIN_LOST_MJ. -/
abbrev WIN_LOST_MJ : Nat := 0xE820
/-- Offset of CAM_CTRL. -/
abbrev CAM_CTRL : Nat := 0x0
/-- Offset of CAM_STATUS. -/
abbrev CAM_STATUS : Nat := 0x4
/-- Offset of CAM_BIND. -/
abbrev CAM_BIND : Nat := 0x8
/-- Offset of CAM_MODE. -/
abbrev CAM_MODE : Nat := 0xC
/-- Offset of CAM_SIZE. -/
abbrev CAM_SIZE : Nat := 0x10
/-- Offset of CAM_PAD. -/
abbrev CAM_PAD : Nat := 0x14
/-- Offset of CAM_FRAME_TMO. -/
abbrev CAM_FRAME_TMO : Nat := 0x18
/-- Offset of CAM_MATCH. -/
abbrev CAM_MATCH : Nat := 0x1C
/-- Offset of CAM_SAT_RAW. -/
abbrev CAM_SAT_RAW : Nat := 0x20
/-- Offset of CAM_MERGE. -/
abbrev CAM_MERGE : Nat := 0x24
/-- Offset of CAM_DF_CFG. -/
abbrev CAM_DF_CFG : Nat := 0x28
/-- Offset of CAM_THR1. -/
abbrev CAM_THR1 : Nat := 0x2C
/-- Offset of CAM_THR2. -/
abbrev CAM_THR2 : Nat := 0x30
/-- Offset of CAM_SPAT. -/
abbrev CAM_SPAT : Nat := 0x34
/-- Offset of CAM_TAP. -/
abbrev CAM_TAP : Nat := 0x38
/-- Offset of CAM_TRC_CFG. -/
abbrev CAM_TRC_CFG : Nat := 0x40
/-- Offset of CAM_TRC_ALLOC. -/
abbrev CAM_TRC_ALLOC : Nat := 0x44
/-- Offset of CAM_TRC_CTRL. -/
abbrev CAM_TRC_CTRL : Nat := 0x48
/-- Offset of CAM_TRC_STATUS. -/
abbrev CAM_TRC_STATUS : Nat := 0x4C
/-- Offset of CAM_TRC_TRIG_IDX. -/
abbrev CAM_TRC_TRIG_IDX : Nat := 0x50
/-- Offset of CAM_FRAME_CNT. -/
abbrev CAM_FRAME_CNT : Nat := 0x60
/-- Offset of CAM_SHORT_CNT. -/
abbrev CAM_SHORT_CNT : Nat := 0x64
/-- Offset of CAM_LONG_CNT. -/
abbrev CAM_LONG_CNT : Nat := 0x68
/-- Offset of CAM_TMO_CNT. -/
abbrev CAM_TMO_CNT : Nat := 0x6C
/-- Offset of CAM_UNTAGGED_CNT. -/
abbrev CAM_UNTAGGED_CNT : Nat := 0x70
/-- Offset of CAM_TRIG_MISS_CNT. -/
abbrev CAM_TRIG_MISS_CNT : Nat := 0x74
/-- Offset of CAM_TRIG_LOST_CNT. -/
abbrev CAM_TRIG_LOST_CNT : Nat := 0x78
/-- Offset of CAM_PARTIAL_CNT. -/
abbrev CAM_PARTIAL_CNT : Nat := 0x7C
/-- Offset of CAM_STAT_OVERWRITE_CNT. -/
abbrev CAM_STAT_OVERWRITE_CNT : Nat := 0x80
/-- Offset of CAM_DF_ECC_CNT. -/
abbrev CAM_DF_ECC_CNT : Nat := 0x84
/-- Offset of CAM_ARCH_DROP_CNT. -/
abbrev CAM_ARCH_DROP_CNT : Nat := 0x88
/-- Offset of CAM_EXP_A. -/
abbrev CAM_EXP_A : Nat := 0x100
/-- Offset of CAM_EXP_B. -/
abbrev CAM_EXP_B : Nat := 0x104
/-- Offset of CAM_EXP_C. -/
abbrev CAM_EXP_C : Nat := 0x108
/-- Offset of CAM_HDR. -/
abbrev CAM_HDR : Nat := 0x10C
/-- Offset of CAM_SET_GAP. -/
abbrev CAM_SET_GAP : Nat := 0x110
/-- Offset of CAM_TRIG_CFG. -/
abbrev CAM_TRIG_CFG : Nat := 0x114
/-- Offset of CAM_TRIG_OFFSET. -/
abbrev CAM_TRIG_OFFSET : Nat := 0x118
/-- Offset of CAM_TRIG_AT. -/
abbrev CAM_TRIG_AT : Nat := 0x11C
/-- Offset of CAM_TRIG_REQ. -/
abbrev CAM_TRIG_REQ : Nat := 0x120
/-- Offset of CAM_STAT. -/
abbrev CAM_STAT : Nat := 0x200
/-- Offset of CAM_EXP_USED. -/
abbrev CAM_EXP_USED : Nat := 0x240
/-- Offset of CAM_EXP_GEN. -/
abbrev CAM_EXP_GEN : Nat := 0x250
/-- Offset of CAM_TSEQ_NEXT. -/
abbrev CAM_TSEQ_NEXT : Nat := 0x254
/-- Offset of CE_CFG. -/
abbrev CE_CFG : Nat := 0x300
/-- Offset of CE_CTRL. -/
abbrev CE_CTRL : Nat := 0x304
/-- Offset of CE_STATUS. -/
abbrev CE_STATUS : Nat := 0x308
/-- Offset of CE_MIN_N. -/
abbrev CE_MIN_N : Nat := 0x30C
/-- Offset of CE_INTERVAL. -/
abbrev CE_INTERVAL : Nat := 0x310
/-- Offset of CE_RAMP. -/
abbrev CE_RAMP : Nat := 0x314
/-- Offset of CE_SPREAD_MAX. -/
abbrev CE_SPREAD_MAX : Nat := 0x318
/-- Offset of CE_N. -/
abbrev CE_N : Nat := 0x31C
/-- Offset of CE_CAL_CNT. -/
abbrev CE_CAL_CNT : Nat := 0x320
/-- Offset of CE_REJ_CNT. -/
abbrev CE_REJ_CNT : Nat := 0x324
/-- Offset of CE_LAST_SEC_LO. -/
abbrev CE_LAST_SEC_LO : Nat := 0x328
/-- Offset of CE_LAST_SEC_HI. -/
abbrev CE_LAST_SEC_HI : Nat := 0x32C
/-- Offset of CE_LAST_NS. -/
abbrev CE_LAST_NS : Nat := 0x330
/-- Offset of CE_SPREAD_LAST. -/
abbrev CE_SPREAD_LAST : Nat := 0x334
/-- Offset of CAMD_TGT. -/
abbrev CAMD_TGT : Nat := 0x340
/-- Offset of CAMD_APPL. -/
abbrev CAMD_APPL : Nat := 0x344
/-- Offset of CAMD_RES_MAX. -/
abbrev CAMD_RES_MAX : Nat := 0x348
/-- Offset of CAMD_STEP_MAX. -/
abbrev CAMD_STEP_MAX : Nat := 0x34C
/-- Offset of CAM_LIN. -/
abbrev CAM_LIN : Nat := 0x4000
/-- Offset of EM_CFG. -/
abbrev EM_CFG : Nat := 0x0
/-- Offset of EM_PITCH. -/
abbrev EM_PITCH : Nat := 0x4
/-- Offset of EM_ORIGIN_X. -/
abbrev EM_ORIGIN_X : Nat := 0x8
/-- Offset of EM_ORIGIN_Y. -/
abbrev EM_ORIGIN_Y : Nat := 0xC
/-- Offset of EM_TAU. -/
abbrev EM_TAU : Nat := 0x10
/-- Offset of EM_KW_C. -/
abbrev EM_KW_C : Nat := 0x14
/-- Offset of EM_KW_E. -/
abbrev EM_KW_E : Nat := 0x18
/-- Offset of EM_KW_K. -/
abbrev EM_KW_K : Nat := 0x1C
/-- Offset of EM_QW0. -/
abbrev EM_QW0 : Nat := 0x20
/-- Offset of EM_QW1. -/
abbrev EM_QW1 : Nat := 0x24
/-- Offset of EM_QW2. -/
abbrev EM_QW2 : Nat := 0x28
/-- Offset of EM_QW3. -/
abbrev EM_QW3 : Nat := 0x2C
/-- Offset of EM_QW4. -/
abbrev EM_QW4 : Nat := 0x30
/-- Offset of EM_QW5. -/
abbrev EM_QW5 : Nat := 0x34
/-- Offset of EM_CTRL. -/
abbrev EM_CTRL : Nat := 0x40
/-- Offset of EM_STATUS. -/
abbrev EM_STATUS : Nat := 0x44
/-- Offset of EM_UE_CNT. -/
abbrev EM_UE_CNT : Nat := 0x48
/-- Offset of EM_LATE_CNT. -/
abbrev EM_LATE_CNT : Nat := 0x4C
/-- Offset of EM_GAP_CNT. -/
abbrev EM_GAP_CNT : Nat := 0x50
/-- Offset of EM_OUTSIDE_CNT. -/
abbrev EM_OUTSIDE_CNT : Nat := 0x54
/-- Offset of EM_DISCARD_CNT. -/
abbrev EM_DISCARD_CNT : Nat := 0x58
/-- Offset of EM_W_PER_CODE. -/
abbrev EM_W_PER_CODE : Nat := 0x100
/-- Offset of GD_CFG. -/
abbrev GD_CFG : Nat := 0x1000
/-- Offset of GD_FLOW. -/
abbrev GD_FLOW : Nat := 0x1004
/-- Offset of GD_L. -/
abbrev GD_L : Nat := 0x1008
/-- Offset of GD_W. -/
abbrev GD_W : Nat := 0x100C
/-- Offset of GD_TPLUME. -/
abbrev GD_TPLUME : Nat := 0x1010
/-- Offset of GD_MARGIN. -/
abbrev GD_MARGIN : Nat := 0x1014
/-- Offset of GD_HORIZON. -/
abbrev GD_HORIZON : Nat := 0x1018
/-- Offset of GD_LEAD. -/
abbrev GD_LEAD : Nat := 0x101C
/-- Offset of GD_TRAIL_MAX. -/
abbrev GD_TRAIL_MAX : Nat := 0x1020
/-- Offset of GD_TRAIL_TOL. -/
abbrev GD_TRAIL_TOL : Nat := 0x1024
/-- Offset of GD_STATUS. -/
abbrev GD_STATUS : Nat := 0x1030
/-- Offset of GD_VIOL_CNT. -/
abbrev GD_VIOL_CNT : Nat := 0x1100
/-- Offset of GD_MERGE_CNT. -/
abbrev GD_MERGE_CNT : Nat := 0x1180
/-- Offset of OZ_XMIN. -/
abbrev OZ_XMIN : Nat := 0x1200
/-- Offset of OZ_YMIN. -/
abbrev OZ_YMIN : Nat := 0x1204
/-- Offset of OZ_XMAX. -/
abbrev OZ_XMAX : Nat := 0x1208
/-- Offset of OZ_YMAX. -/
abbrev OZ_YMAX : Nat := 0x120C
/-- Offset of OZ_MASK0. -/
abbrev OZ_MASK0 : Nat := 0x1210
/-- Offset of OZ_MASK1. -/
abbrev OZ_MASK1 : Nat := 0x1214
/-- Offset of OZ_MASK2. -/
abbrev OZ_MASK2 : Nat := 0x1218
/-- Offset of OZ_CFG. -/
abbrev OZ_CFG : Nat := 0x121C
/-- Offset of OZ_VIOL_CNT. -/
abbrev OZ_VIOL_CNT : Nat := 0x1400
/-- Offset of EMP_DEP_CTRL. -/
abbrev EMP_DEP_CTRL : Nat := 0x0
/-- Offset of EMP_DEP_GAIN. -/
abbrev EMP_DEP_GAIN : Nat := 0x4
/-- Offset of EM_DEP_LAST. -/
abbrev EM_DEP_LAST : Nat := 0x20
/-- Offset of EM_DEP_STOKE. -/
abbrev EM_DEP_STOKE : Nat := 0x24
/-- Offset of EM_PSTATE. -/
abbrev EM_PSTATE : Nat := 0x28
/-- Offset of EM_PITCH_RD. -/
abbrev EM_PITCH_RD : Nat := 0x2C
/-- Offset of EM_ORG_X. -/
abbrev EM_ORG_X : Nat := 0x30
/-- Offset of EM_ORG_Y. -/
abbrev EM_ORG_Y : Nat := 0x34
/-- Offset of PLAN. -/
abbrev PLAN : Nat := 0x80
/-- Offset of PLAN_PUB. -/
abbrev PLAN_PUB : Nat := 0xC0
/-- Offset of PLAN_STATE. -/
abbrev PLAN_STATE : Nat := 0xC4
/-- Offset of GD_VIOL. -/
abbrev GD_VIOL : Nat := 0xC8
/-- Offset of GD_PSTATE. -/
abbrev GD_PSTATE : Nat := 0xCC
/-- Offset of MA_CFG. -/
abbrev MA_CFG : Nat := 0x0
/-- Offset of MA_CTRL. -/
abbrev MA_CTRL : Nat := 0x4
/-- Offset of MA_STATUS. -/
abbrev MA_STATUS : Nat := 0x8
/-- Offset of MA_FAULT. -/
abbrev MA_FAULT : Nat := 0xC
/-- Offset of TARGET. -/
abbrev TARGET : Nat := 0x10
/-- Offset of VMAX. -/
abbrev VMAX : Nat := 0x14
/-- Offset of ACCEL. -/
abbrev ACCEL : Nat := 0x18
/-- Offset of DECEL. -/
abbrev DECEL : Nat := 0x1C
/-- Offset of DECEL_MAX. -/
abbrev DECEL_MAX : Nat := 0x20
/-- Offset of JOG_V. -/
abbrev JOG_V : Nat := 0x24
/-- Offset of MA_POS. -/
abbrev MA_POS : Nat := 0x28
/-- Offset of MA_POS_FRAC. -/
abbrev MA_POS_FRAC : Nat := 0x2C
/-- Offset of MA_VEL. -/
abbrev MA_VEL : Nat := 0x30
/-- Offset of POS_SET. -/
abbrev POS_SET : Nat := 0x34
/-- Offset of I_RUN. -/
abbrev I_RUN : Nat := 0x40
/-- Offset of MA_I_MAX. -/
abbrev MA_I_MAX : Nat := 0x44
/-- Offset of I_HOLD. -/
abbrev I_HOLD : Nat := 0x48
/-- Offset of I_START. -/
abbrev I_START : Nat := 0x4C
/-- Offset of HOLD_STOKES. -/
abbrev HOLD_STOKES : Nat := 0x50
/-- Offset of CUR_SCALE. -/
abbrev CUR_SCALE : Nat := 0x54
/-- Offset of VBR_SCALE. -/
abbrev VBR_SCALE : Nat := 0x58
/-- Offset of CUR_KP. -/
abbrev CUR_KP : Nat := 0x5C
/-- Offset of CUR_KI. -/
abbrev CUR_KI : Nat := 0x60
/-- Offset of DUTY_MAX. -/
abbrev DUTY_MAX : Nat := 0x64
/-- Offset of R_COIL. -/
abbrev R_COIL : Nat := 0x68
/-- Offset of L_COIL. -/
abbrev L_COIL : Nat := 0x6C
/-- Offset of I_OC. -/
abbrev I_OC : Nat := 0x70
/-- Offset of VBR_MIN. -/
abbrev VBR_MIN : Nat := 0x74
/-- Offset of LA_V_MIN. -/
abbrev LA_V_MIN : Nat := 0x80
/-- Offset of LA_STALL. -/
abbrev LA_STALL : Nat := 0x84
/-- Offset of STALL_STOKES. -/
abbrev STALL_STOKES : Nat := 0x88
/-- Offset of LA_ALPHA. -/
abbrev LA_ALPHA : Nat := 0x8C
/-- Offset of LA_TAB. -/
abbrev LA_TAB : Nat := 0x90
/-- Offset of MA_LA. -/
abbrev MA_LA : Nat := 0xA0
/-- Offset of LIM_CFG. -/
abbrev LIM_CFG : Nat := 0xC0
/-- Offset of LIM_STATUS. -/
abbrev LIM_STATUS : Nat := 0xC4
/-- Offset of LIM_CLR. -/
abbrev LIM_CLR : Nat := 0xC8
/-- Offset of TRANS_CNT. -/
abbrev TRANS_CNT : Nat := 0xCC
/-- Offset of STOP_CFG. -/
abbrev STOP_CFG : Nat := 0xD8
/-- Offset of HOME_CFG. -/
abbrev HOME_CFG : Nat := 0xE0
/-- Offset of HOME_V1. -/
abbrev HOME_V1 : Nat := 0xE4
/-- Offset of HOME_V2. -/
abbrev HOME_V2 : Nat := 0xE8
/-- Offset of HOME_POS. -/
abbrev HOME_POS : Nat := 0xEC
/-- Offset of HOME_BACKOFF. -/
abbrev HOME_BACKOFF : Nat := 0xF0
/-- Offset of HOME_RANGE. -/
abbrev HOME_RANGE : Nat := 0xF4
/-- Offset of HOME_STATUS. -/
abbrev HOME_STATUS : Nat := 0xF8
/-- Offset of STEP_CFG. -/
abbrev STEP_CFG : Nat := 0x100
/-- Offset of DEV_SCALE. -/
abbrev DEV_SCALE : Nat := 0x110
/-- Offset of DEV_MAX. -/
abbrev DEV_MAX : Nat := 0x114
/-- Offset of DEV. -/
abbrev DEV : Nat := 0x118
/-- Offset of STALL_CNT. -/
abbrev STALL_CNT : Nat := 0x140
/-- Offset of DECEL_RAISE_CNT. -/
abbrev DECEL_RAISE_CNT : Nat := 0x144
/-- Offset of OVERSHOOT_CNT. -/
abbrev OVERSHOOT_CNT : Nat := 0x148
/-- Offset of MOVE_REF_CNT. -/
abbrev MOVE_REF_CNT : Nat := 0x14C
/-- Offset of ENC_CFG. -/
abbrev ENC_CFG : Nat := 0x400
/-- Offset of ENC_FRAME. -/
abbrev ENC_FRAME : Nat := 0x404
/-- Offset of ENC_CHK. -/
abbrev ENC_CHK : Nat := 0x408
/-- Offset of ENC_OFFSET. -/
abbrev ENC_OFFSET : Nat := 0x40C
/-- Offset of ENC_JUMP_MAX. -/
abbrev ENC_JUMP_MAX : Nat := 0x410
/-- Offset of ENC_ERR_STOKES. -/
abbrev ENC_ERR_STOKES : Nat := 0x414
/-- Offset of ENC_STATUS. -/
abbrev ENC_STATUS : Nat := 0x418
/-- Offset of ENC_POS. -/
abbrev ENC_POS : Nat := 0x41C
/-- Offset of FB_POS. -/
abbrev FB_POS : Nat := 0x420
/-- Offset of ENC_RAW_LO. -/
abbrev ENC_RAW_LO : Nat := 0x424
/-- Offset of ENC_RAW_HI. -/
abbrev ENC_RAW_HI : Nat := 0x428
/-- Offset of INC_CNT. -/
abbrev INC_CNT : Nat := 0x42C
/-- Offset of SLIP_TOL. -/
abbrev SLIP_TOL : Nat := 0x430
/-- Offset of NOTREADY_CNT. -/
abbrev NOTREADY_CNT : Nat := 0x440
/-- Offset of CHK_ERR_CNT. -/
abbrev CHK_ERR_CNT : Nat := 0x444
/-- Offset of STAT_ERR_CNT. -/
abbrev STAT_ERR_CNT : Nat := 0x448
/-- Offset of JUMP_CNT. -/
abbrev JUMP_CNT : Nat := 0x44C
/-- Offset of INC_ERR_CNT. -/
abbrev INC_ERR_CNT : Nat := 0x450
/-- Offset of SLIP_CNT. -/
abbrev SLIP_CNT : Nat := 0x454
/-- Offset of IDX_CFG. -/
abbrev IDX_CFG : Nat := 0x480
/-- Offset of IDX_EXPECT. -/
abbrev IDX_EXPECT : Nat := 0x484
/-- Offset of IDX_PERIOD. -/
abbrev IDX_PERIOD : Nat := 0x488
/-- Offset of IDX_WIN. -/
abbrev IDX_WIN : Nat := 0x48C
/-- Offset of IDX_CTRL. -/
abbrev IDX_CTRL : Nat := 0x490
/-- Offset of IDX_STATUS. -/
abbrev IDX_STATUS : Nat := 0x494
/-- Offset of IDX_LAST. -/
abbrev IDX_LAST : Nat := 0x498
/-- Offset of IDX_CNT. -/
abbrev IDX_CNT : Nat := 0x49C
/-- Offset of IDX_BAD_CNT. -/
abbrev IDX_BAD_CNT : Nat := 0x4A0
/-- Offset of CMP_CFG. -/
abbrev CMP_CFG : Nat := 0x500
/-- Offset of CMP_VAL. -/
abbrev CMP_VAL : Nat := 0x504
/-- Offset of CMP_SPACE. -/
abbrev CMP_SPACE : Nat := 0x508
/-- Offset of CMP_COUNT. -/
abbrev CMP_COUNT : Nat := 0x50C
/-- Offset of CMP_CTRL. -/
abbrev CMP_CTRL : Nat := 0x510
/-- Offset of CMP_STATUS. -/
abbrev CMP_STATUS : Nat := 0x514
/-- Offset of CMP_NEXT. -/
abbrev CMP_NEXT : Nat := 0x518
/-- Offset of CMP_LEFT. -/
abbrev CMP_LEFT : Nat := 0x51C
/-- Offset of CMP_HIT_CNT. -/
abbrev CMP_HIT_CNT : Nat := 0x520
/-- Offset of CMP_SKIP_CNT. -/
abbrev CMP_SKIP_CNT : Nat := 0x524
/-- Offset of FWD_CFG. -/
abbrev FWD_CFG : Nat := 0x580
/-- Offset of PRB_CFG. -/
abbrev PRB_CFG : Nat := 0x0
/-- Offset of PRB_CTRL. -/
abbrev PRB_CTRL : Nat := 0x10
/-- Offset of PRB_STATUS. -/
abbrev PRB_STATUS : Nat := 0x14
/-- Offset of PRB_STOKE. -/
abbrev PRB_STOKE : Nat := 0x20
/-- Offset of PRB_CLK. -/
abbrev PRB_CLK : Nat := 0x30
/-- Offset of PRB_CNT. -/
abbrev PRB_CNT : Nat := 0x40
/-- Offset of PRB_LOST_CNT. -/
abbrev PRB_LOST_CNT : Nat := 0x50
/-- Offset of PRB_POS0. -/
abbrev PRB_POS0 : Nat := 0x100
/-- Offset of PRB_FB0. -/
abbrev PRB_FB0 : Nat := 0x120
/-- Offset of PRB_POS1. -/
abbrev PRB_POS1 : Nat := 0x140
/-- Offset of PRB_FB1. -/
abbrev PRB_FB1 : Nat := 0x160
/-- Offset of PRB_POS2. -/
abbrev PRB_POS2 : Nat := 0x180
/-- Offset of PRB_FB2. -/
abbrev PRB_FB2 : Nat := 0x1A0
/-- Offset of PRB_POS3. -/
abbrev PRB_POS3 : Nat := 0x1C0
/-- Offset of PRB_FB3. -/
abbrev PRB_FB3 : Nat := 0x1E0
/-- Offset of ILL_CFG. -/
abbrev ILL_CFG : Nat := 0x0
/-- Offset of ILL_CTRL. -/
abbrev ILL_CTRL : Nat := 0x4
/-- Offset of ILL_STATUS. -/
abbrev ILL_STATUS : Nat := 0x8
/-- Offset of STB_WIDTH. -/
abbrev STB_WIDTH : Nat := 0xC
/-- Offset of STB_DELAY. -/
abbrev STB_DELAY : Nat := 0x10
/-- Offset of T_DIAG_MIN. -/
abbrev T_DIAG_MIN : Nat := 0x14
/-- Offset of DIAG_INTERVAL. -/
abbrev DIAG_INTERVAL : Nat := 0x18
/-- Offset of ILL_CAM_MASK. -/
abbrev ILL_CAM_MASK : Nat := 0x1C
/-- Offset of DR_START. -/
abbrev DR_START : Nat := 0x20
/-- Offset of DR_END. -/
abbrev DR_END : Nat := 0x24
/-- Offset of DR_FLOOR. -/
abbrev DR_FLOOR : Nat := 0x28
/-- Offset of STB_CNT. -/
abbrev STB_CNT : Nat := 0x30
/-- Offset of STB_LOST_CNT. -/
abbrev STB_LOST_CNT : Nat := 0x34
/-- Offset of DIAG_CUT_CNT. -/
abbrev DIAG_CUT_CNT : Nat := 0x38
/-- Offset of ILL_FRAME_CNT. -/
abbrev ILL_FRAME_CNT : Nat := 0x3C
/-- Offset of CHAIN_ERR_CNT. -/
abbrev CHAIN_ERR_CNT : Nat := 0x40
/-- Offset of LUX_CFG. -/
abbrev LUX_CFG : Nat := 0x400
/-- Offset of LUX_TGT. -/
abbrev LUX_TGT : Nat := 0x404
/-- Offset of LUX_K. -/
abbrev LUX_K : Nat := 0x408
/-- Offset of G_MIN. -/
abbrev G_MIN : Nat := 0x40C
/-- Offset of G_MAX. -/
abbrev G_MAX : Nat := 0x410
/-- Offset of LUX_MEAS. -/
abbrev LUX_MEAS : Nat := 0x414
/-- Offset of LUX_GAIN. -/
abbrev LUX_GAIN : Nat := 0x418
/-- Offset of LUX_STATUS. -/
abbrev LUX_STATUS : Nat := 0x480
/-- Offset of ILL_OUT. -/
abbrev ILL_OUT : Nat := 0x1000
/-- Offset of ILL_STAT. -/
abbrev ILL_STAT : Nat := 0x3000
/-- Offset of TAG_EN. -/
abbrev TAG_EN : Nat := 0x0
/-- Offset of TAG_AUTH_INT. -/
abbrev TAG_AUTH_INT : Nat := 0x4
/-- Offset of TAG_CTRL. -/
abbrev TAG_CTRL : Nat := 0x8
/-- Offset of BL_CFG. -/
abbrev BL_CFG : Nat := 0x10
/-- Offset of BL_UM_PER_USTEP. -/
abbrev BL_UM_PER_USTEP : Nat := 0x14
/-- Offset of BL_ID_LO. -/
abbrev BL_ID_LO : Nat := 0x20
/-- Offset of BL_ID_HI. -/
abbrev BL_ID_HI : Nat := 0x24
/-- Offset of BL_TRAVEL_MM. -/
abbrev BL_TRAVEL_MM : Nat := 0x28
/-- Offset of BL_CONTACTS. -/
abbrev BL_CONTACTS : Nat := 0x2C
/-- Offset of BL_LOST. -/
abbrev BL_LOST : Nat := 0x40
/-- Offset of TAG_STATE. -/
abbrev TAG_STATE : Nat := 0x100
/-- Offset of TAG_ERR_CNT. -/
abbrev TAG_ERR_CNT : Nat := 0x180
/-- Offset of TAG_ISSUER. -/
abbrev TAG_ISSUER : Nat := 0x200
/-- Offset of XFER_CTRL. -/
abbrev XFER_CTRL : Nat := 0x300
/-- Offset of XFER_STATUS. -/
abbrev XFER_STATUS : Nat := 0x304
/-- Offset of XFER_DATA. -/
abbrev XFER_DATA : Nat := 0x340
/-- Offset of EVL_SRC. -/
abbrev EVL_SRC : Nat := 0x0
/-- Offset of EV_CNT. -/
abbrev EV_CNT : Nat := 0x100
/-- Offset of EV_LEVEL. -/
abbrev EV_LEVEL : Nat := 0x200
/-- Offset of EVD_SEL. -/
abbrev EVD_SEL : Nat := 0x400
/-- Offset of RING_CFG. -/
abbrev RING_CFG : Nat := 0x0
/-- Offset of RING_BIND. -/
abbrev RING_BIND : Nat := 0x4
/-- Offset of RING_BASE_LO. -/
abbrev RING_BASE_LO : Nat := 0x8
/-- Offset of RING_BASE_HI. -/
abbrev RING_BASE_HI : Nat := 0xC
/-- Offset of RING_IDXB_LO. -/
abbrev RING_IDXB_LO : Nat := 0x10
/-- Offset of RING_IDXB_HI. -/
abbrev RING_IDXB_HI : Nat := 0x14
/-- Offset of RING_DOORBELL. -/
abbrev RING_DOORBELL : Nat := 0x18
/-- Offset of RING_DEV_IDX. -/
abbrev RING_DEV_IDX : Nat := 0x1C
/-- Offset of RING_CTRL. -/
abbrev RING_CTRL : Nat := 0x20
/-- Offset of RING_STATUS. -/
abbrev RING_STATUS : Nat := 0x24
/-- Offset of RING_INT_CFG. -/
abbrev RING_INT_CFG : Nat := 0x28
/-- Offset of RING_DROP_CNT. -/
abbrev RING_DROP_CNT : Nat := 0x2C
/-- Offset of MCMD_LATE_CNT. -/
abbrev MCMD_LATE_CNT : Nat := 0x30
/-- Offset of HOST_STATUS. -/
abbrev HOST_STATUS : Nat := 0x0
/-- Offset of HOST_ERR_CNT. -/
abbrev HOST_ERR_CNT : Nat := 0x4
/-- Offset of ARCH_ROUTE. -/
abbrev ARCH_ROUTE : Nat := 0x8
/-- Offset of FWD_DROP_CNT. -/
abbrev FWD_DROP_CNT : Nat := 0xC
/-- Offset of CH_INT_CAUSE. -/
abbrev CH_INT_CAUSE : Nat := 0x100
/-- Offset of INT_MAP. -/
abbrev INT_MAP : Nat := 0x400
/-- Offset of INT_PEND. -/
abbrev INT_PEND : Nat := 0x800
/-- Offset of INT_ACK. -/
abbrev INT_ACK : Nat := 0x820
/-- Offset of EPSC_POOL_FREE. -/
abbrev EPSC_POOL_FREE : Nat := 0x0
/-- Offset of EPSC_FRAMES. -/
abbrev EPSC_FRAMES : Nat := 0x100
/-- Offset of EPSC_IN_BYTES. -/
abbrev EPSC_IN_BYTES : Nat := 0x104
/-- Offset of EPSC_OUT_BYTES. -/
abbrev EPSC_OUT_BYTES : Nat := 0x108
/-- Offset of EPSC_RAW_BLK. -/
abbrev EPSC_RAW_BLK : Nat := 0x10C
/-- Offset of GANG_STATUS. -/
abbrev GANG_STATUS : Nat := 0x0
/-- Offset of PEER_TMO. -/
abbrev PEER_TMO : Nat := 0x4
/-- Offset of PEER_DROP_CNT. -/
abbrev PEER_DROP_CNT : Nat := 0x8
/-- Offset of PORT_CFG. -/
abbrev PORT_CFG : Nat := 0x1000
/-- Offset of PORT_CTRL. -/
abbrev PORT_CTRL : Nat := 0x1004
/-- Offset of PORT_STATUS. -/
abbrev PORT_STATUS : Nat := 0x1008
/-- Offset of FEC_CORR_CNT. -/
abbrev FEC_CORR_CNT : Nat := 0x100C
/-- Offset of FEC_UNCORR_CNT. -/
abbrev FEC_UNCORR_CNT : Nat := 0x1010
/-- Offset of REPLAY_CNT. -/
abbrev REPLAY_CNT : Nat := 0x1014
/-- Offset of LINK_DOWN_CNT. -/
abbrev LINK_DOWN_CNT : Nat := 0x1018
/-- Offset of TRAIN_CNT. -/
abbrev TRAIN_CNT : Nat := 0x101C
/-- Offset of RTT. -/
abbrev RTT : Nat := 0x1020
/-- Offset of LANE0_STATUS. -/
abbrev LANE0_STATUS : Nat := 0x1100
/-- Offset of LANE0_TEST. -/
abbrev LANE0_TEST : Nat := 0x1104
/-- Offset of LANE0_PRBS_ERR_CNT. -/
abbrev LANE0_PRBS_ERR_CNT : Nat := 0x1108
/-- Offset of LANE0_DFE0. -/
abbrev LANE0_DFE0 : Nat := 0x1110
/-- Offset of LANE0_DFE1. -/
abbrev LANE0_DFE1 : Nat := 0x1114
/-- Offset of LANE0_DFE2. -/
abbrev LANE0_DFE2 : Nat := 0x1118
/-- Offset of LANE0_DFE3. -/
abbrev LANE0_DFE3 : Nat := 0x111C
/-- Offset of LANE0_DFE4. -/
abbrev LANE0_DFE4 : Nat := 0x1120
/-- Offset of LANE0_DFE5. -/
abbrev LANE0_DFE5 : Nat := 0x1124
/-- Offset of LANE0_DFE6. -/
abbrev LANE0_DFE6 : Nat := 0x1128
/-- Offset of LANE0_DFE7. -/
abbrev LANE0_DFE7 : Nat := 0x112C
/-- Offset of LANE0_DFE8. -/
abbrev LANE0_DFE8 : Nat := 0x1130
/-- Offset of LANE0_DFE9. -/
abbrev LANE0_DFE9 : Nat := 0x1134
/-- Offset of LANE0_DFE10. -/
abbrev LANE0_DFE10 : Nat := 0x1138
/-- Offset of LANE0_DFE11. -/
abbrev LANE0_DFE11 : Nat := 0x113C
/-- Offset of LANE1_STATUS. -/
abbrev LANE1_STATUS : Nat := 0x1140
/-- Offset of LANE1_TEST. -/
abbrev LANE1_TEST : Nat := 0x1144
/-- Offset of LANE1_PRBS_ERR_CNT. -/
abbrev LANE1_PRBS_ERR_CNT : Nat := 0x1148
/-- Offset of LANE1_DFE0. -/
abbrev LANE1_DFE0 : Nat := 0x1150
/-- Offset of LANE1_DFE1. -/
abbrev LANE1_DFE1 : Nat := 0x1154
/-- Offset of LANE1_DFE2. -/
abbrev LANE1_DFE2 : Nat := 0x1158
/-- Offset of LANE1_DFE3. -/
abbrev LANE1_DFE3 : Nat := 0x115C
/-- Offset of LANE1_DFE4. -/
abbrev LANE1_DFE4 : Nat := 0x1160
/-- Offset of LANE1_DFE5. -/
abbrev LANE1_DFE5 : Nat := 0x1164
/-- Offset of LANE1_DFE6. -/
abbrev LANE1_DFE6 : Nat := 0x1168
/-- Offset of LANE1_DFE7. -/
abbrev LANE1_DFE7 : Nat := 0x116C
/-- Offset of LANE1_DFE8. -/
abbrev LANE1_DFE8 : Nat := 0x1170
/-- Offset of LANE1_DFE9. -/
abbrev LANE1_DFE9 : Nat := 0x1174
/-- Offset of LANE1_DFE10. -/
abbrev LANE1_DFE10 : Nat := 0x1178
/-- Offset of LANE1_DFE11. -/
abbrev LANE1_DFE11 : Nat := 0x117C
/-- Offset of LANE2_STATUS. -/
abbrev LANE2_STATUS : Nat := 0x1180
/-- Offset of LANE2_TEST. -/
abbrev LANE2_TEST : Nat := 0x1184
/-- Offset of LANE2_PRBS_ERR_CNT. -/
abbrev LANE2_PRBS_ERR_CNT : Nat := 0x1188
/-- Offset of LANE2_DFE0. -/
abbrev LANE2_DFE0 : Nat := 0x1190
/-- Offset of LANE2_DFE1. -/
abbrev LANE2_DFE1 : Nat := 0x1194
/-- Offset of LANE2_DFE2. -/
abbrev LANE2_DFE2 : Nat := 0x1198
/-- Offset of LANE2_DFE3. -/
abbrev LANE2_DFE3 : Nat := 0x119C
/-- Offset of LANE2_DFE4. -/
abbrev LANE2_DFE4 : Nat := 0x11A0
/-- Offset of LANE2_DFE5. -/
abbrev LANE2_DFE5 : Nat := 0x11A4
/-- Offset of LANE2_DFE6. -/
abbrev LANE2_DFE6 : Nat := 0x11A8
/-- Offset of LANE2_DFE7. -/
abbrev LANE2_DFE7 : Nat := 0x11AC
/-- Offset of LANE2_DFE8. -/
abbrev LANE2_DFE8 : Nat := 0x11B0
/-- Offset of LANE2_DFE9. -/
abbrev LANE2_DFE9 : Nat := 0x11B4
/-- Offset of LANE2_DFE10. -/
abbrev LANE2_DFE10 : Nat := 0x11B8
/-- Offset of LANE2_DFE11. -/
abbrev LANE2_DFE11 : Nat := 0x11BC
/-- Offset of LANE3_STATUS. -/
abbrev LANE3_STATUS : Nat := 0x11C0
/-- Offset of LANE3_TEST. -/
abbrev LANE3_TEST : Nat := 0x11C4
/-- Offset of LANE3_PRBS_ERR_CNT. -/
abbrev LANE3_PRBS_ERR_CNT : Nat := 0x11C8
/-- Offset of LANE3_DFE0. -/
abbrev LANE3_DFE0 : Nat := 0x11D0
/-- Offset of LANE3_DFE1. -/
abbrev LANE3_DFE1 : Nat := 0x11D4
/-- Offset of LANE3_DFE2. -/
abbrev LANE3_DFE2 : Nat := 0x11D8
/-- Offset of LANE3_DFE3. -/
abbrev LANE3_DFE3 : Nat := 0x11DC
/-- Offset of LANE3_DFE4. -/
abbrev LANE3_DFE4 : Nat := 0x11E0
/-- Offset of LANE3_DFE5. -/
abbrev LANE3_DFE5 : Nat := 0x11E4
/-- Offset of LANE3_DFE6. -/
abbrev LANE3_DFE6 : Nat := 0x11E8
/-- Offset of LANE3_DFE7. -/
abbrev LANE3_DFE7 : Nat := 0x11EC
/-- Offset of LANE3_DFE8. -/
abbrev LANE3_DFE8 : Nat := 0x11F0
/-- Offset of LANE3_DFE9. -/
abbrev LANE3_DFE9 : Nat := 0x11F4
/-- Offset of LANE3_DFE10. -/
abbrev LANE3_DFE10 : Nat := 0x11F8
/-- Offset of LANE3_DFE11. -/
abbrev LANE3_DFE11 : Nat := 0x11FC
/-- Offset of DMP_CFG. -/
abbrev DMP_CFG : Nat := 0x0
/-- Offset of DMP_CTRL. -/
abbrev DMP_CTRL : Nat := 0x4
/-- Offset of DMP_STATUS. -/
abbrev DMP_STATUS : Nat := 0x8
/-- Offset of DMP_STOKE. -/
abbrev DMP_STOKE : Nat := 0xC
/-- Offset of DMP_CNT. -/
abbrev DMP_CNT : Nat := 0x10
/-- Offset of MEM_CE_CNT. -/
abbrev MEM_CE_CNT : Nat := 0x100
/-- Offset of MEM_UE_CNT. -/
abbrev MEM_UE_CNT : Nat := 0x140
/-- Offset of MEM_INIT_STATUS. -/
abbrev MEM_INIT_STATUS : Nat := 0x180
/-- Offset of MEM_UE_LAST. -/
abbrev MEM_UE_LAST : Nat := 0x184
end Reg

end Sys2Proof.Machine
end

