-- ==== Sys2Proof/Inputs.lean ====
section
/-! DEFINITION. What commands carry: origins, entries and the plain data that reaches the block from outside it. -/

namespace Sys2Proof

/-- R395: the origin of a write. -/
inductive Origin where
  | host0 | host1 | safe | svc
  | peer (d : Fin 4)
  | core (n : Ch)
  | hw
  deriving DecidableEq, Repr

/-- R89: the entries of a program. -/
inductive Entry where
  | stoke | layer | fault
  deriving DecidableEq, Repr

/-- What the converters and sensors of one channel delivered in the stoke that ends (R12, R15). -/
structure ChanIn where
  /-- Raw 18-bit servo ADC codes of the stoke's samples, X, Y and F (R134, R135). -/
  adcX : List Int
  adcY : List Int
  adcF : List Int
  /-- Raw 16-bit photodiode samples with their dip flags, PD_E and PD_B (R175, R176). -/
  pdE : List (Nat × Bool)
  pdB : List (Nat × Bool)
  /-- Raw 16-bit monitor ADC samples (R168). -/
  mon : List Nat
  deriving DecidableEq, Repr

/-- What the converters of one motion axis delivered in the stoke that ends: samples of the coil currents and of the bridge
voltage, in codes (R288). -/
structure MaIn where
  ia : List Int
  ib : List Int
  vbr : List Nat
  deriving DecidableEq, Repr

/-- What a cluster's comparators and self-tests report for the stoke that ends (R272–R281). -/
structure ClIn where
  /-- The transfer of channel i's mirror arrived with a bad CRC (R273). -/
  crcBad : List (Fin 6)
  /-- Pairs whose cores are found to differ at commit, though neither instruction nor END showed it, with the item (R35, R53). -/
  pairItem : List (Fin 6 × Nat)
  /-- The item that differed while spot-shadowing, or while a pair shadows; 0 is none (R276, R280). -/
  spotItem : Nat
  shadowItem : Nat
  /-- The slice of this stoke failed (R281). -/
  sliceFail : Bool
  /-- The reserve's own two cores differed, with the item, outside a covered program; 0 is none (R281). -/
  resItem : Nat
  deriving DecidableEq, Repr

/-- Everything that reaches the device from outside in one stoke and is taken at its boundary (R15, R29). Lists run
over the channels, axes and clusters in ascending order; an absent element is an element that delivered nothing. -/
structure BoundaryIn where
  chans : List ChanIn
  mas : List MaIn
  cls : List ClIn
  /-- The raw lines received so far of the frames that CAM_FRAME_TMO ends at this boundary, by pipeline (R228). -/
  frames : List (List (List Nat))
  deriving DecidableEq, Repr

/-- A path in plate coordinates, in units of 1/256 field unit (R139, R199). -/
structure GPath where
  x0 : Int
  y0 : Int
  x1 : Int
  y1 : Int
  deriving DecidableEq, Repr

/-- One channel's part of a gang frame: its device-local number, the deposit of the pin stoke before the frame's (R208),
the path of the pin stoke after it with whether it emits (R214), and a barrier arrival: ID and stoke (R130). -/
structure FrameCh where
  ch : Ch
  dep : Option (BitVec 32 × Int × Int)
  path : GPath
  emits : Bool
  arr : Option (BitVec 32 × Nat)
  deriving DecidableEq, Repr

/-- A plan as it travels: owner, slot, whether it is published or withdrawn, geometry, first pin stoke, length and ID (R217, R219). -/
structure FramePlan where
  ch : Ch
  slot : Fin 2
  pub : Bool
  path : GPath
  start : Nat
  n : Nat
  id : BitVec 32
  deriving DecidableEq, Repr

/-- A gang frame (R208, R214, R383). The digests are the covered values themselves (log entry 13). -/
structure GangFrame where
  dev : Fin 4
  stoke : Nat
  /-- The sender is an EB3120 (R393). -/
  compat : Bool
  emCfg : List Nat
  gdCfg : List Nat
  chans : List FrameCh
  plans : List FramePlan
  deriving DecidableEq, Repr

/-- What the pins and straps show when a reset ends (R430). -/
structure Straps where
  src : Fin 4
  gangId : Fin 4
  gangTm : Bool
  deriving DecidableEq, Repr

/-- What takes the link or a function down (R356). -/
inductive DownKind where
  | linkDown | hotReset | flr0 | flr1
  deriving DecidableEq, Repr

/-- Nothing delivered. -/
def ChanIn.none : ChanIn := ⟨[], [], [], [], [], []⟩
/-- Nothing delivered. -/
def MaIn.none : MaIn := ⟨[], [], []⟩
/-- Nothing reported. -/
def ClIn.none : ClIn := ⟨[], [], 0, 0, false, 0⟩
/-- Nothing delivered at all. -/
def BoundaryIn.none : BoundaryIn := ⟨[], [], [], []⟩

end Sys2Proof
end

