-- ==== Sys2Proof/Machine/Types.lean ====
section
/-! DEFINITION. The state of the stoke, the engines, the channels' programs, the clusters, the log, access, boot, banked domain and damper (chapters 01-04, 12, 19-21). -/

namespace Sys2Proof.Machine
open Sys2Proof

/-- A register write on its way to its effect: origin, BAR0 byte address, value (R31). `port` is set for a PWR; `aux` is the
DEV_IDX that the host's index block holds when the effect reads it (R115, R360), 2^32 and up where that read ends in an error. -/
structure Write where
  org : Origin
  addr : Nat
  val : Word
  port : Bool
  aux : Nat
  deriving DecidableEq, Repr

/-- What the events of one clock did to a W1C or RC register (R11): its address, its value before the first of them, and the bits
or the count that they bring. -/
structure ClkNote where
  addr : Nat
  before : Word
  held : Word
  deriving DecidableEq, Repr

/-- The events of one clock: the instant of it, and a note for each register that they reach (R11). -/
structure ClkSt where
  at_ : Nat
  notes : List ClkNote
  deriving DecidableEq, Repr

/-! Time (R26–R43). -/

/-- The stoke counter, TAI and the PPS state. -/
structure TimeSt where
  /-- STOKE_STATUS.RUNNING. -/
  running : Bool
  /-- STOKE_CNT (R36). -/
  cnt : Nat
  /-- TAI seconds (R37). -/
  taiSec : Nat
  /-- TAI nanoseconds in quarters of a nanosecond: 1.25 ns a core cycle is five of them (R37). -/
  taiQ : Nat
  /-- STOKE_STATUS.UNALIGNED (R37). -/
  unaligned : Bool
  /-- PPS_CTRL.ARM pending (R39). -/
  armed : Bool
  /-- The TAI_NEXT_SEC latched by ARM (R39). -/
  armSec : Nat
  /-- The device has rearmed by itself (R43): the spacing rule chooses the pulse. -/
  autoArmed : Bool
  /-- The frequency estimate in ppb (R42). -/
  freqEst : Int
  /-- SLEW_PPB (R42). -/
  slew : Int
  /-- PPS_PHASE_ERR. -/
  phaseErr : Int
  /-- STOKE_STATUS.LOCKED (R42). -/
  locked : Bool
  /-- STOKE_STATUS.HOLDOVER (R43). -/
  holdover : Bool
  /-- The expected whole second of the last accepted pulse, if any (R41). -/
  lastAcc : Option Nat
  /-- The counter's reading there, or at reset, in quarters of a nanosecond (R43). -/
  accAt : Nat
  /-- The cycle of the present stoke at which ARM was written (R39). -/
  armAt : Option Nat
  /-- STOKE_CNT at the last accepted pulse (PPS_STOKES, R42). -/
  lastAccCnt : Nat
  /-- Consecutive accepted pulses with |e| ≤ 20 ns, one second apart (R42). -/
  lockRun : Nat
  /-- Length of the present run of rejected pulses (R43). -/
  rejRun : Nat
  /-- Instant of the last rejected or run pulse, in quarter nanoseconds of TAI (R43). -/
  rejLast : Option Nat
  /-- PPS_STOKES. -/
  ppsStokes : Nat
  /-- Words latched by reads of STOKE_CNT_LO and TAI_NS (R38): HI, SEC_LO, SEC_HI. -/
  latCnt : Option Word
  /-- TAI_SEC_LO latched by a read of TAI_NS (R38). -/
  latSecLo : Option Word
  /-- TAI_SEC_HI latched by a read of TAI_NS (R38). -/
  latSecHi : Option Word
  deriving DecidableEq, Repr

/-- R47: the gang states, with their codes in this order. -/
inductive GangState where
  | solo | align | locked | holdover
  deriving DecidableEq, Repr

/-- Gang timing (R44–R49). -/
structure GangSt where
  st : GangState
  /-- The step of ALIGN has been taken (R47). -/
  stepped : Bool
  /-- The master's count and TAI of the last stamp, as taken at the step (R47). -/
  masterCnt : Nat
  masterSec : Nat
  masterNs : Nat
  /-- GANG_PHASE_ERR in units of 100 ps (R46). -/
  phaseErr : Int
  /-- The step was taken in the stoke that ends (RESTAMPED). -/
  fresh : Bool
  /-- Consecutive stokes with the error within 10 ns (R47). -/
  lockRun : Nat
  /-- In HOLDOVER a stamp has come with an error above 2,000 ns: the member waits for its lasers to be disarmed (R47). -/
  away : Bool
  /-- Stokes since the last stamp (R47). -/
  sinceStamp : Nat
  /-- STOKE_STATUS.GANG_CONFLICT (R49). -/
  conflict : Bool
  /-- STOKE_STATUS.RATE_MISMATCH (R49). -/
  rateMismatch : Bool
  deriving DecidableEq, Repr

/-! Engines (R51–R88). -/

/-- An active hardware loop (R72). -/
structure LoopFrame where
  start : Nat
  stop : Nat
  remaining : Nat
  deriving DecidableEq, Repr

/-- A binary32 result whose flags have not joined FSTAT (R58, R60): its register, if it has one, the flags, and the cycle
from which it is usable. The value itself stands in the register at once, since no instruction reads it before then. -/
structure PendF where
  d : Reg
  fl : FFlags
  ready : Nat
  deriving DecidableEq, Repr

/-- What an engine is doing in the present stoke. -/
inductive EngRun where
  /-- no entry runs: none was due, or END was reached -/
  | idle
  /-- an entry runs -/
  | run
  /-- stopped by a trap (R87) -/
  | trapped
  /-- stopped by the budget (R33) -/
  | overran
  /-- stopped by a difference between the cores (R270) -/
  | mismatched
  deriving DecidableEq, Repr

/-- One engine as its program sees it (R55, R56), the leading core. -/
structure Core where
  w : Vector Word 32
  z : Bool
  n : Bool
  c : Bool
  v : Bool
  fstat : BitVec 5
  pc : Nat
  /-- The cycle within the stoke at which the next instruction issues. -/
  cycle : Nat
  entry : Entry
  run : EngRun
  loops : List LoopFrame
  calls : List Nat
  pend : List PendF
  stall : Nat
  emqs : Nat
  gdqs : Nat
  /-- Records popped in the stoke (R80). -/
  popped : Nat
  /-- POPs of the stoke that returned no record while the ring ran (R112). -/
  emptyPops : Nat
  /-- The trap address and code of the present stoke's trap. -/
  trapCode : Nat
  trapAddr : Nat
  /-- The first differing item of a mismatch (R286 ITEM). -/
  item : Nat
  deriving DecidableEq, Repr

/-! Channels' programs (R89–R107). -/

/-- What the loader keeps of an image's header (R102). -/
structure ImgMeta where
  hash : List Byte
  entryStoke : Nat
  entryLayer : Nat
  entryFault : Nat
  mirrorBase : Nat
  mirrorWords : Nat
  constBase : Nat
  constLen : Nat
  scratchBase : Nat
  scratchLen : Nat
  wcetStoke : Nat
  wcetLayer : Nat
  layoutId : Nat
  unsigned : Bool
  hasLut : Bool
  /-- The CONST sections: DMEM address and length. -/
  consts : List (Nat × Nat)
  deriving DecidableEq, Repr

/-- PROG_STATUS.STATE. -/
inductive LoadState where
  | idle | loading | loaded | refused
  deriving DecidableEq, Repr

/-- A channel's program side. -/
structure Chan where
  /-- The channel runs its program (PROG_STATUS.RUNNING). -/
  running : Bool
  inLayer : Bool
  /-- Fault cause (R94); 0 is no fault. -/
  fault : Nat
  /-- Entered through a trap (ENG_STATUS.TRAPPED). -/
  faultTrap : Bool
  /-- Causes that arose since the last boundary; the lowest is taken there (R94). -/
  faultDue : List Nat
  fRan : Bool
  fTrap : Bool
  fOvr : Bool
  /-- FAULT_CTRL.CLEAR and RESUME taken for the boundary (R95). -/
  clearDue : Bool
  resumeDue : Bool
  layerNum : Word
  /-- CH_STATE one-stoke bits. -/
  refused : Bool
  resumed : Bool
  replay : Bool
  newBank : Bool
  cleared : Bool
  restamped : Bool
  /-- CH_STATE.CAUSE of the last refusal, seven bits from [8]. -/
  refCause : Nat
  /-- A layer start requested for the boundary (R90). -/
  layerReq : Bool
  /-- A layer start was accepted, or fault entered, at the boundary that began the present stoke (R89). -/
  began : Bool
  faulted : Bool
  /-- Port writes staged by the program in the stoke, oldest first (R78). -/
  stage : List (Nat × Word)
  /-- The port snapshot of the stoke, ports that read other than 0 (R30). -/
  snap : List (Nat × Word)
  /-- Consecutive overruns (R34). -/
  overruns : Nat
  /-- The last stoke was an overrun (ENG_STATUS.OVERRAN). -/
  overran : Bool
  /-- The mirror window as committed, bytes (R98). -/
  mirrorSave : List Byte
  /-- Bank B is active (s6). -/
  bankB : Bool
  active : Option ImgMeta
  inactive : Option ImgMeta
  /-- The image in the inactive bank is pending: loaded, and not yet exchanged or discarded (R106, R284). -/
  waiting : Bool
  load : LoadState
  refuseCode : Nat
  /-- The eight tables (R81). -/
  luts : List (List Word)
  /-- TELEM[0–15] as committed. -/
  telem : List Word
  /-- EVT_FLAG of the snapshot, and the flag raised in the present stoke. -/
  evtFlag : Bool
  evtNext : Bool
  /-- TRACE_TRIG was committed at the last boundary. -/
  traceTrig : Bool
  trapInfo : Word
  deriving DecidableEq, Repr

/-- The spare table set (R106): its owner, tables and whether a LUT-set image brought them. -/
structure Spare where
  owner : Ch
  tabs : List (List Word)
  lutSet : Bool
  hash : List Byte
  deriving DecidableEq, Repr

/-! Clusters (R270–R286). -/

/-- CL_STATUS.RES_STATE. -/
inductive ResState where
  | standby | prep | cover | swap | unhealthy | retired
  deriving DecidableEq, Repr

/-- CL_PAIR_STATUS.STATE. -/
inductive PairState where
  | active | bist | shadow | waitRevert | out | retired
  deriving DecidableEq, Repr

/-- One channel pair (R276–R278). -/
structure Pair where
  st : PairState
  bistFail : Bool
  attempts : Nat
  shadowLeft : Nat
  /-- Core cycles of self-test left. -/
  bistLeft : Nat
  /-- The last self-test of a stopped or swapped pair has passed (R282, R284). -/
  bistPassed : Bool
  /-- A self-test is due at the next boundary. -/
  bistDue : Bool
  /-- The outcome of the self-test that ends, until the boundary takes it (R276). -/
  bistRes : Option Bool
  /-- RETURN has been written (R277, R284). -/
  returnReq : Bool
  /-- The channel was stopped by R282 and its self-test has not passed. -/
  stopped : Bool
  deriving DecidableEq, Repr

/-- The mirror of a channel in the reserve (R272). -/
structure Mirror where
  window : List Byte
  rdPtr : Nat
  stream : Nat
  /-- TA_MODE and the descriptor, 15 words. -/
  ta : List Word
  /-- The servo words, 8 an axis. -/
  servo : List Word
  /-- Mode, i, i_c, sp_shape, TRIM, blend offset, stokes left. -/
  loop : List Word
  /-- SET_X, SET_Y, SET_F, LAS_POWER, LOOP_SP, played level. -/
  outs : List Word
  /-- IN_LAYER, LAYER_NUM, bank, LAYOUT_ID. -/
  eng : List Word
  deriving DecidableEq, Repr

/-- A slice's place in the reserve's cycle (R279). -/
inductive SlicePhase where
  /-- no slice in progress -/
  | none
  /-- the test stoke -/
  | test
  /-- the restore stoke -/
  | restore
  deriving DecidableEq, Repr

/-- What may befall a reserve in one stoke (R281, R282). -/
inductive ResDue where
  | nothing
  /-- covering, it read an uncorrectable word of its channel's memories -/
  | chanWord
  /-- its own memories showed an uncorrectable error -/
  | ownWord
  /-- its own two cores differed -/
  | cores
  deriving DecidableEq, Repr

/-- A cluster. -/
structure Cluster where
  st : ResState
  /-- Channel in the cluster covered, shadowed or in preparation. -/
  ch : Fin 6
  /-- The takeover waits for the restore stoke of a slice (R274). -/
  wait : Bool
  /-- First stoke after a return: not ready (R277). -/
  fresh : Bool
  phase : SlicePhase
  /-- Spot-shadow stokes left of the present channel. -/
  spotLeft : Nat
  /-- Slices left of the present channel's 128. -/
  sliceLeft : Nat
  /-- Slices passed since the last failing one (R281). -/
  cleanRun : Nat
  unhealthyRuns : Nat
  /-- Stokes of preparation copy left, and bytes already copied (R283). -/
  prepLeft : Nat
  prepDone : Nat
  pairs : Vector Pair 6
  uncov : Vector Bool 6
  mirrors : Vector Mirror 6
  /-- The mirror each channel sent last, which a stoke that commits nothing repeats (R33, R270). -/
  sent : Vector Mirror 6
  /-- What befell the reserve in the stoke that ends, to be handled at its boundary. -/
  resDue : ResDue
  /-- The scrubber has met an uncorrectable word of the reserve's memories (R281). -/
  ueDue : Bool
  /-- Mismatches of the stoke that ends, to be handled at its boundary: channel, item, found by spot-shadowing. -/
  due : List (Fin 6 × Nat × Bool)
  deriving DecidableEq, Repr

/-! The change log (R404–R410). -/

/-- A log entry held and not yet drained (R404). -/
structure LogEntry where
  seq : Nat
  org : Byte
  sec : Nat
  ns : Nat
  sup : Bool
  obj : Nat
  kind : Nat
  old : Word
  new : Word
  chain : List Byte
  deriving DecidableEq, Repr

/-- The on-chip log and the denied-write window. -/
structure LogSt where
  /-- The log has started with POWER_ON (R433). -/
  started : Bool
  /-- Entries held, oldest first. -/
  held : List LogEntry
  /-- Entries lost for want of space, for the GAP entry (R409). -/
  gap : Nat
  /-- Denied writes of the present stoke or window (R396). -/
  denied : Nat
  /-- Denied writes left out of it. -/
  suppressed : Nat
  /-- Latched by a read of LOG_HEAD_SEQ_LO (R406): SEQ high word and head. -/
  latHi : Option Word
  latHead : Option (List Byte)
  /-- BANK_LOST at the last power-up. -/
  bankLost : Bool
  /-- Entries of one boundary gather here and enter the chain together in the order of R405. -/
  batching : Bool
  batch : List LogEntry
  deriving DecidableEq, Repr

/-- The safety port (R399–R402). -/
structure SafeSt where
  inh : Vector Bool 24
  pcap : Vector Bool 24
  stop : Vector Bool 8
  wd : Bool
  seq : Nat
  /-- The response to the last transaction (R399). -/
  status : Nat
  data : Word
  /-- Commands waiting for the boundary: holds to set, as (kind, index). -/
  holdDue : List (Nat × Nat)
  /-- The watchdog has expired and acts at the boundary (R402). -/
  wdDue : Bool
  deriving DecidableEq, Repr

/-- The service port (R403). -/
structure SvcSt where
  unlocked : Bool
  lockout : Bool
  fails : Nat
  /-- The challenge outstanding, 32 bytes. -/
  challenge : Option (List Byte)
  /-- Challenges drawn since reset. -/
  drawn : Nat
  deriving DecidableEq, Repr

/-! Boot, fuses, banked domain, damper (R429–R445). -/

/-- Boot stages (R433). -/
inductive Stage where
  | held | rom | sram | fetch | verify | apply | ready | failed
  deriving DecidableEq, Repr

/-- Boot. -/
structure BootSt where
  stage : Stage
  fail : Nat
  secondary : Bool
  unsigned : Bool
  /-- The image being verified or applied came from the host (R436). -/
  fromHost : Bool
  /-- The image read, while it is verified and applied. -/
  image : List Byte
  hash : List Byte
  /-- A host boot read is in progress (R436). -/
  fetching : Bool
  /-- Straps sampled at RST_N rising (R430). -/
  bootSrc : Nat
  gangId : Nat
  gangTm : Bool
  /-- RST_N is low; RST_N is low or a rail holds the device in reset. -/
  rstLow : Bool
  inReset : Bool
  /-- The rail monitors that hold the device in reset (R422). -/
  railHold : List Nat
  deriving DecidableEq, Repr

/-- The one-time fuses (R438, R449, R450). -/
structure FuseSt where
  keys : Vector (Option (List Byte)) 4
  revoked : Vector Bool 4
  secure : Bool
  busy : Bool
  /-- The write in progress: the sum of 1 PROGRAM, 2 REVOKE, 4 SET_SECURE, with its slot. -/
  job : Option (Nat × Fin 4)
  uid : List Byte
  stepLetter : Nat
  stepDigit : Nat
  deriving DecidableEq, Repr

/-- The banked domain (R349, R410, R426, R431). -/
structure BankSt where
  sec : Nat
  seq : Nat
  head : List Byte
  /-- SEQ after the last drained entry. -/
  drained : Nat
  cause : Nat
  bankLost : Bool
  low : Bool
  oscOk : Bool
  /-- Contents lost since the last power-up (R426). -/
  lostNow : Bool
  /-- Mirrors of the tag counts, ID with A and B (R349). -/
  tags : Vector (Option (BitVec 64 × BitVec 64 × BitVec 64)) 26
  deriving DecidableEq, Repr

/-- The damper (R441–R443). -/
structure DamperSt where
  pinLow : Bool
  cmd : Bool
  /-- The clocks have stopped. -/
  frozen : Bool
  /-- Engaged in MODE STOKE and waiting for the boundary that stops the clocks. -/
  stopAtBoundary : Bool
  /-- MODE of the last freeze. -/
  mode : Bool
  stoke : Word
  /-- Banked seconds at engagement. -/
  secAt : Nat
  /-- The TAP's instruction and freeze address. -/
  ir : Nat
  space : Nat
  addr : Nat
  /-- The data register last captured for TDO. -/
  dr : Nat
  deriving DecidableEq, Repr

end Sys2Proof.Machine
end

