-- ==== Sys2Proof/Machine/TypesB.lean ====
section
/-! DEFINITION. The state of the vector path, the assist, the barrier, the servo and the laser port (chapters 05-07). -/

namespace Sys2Proof.Machine
open Sys2Proof

/-- An exact rational, numerator over denominator, in lowest terms (R149: applied values are held exactly). -/
structure Q where
  num : Int
  den : Nat
  deriving DecidableEq, Repr

/-- num / den in lowest terms. -/
def Q.mk' (n : Int) (d : Nat) : Q :=
  let g := Nat.gcd n.natAbs d
  if g = 0 then ⟨0, 1⟩ else ⟨n / (g : Int), d / g⟩
/-- An integer. -/
def Q.ofInt (i : Int) : Q := ⟨i, 1⟩
/-- Sum. -/
def Q.add (a b : Q) : Q := Q.mk' (a.num * b.den + b.num * a.den) (a.den * b.den)
/-- Difference. -/
def Q.sub (a b : Q) : Q := Q.mk' (a.num * b.den - b.num * a.den) (a.den * b.den)
/-- Product. -/
def Q.mul (a b : Q) : Q := Q.mk' (a.num * b.num) (a.den * b.den)
/-- Absolute value. -/
def Q.abs (a : Q) : Q := ⟨a.num.natAbs, a.den⟩
/-- a < b. -/
def Q.lt (a b : Q) : Bool := a.num * b.den < b.num * a.den
/-- a / b for b ≠ 0; 0 for b = 0. -/
def Q.div (a b : Q) : Q :=
  if b.num = 0 then ⟨0, 1⟩ else Q.mk' (a.num * b.den * b.num.sign) (a.den * b.num.natAbs)
/-- a · m / n. -/
def Q.scale (a : Q) (m n : Nat) : Q := Q.mk' (a.num * m) (a.den * n)
/-- The nearest integer, ties to even. -/
def Q.rne (a : Q) : Int :=
  let f := a.num.fdiv a.den
  let r := a.num - f * a.den
  if 2 * r < a.den then f else if (a.den : Int) < 2 * r then f + 1 else if f % 2 = 0 then f else f + 1
/-- The nearest integer, ties away from zero. -/
def Q.rna (a : Q) : Int :=
  let v := (2 * a.num.natAbs + a.den) / (2 * a.den)
  if a.num < 0 then -(v : Int) else v
/-- The least integer not below. -/
def Q.ceil (a : Q) : Int := -((-a.num).fdiv a.den)
/-- The value rounded to a binary format: the quotient carries enough bits for one rounding. -/
def Fmt.ofQ (f : Fmt) (a : Q) : Nat :=
  let k := f.prec + 4 + Nat.log2 a.den
  let n := a.num.natAbs <<< k
  (f.round (a.num < 0) (2 * (n / a.den) + (if n % a.den = 0 then 0 else 1)) (-(k : Int) - 1)).1
/-- Rounded to binary32. -/
def Q.toF (a : Q) : Word := toW (fmt32.ofQ a)
/-- Rounded to binary64. -/
def Q.toD (a : Q) : D64 := BitVec.ofNat 64 (fmt64.ofQ a)
/-- The exact value of a finite binary32 word; 0 for a NaN or an infinity. -/
def qOfF (w : Word) : Q :=
  match f32 w with
  | .fin s m e =>
    let v : Int := if s then -(m : Int) else m
    if 0 ≤ e then ⟨v * 2 ^ e.toNat, 1⟩ else Q.mk' v (2 ^ (-e).toNat)
  | _ => ⟨0, 1⟩

/-! The vector path (R108–R118). -/

/-- A record in the prefetch buffer: its 32 bytes, and for an EPS stream the compressed position of the block that yields
its first byte, that byte's place in the block's output and OUT_BYTES at the block's start (R111, R358). -/
structure VRec where
  bytes : List Byte
  base : Nat
  off : Nat
  outB : Nat
  deriving DecidableEq, Repr

/-- The decompressor of a vector ring (R116, R117, R373). -/
structure EpsSt where
  /-- The stream header has been read. -/
  hdr : Bool
  /-- Compressed position, since the restart, of the first byte of `inp`. -/
  base : Nat
  /-- Compressed bytes held, from the start of the block in progress. -/
  inp : List Byte
  /-- Bytes of the next slots that lie before a refetched block. -/
  lead : Nat
  /-- Bytes of the block in progress that have been emitted; how many of them a refetch drops. -/
  done : Nat
  skip : Nat
  /-- OUT_BYTES at the start of the block in progress. -/
  outB : Nat
  /-- Bytes of the record not yet complete (R117), with where it began. -/
  part : List Byte
  pBase : Nat
  pOff : Nat
  pOut : Nat
  deriving DecidableEq, Repr

/-- A channel's vector path. -/
structure VecSt where
  /-- Records placed and not freed; the stoke's popped records stay at its head until the boundary (R110). -/
  buf : List VRec
  /-- Stream number of the record at the head of the buffer, as committed. -/
  stream : Nat
  /-- Stream number of the next record to be placed. -/
  placed : Nat
  /-- Ring index loaded at the restart. -/
  start : Nat
  /-- Ring index of the next slot to fetch. -/
  fetchIdx : Nat
  /-- Records that a refetch still drops before it places one (R111). -/
  drop : Nat
  stop : Nat
  errIdx : Nat
  /-- The committed count is below LOW_WATER; it has been at or above it since LOW was last set. -/
  low : Bool
  above : Bool
  underrun : Bool
  inBytes : Nat
  outBytes : Nat
  eps : Bool
  dec : EpsSt
  deriving DecidableEq, Repr

/-- A channel's SYNC unit (R129–R133). -/
structure SyncSt where
  id : Word
  mask : Vector Word 3
  tmo : Word
  waiting : Bool
  released : Bool
  timeout : Bool
  mismatch : Bool
  refused : Bool
  skewed : Bool
  /-- The stoke of the arrival, the ID, mask and timeout it was made with. -/
  arr : Nat
  arrId : Word
  arrMask : Nat
  arrTmo : Nat
  /-- Arrivals known: gang-wide channel, ID, stoke of the arrival, stoke from which it is known. -/
  known : List (Nat × Word × Nat × Nat)
  rel : Word
  deriving DecidableEq, Repr

/-- Flags of the assist for the next snapshot (R119). -/
structure TaSt where
  conflict : Bool
  bad : Bool
  /-- The same, while the stoke's writes gather. -/
  conflictNext : Bool
  badNext : Bool
  deriving DecidableEq, Repr

/-! The servo (R134–R157). -/

/-- R146: the axis states, with their codes in this order. -/
inductive AxSt where
  | off | run | hold | frozen | killed
  deriving DecidableEq, Repr

/-- A linear ramp of one exact value (R149). -/
structure RampQ where
  start : Q
  target : Q
  deriving DecidableEq, Repr

/-- One servo axis of a channel. -/
structure Axis where
  st : AxSt
  i : Word
  dd : Word
  rPrev : Word
  vPrev : Word
  ePrev : Word
  clHi : Bool
  clLo : Bool
  n1z1 : Word
  n1z2 : Word
  n2z1 : Word
  n2z2 : Word
  /-- Stokes in RUN since the last entry: 0 first_run, 1 second_run, 2 later. -/
  runAge : Nat
  /-- The first stoke of HOLD from OFF, KILLED or FROZEN: the preset of R147 is due; `presetY` sets r to y (from OFF). -/
  preset : Bool
  presetY : Bool
  /-- KILLED was entered from FROZEN. -/
  wasFrozen : Bool
  /-- The code in force, and the one committed a boundary earlier (R136); the code the converter die holds under the kill wire (R13). -/
  d : Int
  dPrev : Int
  out : Int
  /-- y of the last stoke (POS). -/
  y : Word
  /-- Decimate in AU of the last stoke (R137), before INV_ADC. -/
  dec : Int
  /-- The mean of the raw samples of the last stoke has magnitude at least 131,008 codes (R151). -/
  satMean : Bool
  nFerr : Nat
  nSat : Nat
  nClamp : Nat
  fClamped : Bool
  fAw : Bool
  fSat : Bool
  fFerr : Bool
  fOutside : Bool
  iOut : Bool
  cause : Nat
  /-- Writes to P registers not yet applied: offset (for axis X) and value (R155). -/
  shadow : List (Nat × Word)
  /-- A detector target has been written and its ramp starts at this boundary (R149). -/
  pdDirty : Bool
  pdOff : RampQ
  pdGain : RampQ
  pdM : Nat
  pdN : Nat
  deriving DecidableEq, Repr

/-- GRID_STATUS.STATE. -/
inductive GridState where
  | idle | loading | pending | refused
  deriving DecidableEq, Repr

/-- A channel's servo state beside its axes. -/
structure SvCh where
  ax : Vector Axis 3
  dx : RampQ
  dy : RampQ
  rot : RampQ
  scale : RampQ
  m : Nat
  n : Nat
  /-- A trim target has been written and the ramp starts at this boundary (R149). -/
  trimDirty : Bool
  grid : GridState
  swapped : Bool
  gridRefuse : Nat
  /-- No GRID fault waits for a fresh grid set to be swapped in (R142, R152). -/
  fresh : Bool
  /-- The axes of this channel's die have seen the kill wire asserted in the present stoke (R146). -/
  killSeen : Bool
  deriving DecidableEq, Repr

/-- The grid loader (R153, R154): channel, whether X and Y, and the block once it has been read. -/
structure GridLoad where
  ch : Ch
  xy : Bool
  block : Option (List Byte)
  deriving DecidableEq, Repr

/-! The laser port (R158–R173). -/

/-- R164: the arm states, with their codes in this order. -/
inductive ArmSt where
  | disarmed | arming | armed
  deriving DecidableEq, Repr

/-- The edges of one stoke: on and off offsets, and whether the staging stoke was in layer (R92, R160). -/
structure Edges where
  on : Option Nat
  off : Option Nat
  layer : Bool
  deriving DecidableEq, Repr

/-- A channel's laser port. -/
structure Las where
  arm : ArmSt
  /-- Stokes spent in ARMING. -/
  armWait : Nat
  trip : Nat
  /-- A trip that has acted on the pins and reaches the state at the boundary (R164). -/
  tripDue : Nat
  /-- READY and ALARM, filtered and active. -/
  ready : Bool
  alarm : Bool
  /-- The played level, and whether it was on at some moment of the present stoke (R213). -/
  level : Bool
  lit : Bool
  /-- Edges that play in the present stoke, those still to play, and those held for the next (R14). -/
  play : Edges
  held : Edges
  /-- Transient masks of the present stoke and of the next; the guard and grid masks enter the present one. -/
  mNow : Bool
  mNext : Bool
  /-- Latching withheld-stoke mask of the present stoke and the next (OFF_LATCH). -/
  lNow : Bool
  lNext : Bool
  /-- Code 0 in the present stoke and the next (P_ZERO). -/
  zNow : Bool
  zNext : Bool
  /-- The fault mask, now and from the next stoke. -/
  fNow : Bool
  fNext : Bool
  /-- A clock-free or filtered cut in force until the port is armed again. -/
  cut : Bool
  /-- A mask held the gate off while the level was on in the present stoke (MASK_CNT); any mask in the present stoke and in the last. -/
  maskHit : Bool
  masked : Bool
  maskedLast : Bool
  /-- The played level at the end of the last stoke (LAS_STATE.LEVEL). -/
  levelLast : Bool
  badEdge : Bool
  /-- Power codes: playing now and in the stoke before. -/
  code : Nat
  codePrev : Nat
  /-- MON_MEAN of the last stoke. -/
  monMean : Nat
  /-- The gate pin was on at every instant of the present stoke so far; cycle up to which it has been accounted; cycles on. -/
  onAll : Bool
  seen : Nat
  onCyc : Nat
  /-- Gate on throughout, and code played, of the last 16 stokes, newest first (R168). -/
  histOn : List Bool
  histCode : List Nat
  monCount : Nat
  monDev : Bool
  /-- Cycles the gate was on in the last stoke (R203). -/
  onLast : Nat
  deriving DecidableEq, Repr

/-- The safety inputs (R170, R171). -/
structure LsafeSt where
  aLow : Bool
  bLow : Bool
  disc : Bool
  differ : Nat
  /-- Both inputs have been asserted together since DISC was last set. -/
  both : Bool
  /-- The assertion of R170 has occurred and trips every port at the next boundary; LSAFE_STATUS before it. -/
  tripDue : Bool
  was : Nat
  deriving DecidableEq, Repr

end Sys2Proof.Machine
end

