-- ==== Sys2Proof/Machine/TypesC.lean ====
section
/-! DEFINITION. The state of the event matrix, the interrupts, the rings and the host link, and what leaves the device (R22-R25, R354-R369). -/

namespace Sys2Proof.Machine
open Sys2Proof

/-- One line of the event matrix (R22–R24). -/
structure EvLine where
  /-- The source's activity after INV. -/
  active : Bool
  /-- The instant, in core cycles of the present stoke, from which the line's latest pulse stands on it. -/
  from_ : Int
  /-- The instant at which that pulse ends, at the earliest. -/
  until_ : Int
  /-- The instant at which the pulse before it ended. -/
  last : Int
  deriving DecidableEq, Repr

/-- The event matrix. -/
structure EvtSt where
  lines : Vector EvLine 64
  /-- Destinations that a line has reached and that have not acted yet, with the instant of the act, oldest first. -/
  acts : List (Nat × Nat)
  /-- The sources that are active as levels now. -/
  levels : List Nat
  deriving DecidableEq, Repr

/-- Interrupt sources and MSI-X vectors (R368). -/
structure IntSt where
  pend : BitVec 256
  /-- Vectors awaiting acknowledgement. -/
  wait : BitVec 256
  /-- Vectors masked by PCI Express, and their PBA bits. -/
  mask : BitVec 256
  pba : BitVec 256
  /-- Messages sent since reset, and the vector of the last. -/
  sent : Nat
  last : Nat
  deriving DecidableEq, Repr

/-- RING_STATUS.STATE, with its codes in this order (R360). -/
inductive RingState where
  | disabled | run | stopped
  deriving DecidableEq, Repr

/-- One ring (R357–R360, R369). -/
structure RingU where
  st : RingState
  /-- RING_STATUS cause: 1 host read error, 2 host write error, 3 FORMAT, 4 LINK. -/
  cause : Nat
  badDb : Bool
  /-- The device index and the host index, free-running 32-bit counts. -/
  dev : Nat
  host : Nat
  drops : Nat
  /-- DISABLE has been accepted and the ring waits for its requests in flight (R360). -/
  closing : Bool
  /-- A record has been dropped since the last one written (R359). -/
  gap : Bool
  /-- Advances since the ring's last interrupt, and stokes since the first of them (R369). -/
  advSince : Nat
  age : Option Nat
  deriving DecidableEq, Repr

/-- A motion command ring's record taken and waiting (R363): its bytes, the stoke of execution, and whether a record of the
axis has been taken in the present stoke. -/
structure McmdU where
  wait : Option (List Byte)
  due : Nat
  taken : Bool
  deriving DecidableEq, Repr

/-- The PCI Express link (R354, R376). -/
structure LinkSt where
  up : Bool
  rate : Nat
  width : Nat
  bm0 : Bool
  bm1 : Bool
  deriving DecidableEq, Repr

/-- What leaves the device over PCI Express, the lanes, the safety and service ports and the tag bus. -/
inductive Out where
  /-- a record written into a slot of a ring (R357) -/
  | slot (ring idx : Nat) (bytes : List Byte)
  /-- a ring's index block: DEV_IDX, DROPS, STOKE (R357) -/
  | index (ring dev drops stoke : Nat)
  /-- an MSI-X message (R368) -/
  | msi (vec : Nat)
  /-- archive bytes written into a posted buffer from an offset (R366) -/
  | buf (ring idx off : Nat) (bytes : List Byte)
  /-- the STATUS word of a completed descriptor (R366) -/
  | desc (ring idx : Nat) (status : Word)
  /-- a posted descriptor's STATUS, a record or a DEV_IDX is read from the host (R357, R366) -/
  | hostRead (addr len : Nat)
  /-- a safety port response: STATUS, SEQ, DATA (R399) -/
  | safe (status seq : Nat) (data : Word)
  /-- a service port reply (R403) -/
  | svc (bytes : List Byte)
  /-- a frame or message on a lane port, class and bytes (R380–R385) -/
  | lane (port cls : Nat) (bytes : List Byte)
  /-- a gang frame launched or forwarded on a lane port (R383) -/
  | frame (port : Nat) (f : GangFrame)
  /-- a stoke stamp sent or forwarded on a lane port: count, TAI seconds and ns, RATE (R45) -/
  | stamp (port cnt sec ns rate : Nat)
  /-- a request frame on a tag's bus (R341) -/
  | tag (t : Nat) (bytes : List Byte)
  /-- a register, BAR2 or TAP read's answer -/
  | data (v : Nat)
  deriving DecidableEq, Repr

end Sys2Proof.Machine
end

