-- ==== Sys2Proof/Machine/TypesD.lean ====
section
/-! DEFINITION. The state of the melt-pool loop units and of trace (chapter 08). -/

namespace Sys2Proof.Machine
open Sys2Proof

/-- The statistics of one photodiode over one stoke (R175, R176). -/
structure PdStat where
  mean : Nat
  peak : Nat
  min : Nat
  var : Nat
  valid : Bool
  suspect : Bool
  short : Bool
  satAll : Bool
  count : Nat
  deriving DecidableEq, Repr

/-- R183: the modes, with their codes in this order. -/
inductive LoopMode where
  | open_ | track | shape | hold
  deriving DecidableEq, Repr

/-- One loop unit (R174–R194). Its registers, TRIM and the gain table among them, are in the register store. -/
structure LoopU where
  mode : LoopMode
  i : Word
  ic : Word
  spShape : Word
  /-- u committed at the last boundary. -/
  u : Word
  awHi : Bool
  awLo : Bool
  /-- The hand-over blend: D, N and stokes left; no blend when none are left (R186). -/
  blendD : Word
  blendN : Nat
  blendLeft : Nat
  refused : Bool
  refCause : Nat
  iOut : Bool
  revert : Nat
  loss : Nat
  freeze : Nat
  /-- Coefficient writes waiting, head first (R192). -/
  queue : List Write
  /-- An age drop waits for the return to SHAPE (R188). -/
  autoDue : Bool
  /-- The next stoke is the first of TRACK or SHAPE: it enters bumplessly, from HOLD or from OPEN (R185). -/
  entry : Option Bool
  /-- The held camera word as binary32 and as delivered, its age in the present stoke, and a usable statistic delivered in the present stoke, as delivered and as binary32 (R177). -/
  cam : Word
  camRaw : Word
  camAge : Nat
  camNew : Option (Word × Word)
  /-- Stoke c of the held statistic was emitting; the same for the one just delivered. -/
  camEmit : Bool
  fb : Word
  fbValid : Bool
  e : Word
  g : Word
  ec : Word
  sp : Word
  uff : Word
  /-- A committed mode request not yet evaluated (R184). -/
  req : Option Word
  /-- What the stoke just computed calls for at its boundary (R182, R185, R188–R190). -/
  dueNan : Bool
  dueEntry : Bool
  dueLost : Bool
  dueFrozen : Bool
  dueAged : Bool
  /-- The mode changed, or changed by itself, at the last boundary (trace sources 2 and 3). -/
  changed : Bool
  reverted : Bool
  emit : Bool
  pdE : PdStat
  pdB : PdStat
  deriving DecidableEq, Repr

/-- TRACE_STATUS.STATE. -/
inductive TraceState where
  | idle | filling | ready | post
  deriving DecidableEq, Repr

/-- One channel's trace capture (R195–R197). -/
structure TraceU where
  st : TraceState
  done : Bool
  preShort : Bool
  throttled : Bool
  ecc : Bool
  /-- Records stored since the ARM, and stokes left to the next sampled one. -/
  stored : Nat
  skip : Nat
  /-- A trigger waits for its record; the trigger record is stored; its place and word 0, of a camera's capture the trigger's stoke
  until then; records still to store after it. -/
  trigDue : Bool
  recAt : Bool
  recIdx : Nat
  recStoke : Word
  postLeft : Nat
  trigIdx : Nat
  trigStoke : Word
  /-- The level node's last value (source 5). -/
  prev : Option Word
  deriving DecidableEq, Repr

end Sys2Proof.Machine
end

