-- ==== Sys2Proof/Machine/TypesE.lean ====
section
/-! DEFINITION. The state of housekeeping, throttling and supplies (chapter 20). -/

namespace Sys2Proof.Machine
open Sys2Proof

/-- One temperature input (R413): value in 1/64 °C, fault code, and consecutive rounds without a fault since it became invalid. -/
structure TempIn where
  value : Int
  valid : Bool
  fault : Nat
  clean : Nat
  deriving DecidableEq, Repr

/-- One threshold with its entry and exit counts (R414). -/
structure Thr where
  set : Bool
  entry : Nat
  exit : Nat
  deriving DecidableEq, Repr

/-- One rail monitor: mV of the last round and below warning at its end; a dip latched in the present round; below warning
now, the lowest value of the present excursion, and DIP_GATE_STOKES as it stood when the excursion began (R422–R425). -/
structure RailMon where
  mv : Nat
  below : Bool
  dipRound : Bool
  low : Bool
  lowest : Nat
  dgs : Nat
  deriving DecidableEq, Repr

/-- The windows of R424 of one converter die, as the last stoke they cover. -/
structure DipWin where
  suspect : Option Nat
  gate : Option Nat
  deriving DecidableEq, Repr

/-- Housekeeping. -/
structure HkSt where
  temps : Vector TempIn 22
  /-- Warning, L1, L2, L3. -/
  thr : Vector Thr 4
  ext : Vector Thr 16
  /-- The die sensors whose loss holds the level (R417), and a hold that ended in the present round. -/
  heldBy : List Nat
  released : Bool
  /-- Level and Warning in force. -/
  level : Nat
  tj : Int
  rounds : Nat
  rails : Vector RailMon 12
  /-- Windows of die A and die B. -/
  dips : Vector DipWin 2
  /-- A shutdown is in force; it was forced by lost sensors (R420). -/
  shut : Bool
  shutLost : Bool
  deriving DecidableEq, Repr

end Sys2Proof.Machine
end

