-- ==== Sys2Proof/Machine/TypesF.lean ====
section
/-! DEFINITION. The state of the ember map, the draught guard and the gang's members (chapter 09). -/

namespace Sys2Proof.Machine
open Sys2Proof

/-- A deposit: its pin stoke, its gang-wide channel, its energy and its centre cell (R203–R205). -/
structure Deposit where
  m : Nat
  g : Nat
  q : Word
  i : Nat
  j : Nat
  deriving DecidableEq, Repr

/-- What a channel keeps for its deposits and its guard: the trimmed points played, newest first (two pin stokes ahead of
the stoke that ended, one ahead, the one just played, the one before), DIS and GAIN in force for the present pin stoke and the next, and what EM_DEP_LAST, EM_DEP_STOKE and EM_PSTATE tell. -/
structure EmCh where
  pts : List (Int × Int)
  /-- The setpoints behind them (R262). -/
  raw : List (Int × Int)
  /-- The channel emits in the next pin stoke (R213, R214). -/
  emNext : Bool
  dis : Bool
  disNext : Bool
  gain : Word
  gainNext : Word
  last : Word
  lastStoke : Word
  outside : Bool
  bad : Bool
  badNext : Bool
  deriving DecidableEq, Repr

/-- The ember map beside its cells. -/
structure EmSt where
  ch : Vector EmCh 24
  /-- A clear is in progress. -/
  clearing : Bool
  /-- Deposits to be applied at the end of the present stoke, and local deposits formed for the next exchange (R205). -/
  due : List Deposit
  own : List Deposit
  deriving DecidableEq, Repr

/-- A trail (R213): its owner, its axis as a point and a direction, the points it holds while it has no axis, the segment as
the least and the greatest projection on the direction, its tolerance in 1/256 field unit, its pin stokes and how many it holds. -/
structure Trail where
  g : Nat
  axis : Option (Int × Int × Int × Int)
  pts : List (Int × Int)
  lo : Int
  hi : Int
  e : Nat
  b0 : Nat
  b1 : Nat
  n : Nat
  isOpen : Bool
  deriving DecidableEq, Repr

/-- An active plan (R217–R220). `at_` is the stoke whose end committed it. -/
structure Plan where
  g : Nat
  slot : Fin 2
  path : GPath
  start : Nat
  n : Nat
  at_ : Nat
  id : Word
  settled : Bool
  contested : Bool
  deriving DecidableEq, Repr

/-- What one member is known to have sent: heard since reset, its latest frame, digests equal, a compatibility member. -/
structure Member where
  heard : Bool
  last : Nat
  emSame : Bool
  gdSame : Bool
  compat : Bool
  /-- Frames that had not arrived at their boundary, and have not been lost or taken in since (R208). -/
  missing : List Nat
  deriving DecidableEq, Repr

/-- One channel's backstop: GD_VIOL of the present pin stoke and the length of the run of masked stokes (R216). -/
structure Viol where
  mask : Bool
  zone : Bool
  culprit : Nat
  run : Nat
  deriving DecidableEq, Repr

/-- The draught guard. -/
structure GdSt where
  /-- Trails, newest first. -/
  trails : List Trail
  plans : List Plan
  /-- REFUSED of slots 0 and 1 of each channel. -/
  refused : Vector (Bool × Bool) 24
  /-- The newest known pin stoke of each gang-wide channel heard of: stoke, path, whether it emits. -/
  newest : List (Nat × Nat × GPath × Bool)
  viol : Vector Viol 24
  /-- Channels in a run of violations, for each zone (R224). -/
  ozRun : Vector (BitVec 24) 16
  incomplete : Bool
  mismatch : Bool
  /-- Plans published and withdrawn at the last boundary, for the gang frame. -/
  sent : List FramePlan
  deriving DecidableEq, Repr

/-- The gang's members and the frames received in the present stoke, with whether each came before the reserved window. -/
structure MembersSt where
  dev : Vector Member 4
  frames : List (GangFrame × Bool)
  deriving DecidableEq, Repr

end Sys2Proof.Machine
end

