-- ==== Sys2Proof/Machine/TypesG.lean ====
section
/-! DEFINITION. The state of the camera pipelines and the estimators (chapters 10, 11). -/

namespace Sys2Proof.Machine
open Sys2Proof

/-- R244: the pipeline states, with their codes in this order. -/
inductive CamState where
  | stopped | run | stopping
  deriving DecidableEq, Repr

/-- An issued exposure set: its numbers, the setting it uses (R231), D_cam in force at its rise (R254) and the taps in force (R241). -/
structure CamSet where
  setNum : Nat
  tseq : Nat
  members : Nat
  widths : List Nat
  gap : Nat
  gen : Nat
  l2 : Bool
  dcam : Int
  tap : Word
  /-- ARCH_ROUTE in force at the set's start (R374). -/
  route : Word
  deriving DecidableEq, Repr

/-- A pulse of the pending-trigger list (R232); `rise` counts core cycles from the start of the present stoke. -/
structure CamPulse where
  tseq : Nat
  setNum : Nat
  member : Nat
  rise : Int
  deriving DecidableEq, Repr

/-- A member frame that has ended: shaped raw pixels, flags LN_SHORT, LN_LONG, FR_SHORT, FR_LONG, TMO from bit 0, its stoke, and the thresholds in force at its start. -/
structure CamFrame where
  member : Nat
  raw : List Nat
  flags : Nat
  stoke : Nat
  thr1 : Nat
  thr2 : Nat
  spat : Word
  /-- The frame's place in the order in which frames ended (R242). -/
  num : Nat
  /-- The pages reserved at its start, and its ASEQ, where a tap of it is archived (R241, R367). -/
  slot : Option (Nat × Nat)
  deriving DecidableEq, Repr

/-- A set that has not closed: its frames, in line-scan mode whether its pulse was missed, the stoke of its last fall once it has come, and whether every stoke of its exposure window so far was dark (R264). -/
structure CamOpen where
  set : CamSet
  frames : List CamFrame
  missed : Bool
  fell : Option Nat
  dark : Bool
  deriving DecidableEq, Repr

/-- The frame in progress: the set and member it belongs to, the stoke of its start, thresholds, CAM_TAP and ARCH_ROUTE in force there, what the
archive has reserved for it, and whether CAM_FRAME_TMO has ended it. -/
structure CamCur where
  tag : Option (Nat × Nat)
  start : Nat
  thr1 : Nat
  thr2 : Nat
  spat : Word
  tap : Word
  route : Word
  slot : Option (Nat × Nat)
  dead : Bool
  deriving DecidableEq, Repr

/-- A strip in progress (R243): its first line's set, its lines, their flags, its first line with thresholds and what the archive has reserved
for the strip; whether every stoke of its lines' exposures so far was dark, and whether one of them reaches into the present stoke (R264). -/
structure CamStrip where
  set : CamSet
  lines : List (List Nat)
  flags : Nat
  head : CamFrame
  dark : Bool
  reach : Bool
  deriving DecidableEq, Repr

/-- A record on its way (R239): sixteen words with STAMP to come, the widths used, the stoke in which its set closed, and whether it is a strip's. -/
structure CamRec where
  words : List Word
  used : List Nat
  close : Nat
  strip : Bool
  deriving DecidableEq, Repr

/-- An archived frame: tap, member, words 13 and 14, stoke, WIDTH, HEIGHT, the EPS frame, and the pages it still holds (R241, R367). -/
structure CamArch where
  tap : Nat
  member : Nat
  w13 : Word
  w14 : Word
  stoke : Nat
  width : Nat
  height : Nat
  eps : List Byte
  aseq : Nat
  pages : Nat
  route : Word
  deriving DecidableEq, Repr

/-- One pipeline. -/
structure Camera where
  st : CamState
  /-- The exposure in progress: its set, the member, whether TRIG is active, and the instant of its next edge from the start of the present stoke. -/
  exp : Option (CamSet × Nat × Bool × Int)
  /-- The instants of the last TRIG rise and fall from the start of the present stoke. -/
  rise : Option Int
  fall : Option Int
  pending : List CamPulse
  opens : List CamOpen
  cur : Option CamCur
  /-- FV, or LV in line-scan mode, is active. -/
  fv : Bool
  tseq : Nat
  setNum : Nat
  gen : Nat
  genDue : Bool
  l2cut : Bool
  /-- The periodic request of the present stoke has been made. -/
  perDone : Bool
  /-- The program trigger of the present stoke and the one held for the next (R14, R229). -/
  progAt : Option Nat
  progHeld : Option Nat
  /-- A host request is due at cycle 0 of the present stoke. -/
  reqDue : Bool
  strip : Option CamStrip
  /-- Closed sets, oldest first, and the record completed in the present stoke. -/
  done : List CamRec
  fresh : Option CamRec
  /-- A record was delivered into the present stoke: its telemetry record is due (R362). -/
  telDue : Bool
  stat : List Word
  used : List Nat
  /-- Means for the dark estimator of sets that closed in the present stoke, with whether the exposure reached into it (R264). -/
  dark : List (Q × Bool)
  arch : List CamArch
  aseq : Nat
  /-- Frames ended. -/
  ends : Nat
  deriving DecidableEq, Repr

/-- R251: the estimator states, with their codes in this order. -/
inductive EstState where
  | off | idle | collect | evaluate | ramp
  deriving DecidableEq, Repr

/-- One estimator. -/
structure Est where
  st : EstState
  /-- Stokes in IDLE. -/
  wait : Nat
  /-- Samples of the round, newest first. -/
  xs : List (List Q)
  /-- The estimator's registers, from its base, as they stood at the entry into COLLECT (R255). -/
  par : List Word
  /-- The targets at the start of the round, and the applied values there. -/
  old : List Word
  appl : List Q
  rejRun : Nat
  stuck : Bool
  last : Nat
  cause : Nat
  spread : Word
  cal : Nat
  lastSec : Nat
  lastNs : Nat
  /-- The targets that a host write has reached at this boundary; START and ABORT have. -/
  retarget : List Nat
  start : Bool
  abort : Bool
  /-- The ramps of estimators 0 and 5 (R254): two values, stokes taken, stokes in all; a target has changed. -/
  r0 : RampQ
  r1 : RampQ
  m : Nat
  n : Nat
  dirty : Bool
  deriving DecidableEq, Repr

/-- A crossing that waits for its window (R261, R262): the seam's normal, v_n, the untrimmed point, the expected time in core
cycles since stoke 0, and the place of its middle sample. -/
structure Xing where
  mx : D64
  my : D64
  vn : D64
  px : Q
  py : Q
  te : Q
  mid : Nat
  deriving DecidableEq, Repr

/-- A channel's estimators and what they gather. -/
structure CalCh where
  est : Vector Est 5
  /-- Stokes of the present dark run, and the sample pairs held until it reaches GAP_MIN (R257). -/
  run : Nat
  held : List (List Q)
  /-- The sign of the last nonzero v of each axis (R259). -/
  lastV : Vector (Option Bool) 3
  pend : List Xing
  /-- PD_E samples, newest first, by place from stoke 0; stokes, newest first, emitting with PD_E valid. -/
  pd : List (Nat × Nat)
  ok : List (Nat × Bool)
  deriving DecidableEq, Repr

end Sys2Proof.Machine
end

