-- ==== Sys2Proof/Machine/TypesH.lean ====
section
/-! DEFINITION. The state of the motion axes, the encoders, the probes and the compare units (chapters 13 and 14). -/

namespace Sys2Proof.Machine
open Sys2Proof

/-- R300: the axis states, with their codes in this order. -/
inductive MaSt where
  | disabled | idle | moving | stopping | homing | fault
  deriving DecidableEq, Repr

/-- HOME_STATUS phase, with its codes in this order (R305). -/
inductive HomePh where
  | none | search | backoff | approach | set
  deriving DecidableEq, Repr

/-- What an axis does once it stands still after a ramp stop. -/
inductive After where
  | idle
  | fault
  /-- a move to a target in accumulator units (R298, R302) -/
  | move (t : Int)
  /-- a velocity move: direction, velocity -/
  | jog (pos : Bool) (v : Nat)
  /-- the next phase of homing -/
  | home
  deriving DecidableEq, Repr

/-- What the profile of an axis does (R296–R302). -/
inductive Drive where
  | rest
  /-- to a target in accumulator units -/
  | move (t : Int)
  /-- at a velocity -/
  | jog (v : Nat)
  /-- to standstill -/
  | stop (next : After)
  deriving DecidableEq, Repr

/-- One limit or home input (R303): raw and filtered assertion, latch, and the instant since which the filtered level has
been inactive, in core cycles of the present stoke. -/
structure LimIn where
  raw : Bool
  filt : Bool
  latch : Bool
  since : Int
  deriving DecidableEq, Repr

/-- One coil's regulator (R290): integrator, limit flags, d as computed, and the current decimate. -/
structure Coil where
  ia : Word
  hi : Bool
  lo : Bool
  d : Word
  cur : Word
  deriving DecidableEq, Repr

/-- The STEP and DIR outputs (R299), in motion clocks of the present stoke. -/
structure StepU where
  /-- The last crossing. -/
  last : Option Int
  /-- The clocks at which pulses that may still stand began. -/
  pulses : List Int
  /-- The DIR level, the clock since which it stands, and the clock since which the axis travels the other way. -/
  dir : Bool
  dirAt : Int
  due : Option Int
  deriving DecidableEq, Repr

/-- One motion axis (R287–R312). -/
structure MaU where
  st : MaSt
  /-- The accumulator at the boundary that began the present stoke, 48 bits signed. -/
  acc : Int
  /-- VQ in the direction of travel, and that direction. -/
  vq : Nat
  pos : Bool
  /-- Velocity of every clock of the present stoke, clocks with one unit more at its start, and the clock of a hard stop. -/
  v : Int
  extra : Nat
  cut : Option Nat
  /-- The velocity of the stoke before (VEL). -/
  vLast : Int
  drive : Drive
  /-- DEC in force; the axis holds its velocity until d ≤ s_br; the last stoke decelerated; DECEL has been written (R302). -/
  dec : Nat
  hold : Bool
  decel : Bool
  decDue : Bool
  /-- The present stoke is a landing stoke. -/
  landing : Bool
  /-- A ramp stop takes effect at the boundary; a stop request fell in the present stoke (R301). -/
  ramp : Bool
  stopped : Bool
  short : Bool
  raised : Bool
  overshoot : Bool
  homed : Bool
  brake : Bool
  /-- MA_FAULT: CAUSE and ALL; causes that arose in the present stoke. -/
  cause : Nat
  all : Nat
  due : List Nat
  /-- Stokes with profile velocity 0; I_mag of the last moving stoke (R292). -/
  zeros : Nat
  iLast : Option Word
  a : Coil
  b : Coil
  vbr : Word
  /-- The last regulation met a NaN or an infinity; a coil's duty stood at DUTY_MAX in the last stoke (SAT). -/
  nan : Bool
  sat : Bool
  /-- A current sample of the last stoke exceeded I_OC; the bridge voltage lay below VBR_MIN (R294). -/
  oc : Bool
  uv : Bool
  /-- LA in units of 2^−16 turn, where it is formed (R293). -/
  la : Option Word
  /-- Half-bridge duties committed last, and those that played before them (R289). -/
  duty : List Word
  dutyOld : List Word
  stall : Nat
  devRun : Nat
  dev : Word
  devBad : Bool
  lims : Vector LimIn 3
  home : HomePh
  /-- The source has been found in the phase; the phase's direction; the accumulator where it began; the latched position;
  the final travel of BACKOFF is under way. -/
  found : Bool
  hdir : Bool
  hstart : Int
  latched : Int
  away : Bool
  reversed : Bool
  failed : Bool
  step : StepU
  deriving DecidableEq, Repr

/-- The read of the present stoke (R313–R316): cause (0 valid), position, word before unwrapping, status bits, and INC_CNT
at the boundary it sampled. -/
structure EncRead where
  cause : Nat
  pos : Word
  word : Nat
  base : Int
  inc : Int
  stat : Nat
  deriving DecidableEq, Repr

/-- One encoder interface with its index unit (R313–R319). -/
structure EncU where
  pos : Word
  /-- The last good word, the position before ENC_OFFSET that it gave, and whether no read has been valid since enabling. -/
  word : Nat
  base : Int
  first : Bool
  /-- A read has been made since enabling. -/
  tried : Bool
  rawBits : Nat
  rawOk : Bool
  valid : Bool
  cause : Nat
  slip : Bool
  stat : Nat
  invalid : Nat
  /-- The read completed in the present stoke. -/
  read : Option EncRead
  /-- INC_CNT now, and at the boundary that began the present stoke; an illegal transition in the present stoke. -/
  inc : Int
  incB : Int
  illegal : Bool
  /-- Filtered A, B, Z. -/
  pa : Bool
  pb : Bool
  pz : Bool
  /-- FB at the boundary that began the present stoke (FB_POS); ENC_OFFSET has changed since the last valid read. -/
  fbB : Word
  offNew : Bool
  /-- I of the last valid read; P and I that FB runs on. -/
  i : Int
  fbP : Word
  fbI : Int
  idxArmed : Bool
  idxBad : Bool
  idxCorr : Bool
  idxLast : Word
  deriving DecidableEq, Repr

/-- One compare unit (R322–R325). -/
structure CmpU where
  armed : Bool
  behind : Bool
  done : Bool
  /-- V; values left, where a limit is set. -/
  v : Int
  left : Word
  /-- p at the clock last evaluated, and that clock. -/
  p : Int
  clk : Nat
  /-- The instant at which the output pulse ends, in motion clocks of the present stoke. -/
  until_ : Int
  /-- An arm, or a disarm, for the boundary. -/
  armDue : Bool
  disDue : Bool
  deriving DecidableEq, Repr

/-- The SSI passthrough of one axis (R326). -/
structure FwdU where
  /-- Bits of the frozen frame still to shift, most significant first; none while no frame is frozen. -/
  bits : Option (List Bool)
  pin : Bool
  /-- FWDCK has been high since this instant, in core cycles of the present stoke. -/
  highAt : Option Int
  deriving DecidableEq, Repr

/-- One probe unit (R320). -/
structure PrbU where
  full : Bool
  level : Bool
  stoke : Word
  clk : Nat
  pos : List Word
  fb : List Word
  deriving DecidableEq, Repr

/-- One axis: motion, encoder, compare, passthrough. -/
structure Motor where
  m : MaU
  e : EncU
  c : CmpU
  f : FwdU
  deriving DecidableEq, Repr

end Sys2Proof.Machine
end

