-- ==== Sys2Proof/Machine/TypesI.lean ====
section
/-! DEFINITION. The state of the illumination chains, the tags and the Suder lanes (chapters 15, 16 and 18). -/

namespace Sys2Proof.Machine
open Sys2Proof

/-- One chain of powder-bed illumination (R329–R338). Instants are core cycles of the present stoke. -/
structure IllU where
  /-- The words of the frame that shifts, output 0 first, the instant its last bit ends, and bands held by a limit in them. -/
  shift : Option (List Word × Int × Nat)
  /-- One further frame has been requested. -/
  again : Bool
  /-- The words in the drivers, with the bands they hold limited. -/
  latched : List Word
  limited : Nat
  /-- The longest on-time since the last LATCH, in motion clocks; the words and the longest on-time of the interval before it. -/
  onMax : Nat
  prevWords : List Word
  prevOn : Nat
  /-- The instant a pending strobe opens; an open strobe's and test pulse's opening and end; the instant STROBE last became inactive. -/
  pendAt : Option Int
  openAt : Option (Int × Int)
  testAt : Option (Int × Int)
  /-- The strobe that closed last has not yet given its light-sensor samples; the motion clocks for which it was open. -/
  luxDue : Option Nat
  closedAt : Int
  /-- A test pulse waits for TRIG; it is due again after the next strobe; strobes since the last. -/
  testWait : Bool
  testAgain : Bool
  strobes : Nat
  chainErr : Bool
  ceil : Nat
  tsBad : Bool
  deriving DecidableEq, Repr

/-- R346: the tag states, with their codes in this order. -/
inductive TagSt where
  | absent | checking | ready | expired | rejected
  deriving DecidableEq, Repr

/-- A counter record to write back (R344, R348): A, B, the increment of LAYERS, and whether it has expired. -/
structure TagWb where
  a : Nat
  b : Word
  layers : Nat
  expired : Bool
  deriving DecidableEq, Repr

/-- The transaction on a tag's bus (R341, R342). -/
inductive TagJob where
  | none
  /-- READ_ID of a poll -/
  | poll
  /-- authentication: bytes read so far, then SIGN -/
  | auth (mem : List Byte)
  /-- SIGN has been sent with a challenge -/
  | sign (mem challenge : List Byte)
  /-- authentication has all it needs: memory, challenge and response, or nothing where the bus failed -/
  | judge (r : Option (List Byte × List Byte × List Byte))
  /-- a write-back, with what it stores -/
  | write (w : TagWb)
  /-- the host transfer: bytes moved so far -/
  | xfer (done : Nat)
  deriving DecidableEq, Repr

/-- One tag (R341–R350). -/
structure TagU where
  st : TagSt
  cause : Nat
  /-- The ID of the last good poll, consecutive failed polls. -/
  seen : Option Nat
  fails : Nat
  job : TagJob
  pollDue : Bool
  authDue : Bool
  xferDue : Bool
  /-- The ID last authenticated, its working count, and the count at its last record. -/
  id : Option Nat
  a : D64
  b : Word
  /-- The tag's current record: SEQ, copy, LAYERS, A and B; the limits; FLAGS.EXPIRED. -/
  seq : Nat
  copy : Nat
  layers : Nat
  recA : Nat
  limA : Word
  limB : Word
  flag : Bool
  /-- A record to write back, and whether it is held until its ID is authenticated again (WB_PENDING). -/
  wb : Option TagWb
  held : Bool
  /-- No ID has been authenticated since power-up (R349). -/
  fresh : Bool
  deriving DecidableEq, Repr

/-- The tag block: tags and the host transfer (R353). -/
structure TagsSt where
  tag : Vector TagU 26
  busy : Bool
  done : Bool
  fail : Bool
  deriving DecidableEq, Repr

/-- PORT_STATUS.STATE, with its codes in this order (R386). -/
inductive PortSt where
  | off | train | align | link | up | fault
  deriving DecidableEq, Repr

/-- One lane's receiver (R388, R394). -/
structure LaneU where
  fom : Nat
  ctle : Nat
  inverted : Bool
  logical : Nat
  lock : Bool
  dfe : List Word
  deriving DecidableEq, Repr

/-- One lane port (R386–R392). -/
structure PortU where
  st : PortSt
  idle : Bool
  cause : Nat
  partner : Nat
  partnerTm : Bool
  partnerCompat : Bool
  /-- A valid identity has been received (R386). -/
  known : Bool
  polFix : Bool
  reversed : Bool
  /-- Round-trip probes returned and the sum of their times in units of 100 ps. -/
  probes : Nat
  rttSum : Nat
  rtt : Nat
  /-- The CTLE seed of the next training. -/
  seed : Nat
  /-- Routed packets sent in this stoke and the last that may be replayed: class and bytes, oldest first (R381). -/
  held : List (Nat × List Byte)
  heldOld : List (Nat × List Byte)
  lanes : Vector LaneU 4
  deriving DecidableEq, Repr

/-- A routed message that waits (R385, R407): lane class, destination (the own number: a received message that waits for
room in its ring), bytes, stokes waited. -/
structure LaneMsg where
  cls : Nat
  dst : Nat
  src : Nat
  bytes : List Byte
  age : Nat
  /-- Still in its send ring, whose read index advances when it is sent or dropped. -/
  unsent : Bool
  deriving DecidableEq, Repr

/-- The Suder lanes (R377–R394). -/
structure LanesSt where
  port : Vector PortU 2
  /-- The port that leads to each device, as computed at the last boundary (R384). -/
  route : Vector (Option (Fin 2)) 4
  /-- The members heard in the last stoke, bit d. -/
  heard : Nat
  msgs : List LaneMsg
  /-- Forwarded archive records that wait for buffers of their ring: member and bytes (R374). -/
  stage : List (Nat × List Byte)
  /-- Second-advances of the time counter whose heads have not been sent, and the second last seen (R407). -/
  headDue : Nat
  headSec : Nat
  deriving DecidableEq, Repr

end Sys2Proof.Machine
end

