-- ==== Sys2Proof/Syntax.lean ====
section
/-! DEFINITION. The commands of the EB7240: one constructor per row of the opcode table, with the row's operands. An operand `t` is the instant of the event, in core cycles of the present stoke, or of reset before RUN (log entry 3). -/

namespace Sys2Proof

/-- The commands. -/
inductive Instr where
  /-- STOKE_BOUNDARY (R29). The stoke tick ends stoke k: all staged outputs commit together on one edge and stoke k+1 begins. -/
  | stokeBoundary (inp : BoundaryIn)
  /-- FAULT_ENTRY_OVERRUN (R93). The FAULT entry is still running at cycle 200; nothing it staged commits and F_OVR is set. -/
  | faultEntryOverrun (c : Ch) (t : Nat)
  /-- BUDGET_OVERRUN (R33). The program budget ends with the program still running; the stoke's writes are discarded and the gate is forced off in the pin stoke. -/
  | budgetOverrun (c : Ch) (t : Nat)
  /-- DOUBLE_OVERRUN (R34). A second consecutive overrun puts the channel into fault with cause 0x02. -/
  | doubleOverrun (c : Ch) (t : Nat)
  /-- STOKE_RUN (R32). A write of STOKE_CTRL.RUN starts the stoke at the next cycle whose count is a multiple of 4. -/
  | stokeRun (org : Origin) (t : Nat)
  /-- STOKE_CFG_WRITE (R26). A write of STOKE_CFG selects the rate, refused while running or when an encoder frame would not fit the new rate (R313). -/
  | stokeCfgWrite (org : Origin) (val : Word) (t : Nat)
  /-- PPS_ARM (R39). PPS_CTRL.ARM latches TAI_NEXT_SEC and waits for the first pulse. -/
  | ppsArm (org : Origin) (auto : Bool) (t : Nat)
  /-- PPS_PULSE (R41). A rising edge on PPS_IN is time-stamped and either accepted or rejected against the nearest whole second. -/
  | ppsPulse (t : Nat)
  /-- PPS_HOLDOVER (R43). 1.5 s without an accepted pulse puts time into holdover with the last frequency estimate. -/
  | ppsHoldover (t : Nat)
  /-- STOKE_STAMP (R46). A stoke stamp from the timing master arrives on a lane port and steers the member's phase. -/
  | stokeStamp (p : Fin 2) (cnt : Nat) (sec : Nat) (ns : Nat) (rate : Nat) (arr : Nat) (t : Nat)
  /-- GANG_ALIGN_STEP (R47). A member in ALIGN steps its stoke phase and count to the master's once no laser is armed and no channel is in layer. -/
  | gangAlignStep (t : Nat)
  /-- GANG_LOCK (R47). 64 consecutive stokes with the phase error within 10 ns move the member to LOCKED. -/
  | gangLock (t : Nat)
  /-- GANG_HOLDOVER (R47). No stamp for 64 stokes moves a member to HOLDOVER. -/
  | gangHoldover (t : Nat)
  /-- ADD (R65). Integer add modulo 2^32; also the NOP word. -/
  | add (c : Ch) (d : Reg) (a : Reg) (b : Reg)
  /-- SUB (R65). Integer subtract modulo 2^32. -/
  | sub (c : Ch) (d : Reg) (a : Reg) (b : Reg)
  /-- AND (R65). Bitwise AND. -/
  | and (c : Ch) (d : Reg) (a : Reg) (b : Reg)
  /-- OR (R65). Bitwise OR. -/
  | or (c : Ch) (d : Reg) (a : Reg) (b : Reg)
  /-- XOR (R65). Bitwise XOR. -/
  | xor (c : Ch) (d : Reg) (a : Reg) (b : Reg)
  /-- ANDN (R65). Bitwise AND with the complement of b. -/
  | andn (c : Ch) (d : Reg) (a : Reg) (b : Reg)
  /-- SHL (R65). Shift left by b[4:0]. -/
  | shl (c : Ch) (d : Reg) (a : Reg) (b : Reg)
  /-- SHR (R65). Logical shift right by b[4:0]. -/
  | shr (c : Ch) (d : Reg) (a : Reg) (b : Reg)
  /-- SAR (R65). Arithmetic shift right by b[4:0]. -/
  | sar (c : Ch) (d : Reg) (a : Reg) (b : Reg)
  /-- ROR (R65). Rotate right by b[4:0]. -/
  | ror (c : Ch) (d : Reg) (a : Reg) (b : Reg)
  /-- MIN (R65). Signed minimum. -/
  | min (c : Ch) (d : Reg) (a : Reg) (b : Reg)
  /-- MAX (R65). Signed maximum. -/
  | max (c : Ch) (d : Reg) (a : Reg) (b : Reg)
  /-- MINU (R65). Unsigned minimum. -/
  | minu (c : Ch) (d : Reg) (a : Reg) (b : Reg)
  /-- MAXU (R65). Unsigned maximum. -/
  | maxu (c : Ch) (d : Reg) (a : Reg) (b : Reg)
  /-- SLT (R65). Set 1 if a is less than b, signed. -/
  | slt (c : Ch) (d : Reg) (a : Reg) (b : Reg)
  /-- SLTU (R65). Set 1 if a is less than b, unsigned. -/
  | sltu (c : Ch) (d : Reg) (a : Reg) (b : Reg)
  /-- ADDS (R65). Signed add, saturated. -/
  | adds (c : Ch) (d : Reg) (a : Reg) (b : Reg)
  /-- SUBS (R65). Signed subtract, saturated. -/
  | subs (c : Ch) (d : Reg) (a : Reg) (b : Reg)
  /-- ABS (R65). Absolute value, with 0x8000_0000 giving 0x7FFF_FFFF. -/
  | abs (c : Ch) (d : Reg) (a : Reg)
  /-- CLZ (R65). Count of leading zero bits. -/
  | clz (c : Ch) (d : Reg) (a : Reg)
  /-- SEL (R65). Select a or b according to a condition. -/
  | sel (c : Ch) (d : Reg) (a : Reg) (b : Reg) (cond : BitVec 5)
  /-- CMP (R65). Set Z, N, C and V from a - b. -/
  | cmp (c : Ch) (a : Reg) (b : Reg)
  /-- TST (R65). Set Z and N from a & b. -/
  | tst (c : Ch) (a : Reg) (b : Reg)
  /-- MUL (R65). Low 32 bits of the product. -/
  | mul (c : Ch) (d : Reg) (a : Reg) (b : Reg)
  /-- MULH (R65). High 32 bits of the signed product. -/
  | mulh (c : Ch) (d : Reg) (a : Reg) (b : Reg)
  /-- MULHU (R65). High 32 bits of the unsigned product. -/
  | mulhu (c : Ch) (d : Reg) (a : Reg) (b : Reg)
  /-- QMUL (R65). Rounded, saturated Q-format multiply. -/
  | qmul (c : Ch) (d : Reg) (a : Reg) (b : Reg) (sh : Fin 32)
  /-- MAC (R65). Multiply-accumulate modulo 2^32. -/
  | mac (c : Ch) (d : Reg) (a : Reg) (b : Reg)
  /-- QMAC (R65). Saturated Q-format multiply-accumulate. -/
  | qmac (c : Ch) (d : Reg) (a : Reg) (b : Reg) (sh : Fin 32)
  /-- DIV (R66). Signed division with defined corner cases and no trap. -/
  | div (c : Ch) (d : Reg) (a : Reg) (b : Reg)
  /-- DIVU (R66). Unsigned division. -/
  | divu (c : Ch) (d : Reg) (a : Reg) (b : Reg)
  /-- REM (R66). Signed remainder. -/
  | rem (c : Ch) (d : Reg) (a : Reg) (b : Reg)
  /-- REMU (R66). Unsigned remainder. -/
  | remu (c : Ch) (d : Reg) (a : Reg) (b : Reg)
  /-- QDIV (R66). Q-format division, saturated. -/
  | qdiv (c : Ch) (d : Reg) (a : Reg) (b : Reg) (sh : Fin 32)
  /-- ADDI (R67). Add a sign-extended immediate. -/
  | addi (c : Ch) (d : Reg) (a : Reg) (imm : BitVec 16)
  /-- ANDI (R67). AND with a zero-extended immediate. -/
  | andi (c : Ch) (d : Reg) (a : Reg) (imm : BitVec 16)
  /-- ORI (R67). OR with a zero-extended immediate. -/
  | ori (c : Ch) (d : Reg) (a : Reg) (imm : BitVec 16)
  /-- XORI (R67). XOR with a zero-extended immediate. -/
  | xori (c : Ch) (d : Reg) (a : Reg) (imm : BitVec 16)
  /-- LUI (R67). Load the immediate into the upper half. -/
  | lui (c : Ch) (d : Reg) (imm : BitVec 16)
  /-- SHI (R67). Shift or rotate by an immediate count. -/
  | shi (c : Ch) (d : Reg) (a : Reg) (k : Fin 4) (n : Fin 32)
  /-- CMPI (R67). Set flags from a minus a sign-extended immediate. -/
  | cmpi (c : Ch) (a : Reg) (imm : BitVec 16)
  /-- EXTU (R68). BF operation that extracts an unsigned bit field. -/
  | extu (c : Ch) (d : Reg) (a : Reg) (pos : Fin 32) (len1 : Fin 32)
  /-- EXTS (R68). BF operation that extracts a sign-extended bit field. -/
  | exts (c : Ch) (d : Reg) (a : Reg) (pos : Fin 32) (len1 : Fin 32)
  /-- INS (R68). BF operation that inserts a bit field into d. -/
  | ins (c : Ch) (d : Reg) (a : Reg) (pos : Fin 32) (len1 : Fin 32)
  /-- FADD (R69). Binary32 add. -/
  | fadd (c : Ch) (d : Reg) (a : Reg) (b : Reg)
  /-- FSUB (R69). Binary32 subtract. -/
  | fsub (c : Ch) (d : Reg) (a : Reg) (b : Reg)
  /-- FMUL (R69). Binary32 multiply. -/
  | fmul (c : Ch) (d : Reg) (a : Reg) (b : Reg)
  /-- FMAC (R69). Fused binary32 multiply-add. -/
  | fmac (c : Ch) (d : Reg) (a : Reg) (b : Reg)
  /-- FMIN (R69). Binary32 minimum. -/
  | fmin (c : Ch) (d : Reg) (a : Reg) (b : Reg)
  /-- FMAX (R69). Binary32 maximum. -/
  | fmax (c : Ch) (d : Reg) (a : Reg) (b : Reg)
  /-- FABS (R69). Clear the sign bit. -/
  | fabs (c : Ch) (d : Reg) (a : Reg)
  /-- FNEG (R69). Invert the sign bit. -/
  | fneg (c : Ch) (d : Reg) (a : Reg)
  /-- FCMP (R69). Binary32 compare that sets the flags. -/
  | fcmp (c : Ch) (a : Reg) (b : Reg)
  /-- FDIV (R69). Binary32 divide. -/
  | fdiv (c : Ch) (d : Reg) (a : Reg) (b : Reg)
  /-- FSQRT (R69). Binary32 square root. -/
  | fsqrt (c : Ch) (d : Reg) (a : Reg)
  /-- FCVTWS (R69). Binary32 to int32, saturated. -/
  | fcvtws (c : Ch) (d : Reg) (a : Reg)
  /-- FCVTSW (R69). Int32 to binary32. -/
  | fcvtsw (c : Ch) (d : Reg) (a : Reg)
  /-- FCVTQS (R69). Binary32 to Q format. -/
  | fcvtqs (c : Ch) (d : Reg) (a : Reg) (sh : Fin 32)
  /-- FCVTSQ (R69). Q format to binary32. -/
  | fcvtsq (c : Ch) (d : Reg) (a : Reg) (sh : Fin 32)
  /-- B (R70). Conditional relative branch. -/
  | b (c : Ch) (cond : BitVec 5) (off : BitVec 16)
  /-- J (R70). Absolute jump. -/
  | j (c : Ch) (target : BitVec 13)
  /-- CALL (R70). Push the return address and jump. -/
  | call (c : Ch) (target : BitVec 13)
  /-- RET (R70). Pop the return address. -/
  | ret (c : Ch)
  /-- JT (R71). Bounded table jump with a clamped index. -/
  | jt (c : Ch) (a : Reg) (n : BitVec 10)
  /-- LOOP (R72). Set up a hardware loop with a bounded count. -/
  | loop (c : Ch) (n : BitVec 10) (b : Reg) (max : BitVec 11)
  /-- END (R75). End the entry; after LAYER, the STOKE entry starts. -/
  | endEntry (c : Ch) (diff : Bool)
  /-- LDW (R76). Load a DMEM word. -/
  | ldw (c : Ch) (d : Reg) (a : Reg) (imm : BitVec 16)
  /-- LDH (R76). Load a sign-extended halfword. -/
  | ldh (c : Ch) (d : Reg) (a : Reg) (imm : BitVec 16)
  /-- LDHU (R76). Load a zero-extended halfword. -/
  | ldhu (c : Ch) (d : Reg) (a : Reg) (imm : BitVec 16)
  /-- LDB (R76). Load a sign-extended byte. -/
  | ldb (c : Ch) (d : Reg) (a : Reg) (imm : BitVec 16)
  /-- LDBU (R76). Load a zero-extended byte. -/
  | ldbu (c : Ch) (d : Reg) (a : Reg) (imm : BitVec 16)
  /-- STW (R76). Store a word to DMEM. -/
  | stw (c : Ch) (d : Reg) (a : Reg) (imm : BitVec 16) (diff : Bool)
  /-- STH (R76). Store a halfword. -/
  | sth (c : Ch) (d : Reg) (a : Reg) (imm : BitVec 16) (diff : Bool)
  /-- STB (R76). Store a byte. -/
  | stb (c : Ch) (d : Reg) (a : Reg) (imm : BitVec 16) (diff : Bool)
  /-- PRD (R77). Read a port, from the snapshot or live. -/
  | prd (c : Ch) (d : Reg) (a : Reg) (imm : BitVec 16)
  /-- PWR (R78). Stage a port write for the boundary. -/
  | pwr (c : Ch) (d : Reg) (a : Reg) (imm : BitVec 16) (diff : Bool)
  /-- POP (R80). Take the next record from the prefetch buffer. -/
  | pop (c : Ch) (d : Reg) (diff : Bool)
  /-- LUT (R81). Read a LUT table entry, optionally interpolated. -/
  | lut (c : Ch) (d : Reg) (a : Reg) (t : Fin 8) (m : Bool)
  /-- EMQ (R82). Query the ember map for the decayed neighbourhood sum. -/
  | emq (c : Ch) (d : Reg) (a : Reg) (b : Reg) (diff : Bool)
  /-- GDQ (R83). Ask the draught guard for the wait before a planned segment. -/
  | gdq (c : Ch) (d : Reg) (a : Reg) (diff : Bool)
  /-- MFS (R85). Read a special register. -/
  | mfs (c : Ch) (d : Reg) (sel : Fin 32)
  /-- MTS (R85). Write FSTAT. -/
  | mts (c : Ch) (a : Reg) (sel : Fin 32)
  /-- ENG_TRAP_CLR (R88). Clears ENG_TRAP and ENG_TRAP_STOKE. -/
  | engTrapClr (org : Origin) (c : Ch) (t : Nat)
  /-- LAYER_CTRL_REQ (R90). A host request for a layer start. -/
  | layerCtrlReq (org : Origin) (c : Ch) (t : Nat)
  /-- FAULT_CLEAR (R95). FAULT_CTRL.CLEAR takes the channel out of fault at the next boundary. -/
  | faultClear (org : Origin) (c : Ch) (t : Nat)
  /-- FAULT_RESUME (R95). Written with CLEAR, returns the channel to layer if the laser is armed. -/
  | faultResume (org : Origin) (c : Ch) (t : Nat)
  /-- PROG_LOAD (R472). PROG_CTRL.LOAD queues a fetch and verification of an image. -/
  | progLoad (org : Origin) (c : Ch) (t : Nat)
  /-- LOAD_DONE (R472). The loader finishes fetching and checking an image and writes it, or refuses it with the first failing code. -/
  | loadDone (data : Option (List Byte)) (t : Nat)
  /-- PROG_SWITCH (R106). PROG_CTRL.SWITCH requests a bank switch, checked against the layout condition. -/
  | progSwitch (org : Origin) (c : Ch) (t : Nat)
  /-- PROG_RUN (R107). Starts the program at the next boundary and restarts the vector path. -/
  | progRun (org : Origin) (c : Ch) (aux : Nat) (t : Nat)
  /-- PROG_HALT (R107). Stops the program at the next boundary with the gate off and the servo holding. -/
  | progHalt (org : Origin) (c : Ch) (t : Nat)
  /-- LUT_SWAP (R106). Exchanges the table set with the spare at the next boundary. -/
  | lutSwap (org : Origin) (c : Ch) (t : Nat)
  /-- RECORD_PREFETCH (R110). The prefetcher receives records from the host ring, through the decompressor, and places them in the buffer. -/
  | recordPrefetch (c : Ch) (data : Option (List Byte)) (t : Nat)
  /-- VEC_RESTART (R115). VEC_CTRL.RESTART restarts the vector path at the next boundary. -/
  | vecRestart (org : Origin) (c : Ch) (aux : Nat) (t : Nat)
  /-- BARRIER_RELEASE (R131). All participants have arrived and the barrier releases. -/
  | barrierRelease (c : Ch) (t : Nat)
  /-- BARRIER_TIMEOUT (R132). The barrier is abandoned after TIMEOUT stokes. -/
  | barrierTimeout (c : Ch) (t : Nat)
  /-- SERVO_FAULT (R151). An FERR, SAT or CLAMP count reaches its limit and freezes the axis. -/
  | servoFault (c : Ch) (a : Ax) (t : Nat)
  /-- SV_CTRL_WRITE (R146). Enables or disables axes, moving them between OFF and HOLD. -/
  | svCtrlWrite (org : Origin) (c : Ch) (val : Word) (t : Nat)
  /-- SV_CLEAR (R152). Moves FROZEN axes to HOLD and clears SV_FAULT. -/
  | svClear (org : Origin) (c : Ch) (t : Nat)
  /-- PARAM_APPLY (R155). The axis shadow parameter set becomes active at the boundary. -/
  | paramApply (org : Origin) (c : Ch) (a : Ax) (t : Nat)
  /-- TRIM_TGT_WRITE (R149). A trim target write starts a linear ramp of the applied trims. -/
  | trimTgtWrite (org : Origin) (c : Ch) (k : Fin 4) (val : Word) (t : Nat)
  /-- PD_TGT_WRITE (R149). A detector target write starts a ramp of that axis's applied values. -/
  | pdTgtWrite (org : Origin) (c : Ch) (a : Ax) (gain : Bool) (val : Word) (t : Nat)
  /-- TRIM_RAMP_END (R149). A ramp reaches its N-th stoke and the applied value equals the target. -/
  | trimRampEnd (c : Ch) (t : Nat)
  /-- GRID_LOAD_XY (R153). Starts loading the X and Y grids into the spares. -/
  | gridLoadXy (org : Origin) (c : Ch) (t : Nat)
  /-- GRID_LOAD_F (R153). Starts loading the F grid into a spare. -/
  | gridLoadF (org : Origin) (c : Ch) (t : Nat)
  /-- GRID_LOAD_DONE (R154). The grid block is read and its CRC checked; it becomes pending or is refused. -/
  | gridLoadDone (c : Ch) (block : Option (List Byte)) (t : Nat)
  /-- GRID_SWAP (R153). Pending grids are exchanged with the active ones at the first boundary out of layer. -/
  | gridSwap (c : Ch) (t : Nat)
  /-- GRID_ABORT (R154). Discards a pending grid swap. -/
  | gridAbort (org : Origin) (c : Ch) (t : Nat)
  /-- LAS_ARM (R165). An ARM write moves the port to ARMING if every condition holds. -/
  | lasArm (org : Origin) (c : Ch) (t : Nat)
  /-- LAS_DISARM (R166). Trips the port with cause HOST or SAFE. -/
  | lasDisarm (org : Origin) (c : Ch) (t : Nat)
  /-- READY_ACTIVE (R164). READY becomes active in ARMING and the port goes to ARMED. -/
  | readyActive (c : Ch) (clocks : Nat) (t : Nat)
  /-- READY_TIMEOUT (R164). READY_TO stokes pass in ARMING and the port trips READY_TO. -/
  | readyTimeout (c : Ch) (t : Nat)
  /-- ALARM (R167). A filtered ALARM drives gate and enable low and faults the channel. -/
  | alarm (c : Ch) (active : Bool) (clocks : Nat) (t : Nat)
  /-- READY_LOST (R167). Loss of READY in ARMED trips the port at once. -/
  | readyLost (c : Ch) (clocks : Nat) (t : Nat)
  /-- GATE_EDGE (R161). A scheduled gate edge plays at its offset within the pin stoke. -/
  | gateEdge (c : Ch) (t : Nat)
  /-- MON_DEVIATION (R168). STOKES consecutive monitor deviations set MON_DEV and optionally fault the channel. -/
  | monDeviation (c : Ch) (t : Nat)
  /-- LSAFE_ASSERT (R170). A safety input goes low and the kill wire acts without a clock. -/
  | lsafeAssert (b : Bool) (t : Nat)
  /-- LSAFE_RELEASE (R171). Both safety inputs released; the kill wire releases. -/
  | lsafeRelease (b : Bool) (t : Nat)
  /-- LSAFE_DISC (R171). The inputs differ for DISC_TIME stokes and DISC is set. -/
  | lsafeDisc (t : Nat)
  /-- LSAFE_CLR (R171). Clears DISC if both inputs have been asserted together. -/
  | lsafeClr (org : Origin) (t : Nat)
  /-- LOOP_MODE (R184). A write of LOOP_MODE is a mode request evaluated at its commit boundary. -/
  | loopMode (org : Origin) (c : Ch) (mode : Fin 4) (force : Bool) (t : Nat)
  /-- LOSS_REVERT (R189). LOSS_STOKES invalid stokes revert the loop to OPEN. -/
  | lossRevert (c : Ch) (t : Nat)
  /-- FREEZE_REVERT (R190). FREEZE_STOKES stokes of low variance revert the loop to OPEN. -/
  | freezeRevert (c : Ch) (t : Nat)
  /-- CAM_AGE_DROP (R188). The camera age exceeds CAM_AGE_MAX and SHAPE drops to TRACK. -/
  | camAgeDrop (c : Ch) (t : Nat)
  /-- SHAPE_RETURN (R188). With SHAPE_AUTO, the unit returns to SHAPE once the age is 0. -/
  | shapeReturn (c : Ch) (t : Nat)
  /-- BLEND_END (R186). The hand-over blend reaches m = N and BLEND clears. -/
  | blendEnd (c : Ch) (t : Nat)
  /-- COEF_WRITE (R192). A coefficient write joins the 128-entry queue, or is refused if the queue is full. -/
  | coefWrite (org : Origin) (c : Ch) (off : Nat) (val : Word) (t : Nat)
  /-- LOOP_TRIM_WRITE (R191). Clears or sets TRIM, stepping the OPEN output. -/
  | loopTrimWrite (org : Origin) (c : Ch) (val : Word) (t : Nat)
  /-- TRACE_ARM (R195). Arms a channel trace capture into its allocation. -/
  | traceArm (org : Origin) (c : Ch) (t : Nat)
  /-- TRACE_TRIG (R196). A trigger moves a capture from FILLING or READY to POST. -/
  | traceTrig (org : Origin) (c : Ch) (t : Nat)
  /-- TRACE_ABORT (R196). Returns the capture to IDLE. -/
  | traceAbort (org : Origin) (c : Ch) (t : Nat)
  /-- TRACE_DONE (R196). D - PRE records after the trigger complete the capture. -/
  | traceDone (c : Ch) (t : Nat)
  /-- LATE_DEPOSIT (R208). A late gang frame's deposits are applied at the first boundary after arrival. -/
  | lateDeposit (t : Nat)
  /-- EM_FRAME_LOST (R208). A frame missing 64 stokes after its apply boundary is counted lost. -/
  | emFrameLost (d : Fin 4) (t : Nat)
  /-- EM_CFG_WRITE (R209). Enables or disables the map; setting EN clears it first. -/
  | emCfgWrite (org : Origin) (val : Word) (t : Nat)
  /-- EM_CLEAR (R209). Starts clearing every cell. -/
  | emClear (org : Origin) (t : Nat)
  /-- EM_CLEAR_DONE (R209). The map clear completes and CLEARING ends. -/
  | emClearDone (t : Nat)
  /-- SCRUB (R21). The scrubber reads, corrects and rewrites a word in free cycles. -/
  | scrub (a : Nat) (corr : Bool) (ue : Bool) (t : Nat)
  /-- TRAIL_REMOVE (R213). A trail is removed after b1 + T_plume. -/
  | trailRemove (t : Nat)
  /-- PLAN_EXPIRE (R219). A plan expires after START + N - 1 + T_plume. -/
  | planExpire (t : Nat)
  /-- CAM_START (R244). Starts a pipeline if its settings are valid. -/
  | camStart (org : Origin) (m : Cam) (t : Nat)
  /-- CAM_STOP (R244). Moves the pipeline to STOPPING. -/
  | camStop (org : Origin) (m : Cam) (t : Nat)
  /-- CAM_ABORT (R244). Discards frames in progress and stops the pipeline. -/
  | camAbort (org : Origin) (m : Cam) (t : Nat)
  /-- CAM_STOPPED (R244). STOPPING ends once the pending list is empty and no set is open. -/
  | camStopped (m : Cam) (t : Nat)
  /-- CAM_BIND_WRITE (R246). Rebinds a pipeline to a channel at the next boundary. -/
  | camBindWrite (org : Origin) (m : Cam) (val : Word) (t : Nat)
  /-- CAM_TRIG_REQ (R229). A host trigger request. -/
  | camTrigReq (org : Origin) (m : Cam) (t : Nat)
  /-- TRIGGER_REQUEST (R230). A periodic, event or program trigger request starts an exposure set or is lost. -/
  | triggerRequest (m : Cam) (t : Nat)
  /-- EXPOSURE_END (R230). A TRIG pulse ends after its exposure width. -/
  | exposureEnd (m : Cam) (t : Nat)
  /-- SET_MEMBER_RISE (R230). The next set member rises SET_GAP cycles after the previous one falls. -/
  | setMemberRise (m : Cam) (t : Nat)
  /-- FRAME_START (R232). FV, or LV in line-scan mode, rises and the frame is matched to a pending pulse. -/
  | frameStart (m : Cam) (t : Nat)
  /-- FRAME_END (R233). FV falls and the frame completes, possibly closing its set. -/
  | frameEnd (m : Cam) (lines : List (List Nat)) (t : Nat)
  /-- FRAME_TIMEOUT (R228). FV is still active after CAM_FRAME_TMO stokes and the frame ends. -/
  | frameTimeout (m : Cam) (lines : List (List Nat)) (t : Nat)
  /-- PULSE_MISSED (R232). MATCH_WIN passes after a pulse's rise without a frame. -/
  | pulseMissed (m : Cam) (t : Nat)
  /-- STAT_RECORD_COMPLETE (R239). A set's statistics record completes and is delivered to the channel. -/
  | statRecordComplete (m : Cam) (t : Nat)
  /-- ARCHIVE_WRITE (R366). An archive record is written into posted buffers once they are available. -/
  | archiveWrite (r : Ring) (descs : List (Nat × Nat)) (t : Nat)
  /-- CAM_TRC_ARM (R242). Arms a camera trace capture. -/
  | camTrcArm (org : Origin) (m : Cam) (t : Nat)
  /-- CAM_TRC_TRIG (R242). Triggers a camera trace capture. -/
  | camTrcTrig (org : Origin) (m : Cam) (t : Nat)
  /-- CAM_TRC_ABORT (R242). Aborts a camera trace capture. -/
  | camTrcAbort (org : Origin) (m : Cam) (t : Nat)
  /-- EST_CFG_WRITE (R251). Enables or disables an estimator. -/
  | estCfgWrite (org : Origin) (n : Fin 6) (k : Fin 24) (val : Word) (t : Nat)
  /-- EST_START (R251). Starts an estimator round from IDLE. -/
  | estStart (org : Origin) (n : Fin 6) (k : Fin 24) (t : Nat)
  /-- EST_ABORT (R255). Discards the round and returns the estimator to IDLE. -/
  | estAbort (org : Origin) (n : Fin 6) (k : Fin 24) (t : Nat)
  /-- EST_INTERVAL_EXPIRE (R251). EST_INTERVAL stokes in IDLE start a new round. -/
  | estIntervalExpire (n : Fin 6) (k : Fin 24) (t : Nat)
  /-- EST_COUNT_MET (R251). The count condition is met and the estimator evaluates. -/
  | estCountMet (n : Fin 6) (k : Fin 24) (t : Nat)
  /-- EST_DECISION (R253). The result is accepted or rejected at the end of EVALUATE. -/
  | estDecision (n : Fin 6) (k : Fin 24) (t : Nat)
  /-- EST_RAMP_END (R251). The applied values reach the targets and the estimator returns to IDLE. -/
  | estRampEnd (n : Fin 6) (k : Fin 24) (t : Nat)
  /-- XING_EVALUATE (R262). Once the window's samples have arrived, the crossing offset is computed. -/
  | xingEvaluate (c : Ch) (t : Nat)
  /-- FAILOVER (R274). The reserve takes over a mismatched channel, one or two stokes later. -/
  | failover (k : Cl) (t : Nat)
  /-- BIST_DONE (R276). The failed pair's self-test ends, passing to shadowing or failing an attempt. -/
  | bistDone (c : Ch) (pass : Bool) (t : Nat)
  /-- SHADOW_DONE (R276). 20,000 clean shadow stokes complete and the pair waits to revert. -/
  | shadowDone (c : Ch) (t : Nat)
  /-- PAIR_REVERT (R277). The pair takes its channel back at a gate-off boundary. -/
  | pairRevert (c : Ch) (t : Nat)
  /-- CL_SWAP_TAKE (R283). Starts a planned swap of a channel onto the reserve. -/
  | clSwapTake (org : Origin) (k : Cl) (t : Nat)
  /-- SWAP_PREP_DONE (R283). The constant-area copy ends and the reserve takes the channel. -/
  | swapPrepDone (k : Cl) (t : Nat)
  /-- CL_SWAP_RETURN (R284). Requests the return of a swapped or waiting channel. -/
  | clSwapReturn (org : Origin) (k : Cl) (t : Nat)
  /-- CHANNEL_RETURN (R284). The pair takes the channel back, with any pending image, at the first boundary that meets every condition. -/
  | channelReturn (c : Ch) (t : Nat)
  /-- CL_SWAP_ABORT (R284). Ends a swap in preparation or discards the pending image. -/
  | clSwapAbort (org : Origin) (k : Cl) (t : Nat)
  /-- MA_ENABLE (R300). DISABLED to IDLE. -/
  | maEnable (org : Origin) (n : Ma) (t : Nat)
  /-- MA_DISABLE (R300). Hard stop, then DISABLED. -/
  | maDisable (org : Origin) (n : Ma) (t : Nat)
  /-- MA_STOP (R301). Ramp stop at DECEL. -/
  | maStop (org : Origin) (n : Ma) (t : Nat)
  /-- MA_HARD_STOP (R301). Velocity to 0 at the next motion clock. -/
  | maHardStop (org : Origin) (n : Ma) (t : Nat)
  /-- MA_GO (R297). Move to TARGET. -/
  | maGo (org : Origin) (n : Ma) (t : Nat)
  /-- MA_JOG (R297). Velocity move at JOG_V. -/
  | maJog (org : Origin) (n : Ma) (t : Nat)
  /-- MA_HOME (R305). Start the homing sequence. -/
  | maHome (org : Origin) (n : Ma) (t : Nat)
  /-- MA_CLEAR (R307). Leave FAULT if the cause is gone. -/
  | maClear (org : Origin) (n : Ma) (t : Nat)
  /-- POS_SET (R312). Sets the accumulator position at the next boundary. -/
  | posSet (org : Origin) (n : Ma) (val : Word) (t : Nat)
  /-- DECEL_WRITE (R302). A DECEL change during deceleration recomputes the stopping point. -/
  | decelWrite (org : Origin) (n : Ma) (val : Word) (t : Nat)
  /-- TARGET_REACHED (R296). The landing stoke ends exactly on TARGET and the axis goes IDLE. -/
  | targetReached (n : Ma) (t : Nat)
  /-- STANDSTILL (R301). A ramp stop reaches standstill. -/
  | standstill (n : Ma) (t : Nat)
  /-- OVERCURRENT (R294). A current sample over I_OC brakes the axis at once. -/
  | overcurrent (n : Ma) (sample : Int) (t : Nat)
  /-- STALL (R308). STALL_STOKES counting stokes make a stall fault. -/
  | stall (n : Ma) (t : Nat)
  /-- DEV_FAULT (R309). Three consecutive deviating stokes fault the axis. -/
  | devFault (n : Ma) (t : Nat)
  /-- LIMIT_INPUT (R303). A filtered limit or home assertion latches and acts by its ACT field or the homing phase. -/
  | limitInput (n : Ma) (k : Fin 3) (edges : Nat) (us : Nat) (t : Nat)
  /-- HOMING_RANGE_FAIL (R305). SEARCH travels HOME_RANGE without an edge and homing fails. -/
  | homingRangeFail (n : Ma) (t : Nat)
  /-- LIM_CLR (R303). Clears a limit or home latch if the input has been inactive. -/
  | limClr (org : Origin) (n : Ma) (val : Word) (t : Nat)
  /-- MCMD_RECORD (R363). A motion command record is executed in its stoke. -/
  | mcmdRecord (n : Ma) (bytes : List Byte) (t : Nat)
  /-- ENC_FRAME (R316). The absolute encoder frame of the stoke completes and is validated. -/
  | encFrame (n : Ma) (ready : Bool) (bits : Nat) (t : Nat)
  /-- ENC_FAULT (R316). ENC_ERR_STOKES invalid stokes fault the axis with cause ENC. -/
  | encFault (n : Ma) (t : Nat)
  /-- QUADRATURE_EDGE (R317). A filtered A/B edge changes INC_CNT or counts as illegal. -/
  | quadratureEdge (n : Ma) (a : Bool) (b : Bool) (t : Nat)
  /-- INDEX_EVENT (R319). A Z edge is latched and may correct INC_CNT. -/
  | indexEvent (n : Ma) (t : Nat)
  /-- IDX_ARM (R319). Arms the index unit in ONCE mode. -/
  | idxArm (org : Origin) (n : Ma) (t : Nat)
  /-- PROBE_TRIGGER (R320). A probe unit latches every axis position in one motion clock. -/
  | probeTrigger (u : Fin 4) (level : Bool) (t : Nat)
  /-- PRB_REARM (R321). Clears FULL of a probe unit. -/
  | prbRearm (org : Origin) (u : Fin 4) (t : Nat)
  /-- CMP_ARM (R323). Arms the compare unit at the next boundary. -/
  | cmpArm (org : Origin) (n : Ma) (t : Nat)
  /-- CMP_DISARM (R327). Disarms the compare unit at the next boundary. -/
  | cmpDisarm (org : Origin) (n : Ma) (t : Nat)
  /-- CMP_HIT (R325). A crossing fires the compare output and event source. -/
  | cmpHit (n : Ma) (t : Nat)
  /-- CMP_PULSE_END (R325). The compare output pulse ends after PULSE motion clocks. -/
  | cmpPulseEnd (n : Ma) (t : Nat)
  /-- EV_SOURCE_EVENT (R22). A source event enters its line and acts at its destinations 20 ns later. -/
  | evSourceEvent (pin : Fin 8) (level : Bool) (t : Nat)
  /-- ILL_UPDATE (R331). Starts a chain frame. -/
  | illUpdate (org : Origin) (c : Fin 4) (t : Nat)
  /-- ILL_STROBE (R332). A host strobe request. -/
  | illStrobe (org : Origin) (c : Fin 4) (t : Nat)
  /-- STROBE_REQUEST (R332). An event-matrix strobe request schedules the strobe or is lost. -/
  | strobeRequest (c : Fin 4) (t : Nat)
  /-- STROBE_OPEN (R332). The strobe opens STB_DELAY after the request. -/
  | strobeOpen (c : Fin 4) (t : Nat)
  /-- STROBE_CLOSE (R332). The strobe closes after STB_WIDTH. -/
  | strobeClose (c : Fin 4) (lux : List (List Nat)) (t : Nat)
  /-- CHAIN_LATCH (R331). A shifted chain frame is latched into the drivers and the returned statuses are checked. -/
  | chainLatch (c : Fin 4) (ret : List Word) (t : Nat)
  /-- TEST_PULSE (R337). A diagnostic test pulse starts once no masked TRIG is active. -/
  | testPulse (c : Fin 4) (t : Nat)
  /-- TEST_PULSE_END (R337). The test pulse ends after T_DIAG_MIN or is cut by a TRIG. -/
  | testPulseEnd (c : Fin 4) (t : Nat)
  /-- TAG_POLL (R342). The 100 ms poll of an enabled tag. -/
  | tagPoll (g : Fin 26) (t : Nat)
  /-- READ_ID (R341). Tag command returning the 64-bit ID. -/
  | readId (g : Fin 26) (frames : List (List Byte)) (t : Nat)
  /-- TAG_READ (R341). Tag command reading memory. -/
  | tagRead (g : Fin 26) (frames : List (List Byte)) (t : Nat)
  /-- TAG_WRITE (R341). Tag command writing 32 bytes. -/
  | tagWrite (g : Fin 26) (frames : List (List Byte)) (t : Nat)
  /-- TAG_SIGN (R341). Tag command signing a challenge. -/
  | tagSign (g : Fin 26) (frames : List (List Byte)) (t : Nat)
  /-- TAG_AUTHENTICATE (R345). The tag is read and authenticated, giving READY, EXPIRED or REJECTED. -/
  | tagAuthenticate (g : Fin 26) (t : Nat)
  /-- TAG_AUTH_INTERVAL (R345). TAG_AUTH_INT seconds pass and re-authentication starts. -/
  | tagAuthInterval (g : Fin 26) (t : Nat)
  /-- TAG_CTRL_AUTH (R346). A host request to authenticate a tag. -/
  | tagCtrlAuth (org : Origin) (g : Fin 26) (t : Nat)
  /-- TAG_CTRL_WRITE (R348). A host request to write a tag record back. -/
  | tagCtrlWrite (org : Origin) (g : Fin 26) (t : Nat)
  /-- BANK_MIRROR_UPDATE (R349). Every 65,536 stokes the banked tag counts are updated. -/
  | bankMirrorUpdate (t : Nat)
  /-- XFER_GO (R353). Starts a host transfer to or from a tag's USER area. -/
  | xferGo (org : Origin) (val : Word) (t : Nat)
  /-- LINK_DOWN (R356). Link loss, hot reset or FLR stops rings, trips lasers and stops axes. -/
  | linkDown (kind : DownKind) (t : Nat)
  /-- RING_ENABLE (R360). Loads the indices from the index block and enters RUN. -/
  | ringEnable (org : Origin) (r : Ring) (aux : Nat) (t : Nat)
  /-- RING_DISABLE (R360). Requests a ring to stop accessing host memory. -/
  | ringDisable (org : Origin) (r : Ring) (t : Nat)
  /-- RING_DISABLE_DONE (R360). In-flight requests complete and the ring is DISABLED. -/
  | ringDisableDone (r : Ring) (t : Nat)
  /-- RING_DOORBELL (R358). A host index write, checked against the other index. -/
  | ringDoorbell (org : Origin) (r : Ring) (val : Word) (t : Nat)
  /-- INT_ACK (R368). Ends a vector's wait, resending if a source is still pending. -/
  | intAck (org : Origin) (v : Fin 256) (t : Nat)
  /-- INT_PEND_CLEAR (R368). Clears pending interrupt bits, which set again if the cause persists. -/
  | intPendClear (org : Origin) (w : Fin 8) (val : Word) (t : Nat)
  /-- RING_INT_STOKES (R369). INT_STOKES after an unannounced advance make the ring source pending. -/
  | ringIntStokes (r : Ring) (t : Nat)
  /-- PORT_EN (R386). Starts training a lane port. -/
  | portEn (org : Origin) (p : Fin 2) (t : Nat)
  /-- PORT_DIS (R394). Sends a port to OFF. -/
  | portDis (org : Origin) (p : Fin 2) (t : Nat)
  /-- PORT_RETRAIN (R392). Sends an UP port to TRAIN, unless refused. -/
  | portRetrain (org : Origin) (p : Fin 2) (force : Bool) (t : Nat)
  /-- PORT_TRAIN_DONE (R386). Every lane holds FOM_MIN for 1 ms and the port goes to ALIGN. -/
  | portTrainDone (p : Fin 2) (lanes : List (Nat × Nat × List Word)) (t : Nat)
  /-- CODEWORD_LOCK (R386). Lock and skew achieved on all lanes; the port goes to LINK or to FAULT WIRING. -/
  | codewordLock (p : Fin 2) (order : List Nat) (inv : List Bool) (skew : Nat) (t : Nat)
  /-- IDENTITY_PACKET (R386). The partner identity is checked for duplicates and compatibility masters. -/
  | identityPacket (p : Fin 2) (dev : Fin 4) (tm : Bool) (compat : Bool) (t : Nat)
  /-- RTT_PROBE (R387). Returned probes measure the round trip; after 64 the port goes UP. -/
  | rttProbe (p : Fin 2) (time : Nat) (t : Nat)
  /-- TRAIN_TIMEOUT (R386). A state other than UP lasts TRAIN_TMO and training restarts. -/
  | trainTimeout (p : Fin 2) (t : Nat)
  /-- PORT_LOSS (R388). An UP port is lost and reroutes follow. -/
  | portLoss (p : Fin 2) (n : Nat) (t : Nat)
  /-- GANG_FRAME (R383). A gang frame arrives, is forwarded and merged in the reserved window. -/
  | gangFrame (p : Fin 2) (f : GangFrame) (t : Nat)
  /-- PACKET_REPLAY (R381). A discarded routed packet is replayed from the replay buffer. -/
  | packetReplay (p : Fin 2) (n : Nat) (uncorr : Nat) (corr : Nat) (t : Nat)
  /-- PEER_MESSAGE (R385). A peer message is received and placed on its receive ring. -/
  | peerMessage (r : Option Ring) (bytes : List Byte) (t : Nat)
  /-- PEER_MSG_TIMEOUT (R385). An undeliverable message is dropped after PEER_TMO. -/
  | peerMsgTimeout (t : Nat)
  /-- FORWARDED_ARCHIVE (R374). A forwarded archive record arrives at the carrier, or is dropped. -/
  | forwardedArchive (d : Fin 4) (dst : Fin 4) (room : Bool) (bytes : Option (List Byte)) (t : Nat)
  /-- ELECTRICAL_IDLE (R389). An idle port with empty queues enters electrical idle. -/
  | electricalIdle (p : Fin 2) (t : Nat)
  /-- IDLE_EXIT (R389). A training burst takes the port out of idle in time for traffic. -/
  | idleExit (p : Fin 2) (t : Nat)
  /-- REGISTER_WRITE (R9). A write to a register with no row of its own, checked against origin, range and state. -/
  | registerWrite (org : Origin) (addr : Nat) (be : BitVec 4) (val : Word) (aux : Nat) (t : Nat)
  /-- SUPPRESS_WINDOW_END (R396). Before RUN, each 5 us window ends and its SUPPRESSED entry is written. -/
  | suppressWindowEnd (t : Nat)
  /-- LOG_DRAIN (R408). A held log entry drains to RING.88 when room exists. -/
  | logDrain (t : Nat)
  /-- PEER_HEAD_SEND (R407). Each second, the member sends its SEQ and head to every other member. -/
  | peerHeadSend (t : Nat)
  /-- PEER_HEAD (R407). A received head is logged as a PEER_HEAD entry. -/
  | peerHead (d : Fin 4) (dst : Fin 4) (seq : Nat) (head : List Byte) (t : Nat)
  /-- INHIBIT (R400). Safety command that disarms channels and sets INHIBIT holds. -/
  | inhibit (mask : BitVec 24) (crc : Bool) (t : Nat)
  /-- PCAP (R400). Safety command that lowers LAS_PCAP and sets the PCAP hold. -/
  | pcap (c : BitVec 8) (cap : BitVec 16) (crc : Bool) (t : Nat)
  /-- MSTOP (R400). Safety command that stops axes and sets SAFE_STOP. -/
  | mstop (mask : BitVec 8) (hard : Bool) (crc : Bool) (t : Nat)
  /-- LIFT (R401). Safety command that clears named holds. -/
  | lift (kind : BitVec 8) (mask : BitVec 24) (crc : Bool) (t : Nat)
  /-- SAFE_READ (R400). Safety command that returns a status word in the next response. -/
  | safeRead (what : BitVec 8) (crc : Bool) (t : Nat)
  /-- PING (R400). Safety command that restarts the watchdog only. -/
  | ping (unknown : Bool) (crc : Bool) (t : Nat)
  /-- SAFE_WATCHDOG (R402). WD_MS without an accepted transaction inhibits every channel and stops every axis. -/
  | safeWatchdog (t : Nat)
  /-- SVC_READ (R403). Service frame that reads a register. -/
  | svcRead (addr : Nat) (t : Nat)
  /-- SVC_WRITE (R403). Service frame that writes with origin SVC, or is discarded while locked. -/
  | svcWrite (addr : Nat) (val : Word) (aux : Nat) (t : Nat)
  /-- SVC_CHALLENGE (R403). Service frame that returns a fresh challenge. -/
  | svcChallenge (t : Nat)
  /-- SVC_RESPONSE (R403). A signature response unlocks the port or counts a failure. -/
  | svcResponse (sig : List Byte) (t : Nat)
  /-- SVC_LOCK (R403). SVC_CTRL.LOCK relocks the port. -/
  | svcLock (org : Origin) (t : Nat)
  /-- SVC_IDLE_TIMEOUT (R403). IDLE_S seconds without a frame relock the port. -/
  | svcIdleTimeout (t : Nat)
  /-- SVC_LOCKOUT_END (R403). The 60 s lockout after three failures ends. -/
  | svcLockoutEnd (t : Nat)
  /-- HK_ROUND_END (R412). The 32-slot housekeeping round ends and its values are evaluated. -/
  | hkRoundEnd (temps : List (Int × Nat)) (rails : List (Nat × Nat × Bool)) (t : Nat)
  /-- HK_OVERRIDE_RELEASE (R417). Releases a level held by an invalid die sensor. -/
  | hkOverrideRelease (org : Origin) (t : Nat)
  /-- DIP_GATE_WRITE (R425). A write of DIP_GATE_STOKES, accepted by origin and direction. -/
  | dipGateWrite (org : Origin) (val : Word) (t : Nat)
  /-- THERMAL_SHUTDOWN (R420). A comparator trips at 118 C, or too few sensors are valid, and the device shuts down. -/
  | thermalShutdown (lost : Bool) (t : Nat)
  /-- SHUTDOWN_RESTART (R421). After 2 s below 90 C, the device resets and restarts. -/
  | shutdownRestart
  /-- SUPPLY_DIP (R423). A rail dips below its warning level; converter rails mark samples suspect and mask gates. -/
  | supplyDip (m : Fin 12) (ends : Bool) (mv : Nat) (t : Nat)
  /-- RAIL_RESET (R422). A rail below its reset level for 2 us holds the device in reset. -/
  | railReset (m : Fin 12)
  /-- VBANK_LOW (R426). VBANK falls below its reset level; LOW is set. -/
  | vbankLow (t : Nat)
  /-- POWER_UP (R429). Main power is applied in the required order. -/
  | powerUp
  /-- RST_N (R430). RST_N low holds the device in reset; its rise samples the straps and starts boot. -/
  | rstN (high : Bool) (straps : Straps)
  /-- BOOT_ROM_DONE (R433). The ROM self-check completes. -/
  | bootRomDone (ok : Bool) (t : Nat)
  /-- BOOT_SRAM_DONE (R440). Every SRAM word has been initialised and checked; the log starts with POWER_ON. -/
  | bootSramDone (bad : List Nat) (t : Nat)
  /-- BOOT_FETCH_DONE (R435). The boot image read completes, with fallback to the secondary image or the host. -/
  | bootFetchDone (data : Option (List Byte)) (t : Nat)
  /-- BOOT_VERIFY_DONE (R437). Header, sections, hash and signature of the boot image are checked. -/
  | bootVerifyDone (t : Nat)
  /-- BOOT_APPLY_DONE (R434). PHY and CONFIG sections are applied and the device reaches READY. -/
  | bootApplyDone (aux : Nat) (t : Nat)
  /-- BOOT_GO (R436). Starts a boot image read from the host. -/
  | bootGo (org : Origin) (t : Nat)
  /-- KEY_PROGRAM (R438). Programs KEY_DATA into an empty key slot. -/
  | keyProgram (org : Origin) (k : Fin 4) (t : Nat)
  /-- KEY_REVOKE (R438). Sets a slot's revoke fuse. -/
  | keyRevoke (org : Origin) (k : Fin 4) (t : Nat)
  /-- SET_SECURE (R438). Sets the secure-mode fuse. -/
  | setSecure (org : Origin) (t : Nat)
  /-- FUSE_WRITE_DONE (R438). A fuse write completes and BUSY clears. -/
  | fuseWriteDone (t : Nat)
  /-- DAMPER_N (R441). DAMPER_N falls or rises, engaging or releasing the damper. -/
  | damperN (low : Bool) (t : Nat)
  /-- DMP_ENGAGE (R441). Engages the damper by command. -/
  | dmpEngage (org : Origin) (t : Nat)
  /-- DMP_RELEASE (R443). Releases a damper engaged by command. -/
  | dmpRelease (org : Origin) (t : Nat)
  /-- DAMPER_RELEASE (R443). The device restarts its clocks, trips lasers and reloads time after release. -/
  | damperRelease (sec : Nat) (ns : Nat) (ms : Nat)
  /-- IDCODE (R442). TAP instruction that reads the identification code. -/
  | idcode
  /-- FRZ_ADDR (R442). TAP instruction that sets the freeze read address. -/
  | frzAddr (space : Fin 4) (a : Word)
  /-- FRZ_DATA (R442). TAP instruction that reads raw frozen data and advances the address. -/
  | frzData
  /-- FRZ_ENGAGE (R442). Engages the damper through the TAP. -/
  | frzEngage (t : Nat)
  /-- FRZ_RELEASE (R442). Releases the damper through the TAP. -/
  | frzRelease (t : Nat)
  /-- BYPASS (R442). TAP instruction that selects the 1-bit bypass register. -/
  | bypass
  /-- REGISTER_READ (R38). A BAR0 read that has behaviour of its own: it clears an RC register, or latches the high words of STOKE_CNT, TAI or LOG_HEAD. -/
  | registerRead (addr : Nat) (be : BitVec 4) (t : Nat)
  /-- BAR2_ACCESS (R20). A host read or write through BAR2: an RO-region write is refused and logged, and a read of an uncorrectable word returns 0xFFFF_FFFF and raises the region's count. -/
  | bar2Access (org : Origin) (addr : Nat) (ws : Option (List Word)) (n : Nat) (t : Nat)
  /-- ILLEGAL_INSTRUCTION (R59). The engine issues a word with a reserved major opcode or function and takes trap 0x01. -/
  | illegalInstruction (c : Ch) (w : Word)
  /-- MSIX_VECTOR_UNMASK (R368). The host unmasks an MSI-X vector in BAR4, and a vector whose PBA bit is set sends its message. -/
  | msixVectorUnmask (v : Fin 256) (t : Nat)
  /-- PCIE_LINK_UP (R354). The PCI Express link finishes training, or retrains after a loss, and HOST_STATUS.LINK_UP is set. -/
  | pcieLinkUp (rate : Nat) (width : Nat) (bm0 : Bool) (bm1 : Bool) (t : Nat)
  /-- LIMIT_INPUT_RELEASE (R303). A filtered limit or home input goes inactive, ending the BACKOFF travel in homing and starting the inactive time that LIM_CLR needs. -/
  | limitInputRelease (n : Ma) (k : Fin 3) (edges : Nat) (us : Nat) (t : Nat)
  /-- FWD_CLOCK_EDGE (R326). An edge of ENCn_FWDCK from the downstream drive freezes the raw frame or shifts out its next bit on ENCn_FWD. -/
  | fwdClockEdge (n : Ma) (rise : Bool) (t : Nat)
  /-- FWD_MONO_EXPIRE (R326). FWDCK has been high for FWD_MONO after the last bit, and ENCn_FWD goes high. -/
  | fwdMonoExpire (n : Ma) (t : Nat)
  /-- RAIL_RESET_RELEASE (R422). A rail that held the device in reset returns above its reset level, and the device leaves reset and starts boot. -/
  | railResetRelease (m : Fin 12) (straps : Straps)
  /-- MAIN_POWER_LOSS (R410). Main power is removed: undrained log entries and tag counts since the last banked update are lost, and only the banked domain runs on. -/
  | mainPowerLoss
  /-- BANK_CONTENTS_LOST (R426). VBANK falls below 1.5 V and the banked domain marks its contents lost, so the next power-up reports BANK_LOST. -/
  | bankContentsLost
  deriving DecidableEq, Repr

end Sys2Proof
end

