-- ==== Sys2Proof/Machine/State.lean ====
section
/-! DEFINITION. The state of the machine, its faults and refusals, and the state after reset. -/

namespace Sys2Proof.Machine
open Sys2Proof

/-- Reasons to stop with a fault. -/
inductive Fault where
  /-- No command raises this: every stop of this hardware is an effect on its state (safe). -/
  | none
  deriving DecidableEq, Repr

/-- Reasons to refuse. -/
inductive Refusal where
  /-- A command that has no meaning yet, raised by its dispatch arm alone (safe). -/
  | notModelled (mnemonic : String)
  deriving DecidableEq, Repr

/-- The SRAM as pairs of BAR2 byte offset and byte (R19). An unlisted byte reads 0: the SRAM stage of boot writes zeros
(R433); before it no rule gives contents and nothing reads it (log entry 6). -/
abbrev Memory := List Host.Cell

/-- The machine. -/
structure State where
  /-- Registers whose value differs from the Reset column, by BAR0 address, rising. -/
  regs : List (Nat × Word)
  sram : Memory
  /-- Word offsets of BAR2 that hold an uncorrectable error (R19, R440). -/
  bad : List Nat
  /-- The latest instant: core cycles in the present stoke, or since reset before RUN (log entry 3). -/
  now : Nat
  /-- Free values drawn: the model's own counter (log entry 5). -/
  free : Nat
  /-- The events of the latest instant, for writes and reads of the same clock (R11, log entry 67). -/
  clk : ClkSt
  /-- Writes received with effect at the next boundary, oldest first (R31). -/
  staged : List Write
  time : TimeSt
  gang : GangSt
  eng : Vector Core 28
  ch : Vector Chan 24
  /-- The loader's queue: channel, host address and length, the one being served first (R106). -/
  loadQ : List (Ch × Nat × Nat)
  /-- The tables in the spare set, not yet exchanged (R106). -/
  spare : Option Spare
  vec : Vector VecSt 24
  sync : Vector SyncSt 24
  ta : Vector TaSt 24
  sv : Vector SvCh 24
  gridQ : List GridLoad
  las : Vector Las 24
  lsafe : LsafeSt
  loop : Vector LoopU 24
  trace : Vector TraceU 24
  /-- The camera traces (R242). -/
  camTr : Vector TraceU 24
  em : EmSt
  gd : GdSt
  gm : MembersSt
  cam : Vector Camera 24
  cal : Vector CalCh 24
  /-- Estimator 5 of each pipeline. -/
  camEst : Vector Est 24
  /-- Pages free in the compressor's pool (R367). -/
  pool : Nat
  cl : Vector Cluster 4
  ma : Vector Motor 8
  prb : Vector PrbU 4
  ill : Vector IllU 4
  tags : TagsSt
  lanes : LanesSt
  rings : Vector RingU 128
  mcmd : Vector McmdU 8
  link : LinkSt
  ints : IntSt
  evt : EvtSt
  log : LogSt
  safe : SafeSt
  svc : SvcSt
  hk : HkSt
  boot : BootSt
  fuse : FuseSt
  bank : BankSt
  damper : DamperSt
  /-- What has left the device since reset, newest first. -/
  outs : List Out
  /-- The commands that wait, first in, first out. -/
  pending : List Instr
  deriving DecidableEq, Repr

/-! The state after reset (R430, R431, R448): every register at its Reset column, the device held by RST_N. -/

/-- An engine at rest. -/
def Core.start : Core :=
  { w := Vector.replicate 32 0#32, z := false, n := false, c := false, v := false, fstat := 0#5, pc := 0, cycle := 0, entry := .stoke,
    run := .idle, loops := [], calls := [], pend := [], stall := 0, emqs := 0, gdqs := 0, popped := 0, emptyPops := 0, trapCode := 0,
    trapAddr := 0, item := 0 }
/-- A stopped channel. -/
def Chan.start : Chan :=
  { running := false, inLayer := false, fault := 0, faultTrap := false, faultDue := [], fRan := false, fTrap := false, fOvr := false,
    clearDue := false, resumeDue := false, layerNum := 0#32, refused := false, resumed := false, replay := false, newBank := false,
    cleared := false, restamped := false, refCause := 0, layerReq := false, began := false, faulted := false, stage := [], snap := [],
    overruns := 0, overran := false, mirrorSave := [], bankB := false, active := none, inactive := none, waiting := false, load := .idle, refuseCode := 0,
    luts := List.replicate 8 [], telem := List.replicate 16 0#32, evtFlag := false, evtNext := false, traceTrig := false, trapInfo := 0#32 }
/-- An empty decompressor. -/
def EpsSt.start : EpsSt := ⟨false, 0, [], 0, 0, 0, 0, [], 0, 0, 0⟩
/-- An empty vector path. -/
def VecSt.empty : VecSt :=
  { buf := [], stream := 0, placed := 0, start := 0, fetchIdx := 0, drop := 0, stop := 0, errIdx := 0, low := false, above := false,
    underrun := false, inBytes := 0, outBytes := 0, eps := false, dec := EpsSt.start }
/-- A SYNC unit that waits for nothing. -/
def SyncSt.start : SyncSt :=
  { id := 0#32, mask := Vector.replicate 3 0#32, tmo := 0#32, waiting := false, released := false, timeout := false, mismatch := false,
    refused := false, skewed := false, arr := 0, arrId := 0#32, arrMask := 0, arrTmo := 0, known := [], rel := 0#32 }
/-- The exact number 0. -/
def RampQ.zero : RampQ := ⟨⟨0, 1⟩, ⟨0, 1⟩⟩
/-- The exact number 1. -/
def RampQ.one : RampQ := ⟨⟨1, 1⟩, ⟨1, 1⟩⟩
/-- A servo axis that is off, its output parked at code 0 (R146). -/
def Axis.start : Axis :=
  { st := .off, i := 0#32, dd := 0#32, rPrev := 0#32, vPrev := 0#32, ePrev := 0#32, clHi := false, clLo := false, n1z1 := 0#32, n1z2 := 0#32,
    n2z1 := 0#32, n2z2 := 0#32, runAge := 0, preset := false, presetY := false, wasFrozen := false, d := 0, dPrev := 0, out := 0, y := 0#32,
    dec := 0, satMean := false, nFerr := 0, nSat := 0, nClamp := 0, fClamped := false, fAw := false, fSat := false, fFerr := false,
    fOutside := false, iOut := false, cause := 0, shadow := [], pdDirty := false, pdOff := RampQ.zero, pdGain := RampQ.one,
    pdM := 0, pdN := 0 }
/-- A servo that is off. -/
def SvCh.start : SvCh :=
  { ax := Vector.replicate 3 Axis.start, dx := RampQ.zero, dy := RampQ.zero, rot := RampQ.zero, scale := RampQ.zero, m := 0, n := 0,
    trimDirty := false, grid := .idle, swapped := false, gridRefuse := 0,
    fresh := true, killSeen := true }
/-- No edges. -/
def Edges.none : Edges := ⟨Option.none, Option.none, false⟩
/-- A disarmed port. -/
def Las.start : Las :=
  { arm := .disarmed, armWait := 0, trip := 0, tripDue := 0, ready := false, alarm := false, level := false, lit := false, play := Edges.none,
    held := Edges.none, mNow := false, mNext := false, lNow := false, lNext := false, zNow := false, zNext := false, fNow := false,
    fNext := false, cut := false, maskHit := false, masked := false, maskedLast := false, levelLast := false, badEdge := false, code := 0, codePrev := 0,
    monMean := 0, onAll := false, seen := 0, onCyc := 0, histOn := [], histCode := [], monCount := 0, monDev := false, onLast := 0 }
/-- No statistics. -/
def PdStat.start : PdStat := ⟨0, 0, 0, 0, false, false, false, false, 0⟩
/-- A loop unit in OPEN. -/
def LoopU.start : LoopU :=
  { mode := .open_, i := 0#32, ic := 0#32, spShape := 0#32, u := 0#32, awHi := false, awLo := false, blendD := 0#32, blendN := 0,
    blendLeft := 0, refused := false, refCause := 0, iOut := false, revert := 0, loss := 0, freeze := 0, queue := [], autoDue := false,
    entry := none, cam := 0#32, camRaw := 0#32, camAge := 65535, camNew := none, camEmit := false, fb := 0#32, fbValid := false, e := 0#32,
    g := 0#32, ec := 0#32, sp := 0#32, uff := 0#32, req := none, dueNan := false, dueEntry := false, dueLost := false, dueFrozen := false,
    dueAged := false, changed := false, reverted := false, emit := false, pdE := PdStat.start, pdB := PdStat.start }
/-- An idle capture. -/
def TraceU.start : TraceU :=
  { st := .idle, done := false, preShort := false, throttled := false, ecc := false, stored := 0, skip := 0, trigDue := false, postLeft := 0,
    recAt := false, recIdx := 0, recStoke := 0#32, trigIdx := 0, trigStoke := 0#32, prev := none }
/-- A channel's deposits: none played. -/
def EmCh.start : EmCh :=
  { pts := List.replicate 4 (0, 0), raw := List.replicate 4 (0, 0), emNext := false, dis := false, disNext := false,
    gain := 0x3F800000#32, gainNext := 0x3F800000#32, last := 0#32, lastStoke := 0#32, outside := false, bad := false, badNext := false }
/-- A member never heard of. -/
def Member.start : Member := ⟨false, 0, true, true, false, []⟩
/-- A stopped pipeline. -/
def Camera.start : Camera :=
  { st := .stopped, exp := none, rise := none, fall := none, pending := [], opens := [], cur := none, fv := false, tseq := 0, setNum := 0,
    gen := 0, genDue := false, l2cut := false, perDone := false, progAt := none, progHeld := none, reqDue := false, strip := none, done := [],
    fresh := none, telDue := false, stat := List.replicate 16 0#32, used := [0, 0, 0], dark := [], arch := [], aseq := 0, ends := 0 }
/-- An estimator that is off. -/
def Est.idle0 : Est :=
  { st := .off, wait := 0, xs := [], par := [], old := [], appl := [], rejRun := 0, stuck := false, last := 0, cause := 0, spread := 0#32,
    cal := 0, lastSec := 0, lastNs := 0, retarget := [], start := false, abort := false, r0 := RampQ.zero, r1 := RampQ.zero, m := 0, n := 0,
    dirty := false }
/-- A channel's estimators, off. -/
def CalCh.start : CalCh :=
  { est := Vector.replicate 5 Est.idle0, run := 0, held := [], lastV := Vector.replicate 3 none, pend := [], pd := [], ok := [] }
/-- A pair in service. -/
def Pair.start : Pair := ⟨.active, false, 0, 0, 0, false, false, none, false, false⟩
/-- An empty mirror. -/
def Mirror.start : Mirror := ⟨[], 0, 0, [], [], [], [], []⟩
/-- A cluster with its reserve in standby. -/
def Cluster.start : Cluster :=
  { st := .standby, ch := 0, wait := false, fresh := false, phase := .none, spotLeft := 0, sliceLeft := 0, cleanRun := 0, unhealthyRuns := 0,
    prepLeft := 0, prepDone := 0, pairs := Vector.replicate 6 Pair.start, uncov := Vector.replicate 6 false,
    mirrors := Vector.replicate 6 Mirror.start, sent := Vector.replicate 6 Mirror.start, resDue := .nothing, ueDue := false, due := [] }
/-- An input that is not asserted. -/
def LimIn.start : LimIn := ⟨false, false, false, 0⟩
/-- A coil at rest. -/
def Coil.start : Coil := ⟨0#32, false, false, 0#32, 0#32⟩
/-- STEP and DIR low. -/
def StepU.start : StepU := ⟨none, [], false, -1000, none⟩
/-- A disabled axis. -/
def MaU.start : MaU :=
  { st := .disabled, acc := 0, vq := 0, pos := false, v := 0, extra := 0, cut := none, vLast := 0, drive := .rest, dec := 0, hold := false,
    decel := false, decDue := false, landing := false, ramp := false, stopped := false, short := false, raised := false,
    overshoot := false, homed := false, brake := false, cause := 0, all := 0, due := [], zeros := 0, iLast := none, a := Coil.start,
    b := Coil.start, vbr := 0#32, nan := false, sat := false, oc := false, uv := false, la := none, duty := List.replicate 4 0#32,
    dutyOld := List.replicate 4 0#32, stall := 0, devRun := 0, dev := 0#32, devBad := false, lims := Vector.replicate 3 LimIn.start,
    home := .none, found := false, hdir := false, hstart := 0, latched := 0, away := false, reversed := false, failed := false,
    step := StepU.start }
/-- An encoder interface at rest. -/
def EncU.start : EncU :=
  { pos := 0#32, word := 0, base := 0, first := true, tried := false, rawBits := 0, rawOk := false, valid := false, cause := 0, slip := false, stat := 0,
    invalid := 0, read := none, inc := 0, incB := 0, illegal := false, pa := false, pb := false, pz := false, fbB := 0#32, offNew := false,
    i := 0, fbP := 0#32, fbI := 0, idxArmed := false, idxBad := false, idxCorr := false, idxLast := 0#32 }
/-- A compare unit that is not armed. -/
def CmpU.start : CmpU :=
  { armed := false, behind := false, done := false, v := 0, left := 0#32, p := 0, clk := 0, until_ := -1000000, armDue := false, disDue := false }
/-- An axis with its encoder, compare unit and passthrough. -/
def Motor.start : Motor := ⟨MaU.start, EncU.start, CmpU.start, ⟨none, false, none⟩⟩
/-- A probe unit. -/
def PrbU.start : PrbU := ⟨false, false, 0#32, 0, List.replicate 8 0#32, List.replicate 8 0#32⟩
/-- A dark chain. -/
def IllU.start : IllU :=
  { shift := none, again := false, latched := [], limited := 0, onMax := 0, prevWords := [], prevOn := 0, pendAt := none, openAt := none,
    testAt := none, luxDue := none, closedAt := -1000000, testWait := false, testAgain := false, strobes := 0, chainErr := false, ceil := 0,
    tsBad := false }
/-- A tag not seen. -/
def TagU.start : TagU :=
  { st := .absent, cause := 0, seen := none, fails := 0, job := .none, pollDue := false, authDue := false, xferDue := false, id := none,
    a := 0#64, b := 0#32, seq := 0, copy := 0, layers := 0, recA := 0, limA := 0#32, limB := 0#32, flag := false, wb := none,
    held := false, fresh := true }
/-- A lane. -/
def LaneU.start : LaneU := ⟨0, 0, false, 0, false, List.replicate 12 0#32⟩
/-- A port that is off. -/
def PortU.start : PortU :=
  { st := .off, idle := false, cause := 0, partner := 0, partnerTm := false, partnerCompat := false, known := false, polFix := false,
    reversed := false, probes := 0, rttSum := 0, rtt := 0, seed := 0, held := [], heldOld := [], lanes := Vector.replicate 4 LaneU.start }
/-- A disabled ring. -/
def RingU.start : RingU := ⟨.disabled, 0, false, 0, 0, 0, false, false, 0, none⟩
/-- A rail not yet measured. -/
def RailMon.start : RailMon := ⟨0, false, false, false, 0, 0⟩

/-- The machine after reset: main power stands, RST_N is low, the banked domain is empty, no fuse of a key is set. -/
def State.reset : State :=
  { regs := [], sram := [], bad := [], now := 0, free := 0, clk := ⟨0, []⟩, staged := [],
    time := { running := false, cnt := 0, taiSec := 0, taiQ := 0, unaligned := true, armed := false, armSec := 0, autoArmed := false, freqEst := 0,
              slew := 0, phaseErr := 0, locked := false, holdover := false, lastAcc := none, accAt := 0, armAt := none, lastAccCnt := 0,
              lockRun := 0, rejRun := 0, rejLast := none, ppsStokes := 0, latCnt := none, latSecLo := none, latSecHi := none },
    gang := { st := .solo, stepped := false, masterCnt := 0, masterSec := 0, masterNs := 0, phaseErr := 0, fresh := false, lockRun := 0, away := false,
              sinceStamp := 0, conflict := false, rateMismatch := false },
    eng := Vector.replicate 28 Core.start, ch := Vector.replicate 24 Chan.start, loadQ := [], spare := none,
    vec := Vector.replicate 24 VecSt.empty, sync := Vector.replicate 24 SyncSt.start, ta := Vector.replicate 24 ⟨false, false, false, false⟩,
    sv := Vector.replicate 24 SvCh.start, gridQ := [], las := Vector.replicate 24 Las.start,
    lsafe := { aLow := false, bLow := false, disc := false, differ := 0, both := false, tripDue := false, was := 0 },
    loop := Vector.replicate 24 LoopU.start, trace := Vector.replicate 24 TraceU.start, camTr := Vector.replicate 24 TraceU.start,
    em := { ch := Vector.replicate 24 EmCh.start, clearing := false, due := [], own := [] },
    gd := { trails := [], plans := [], refused := Vector.replicate 24 (false, false), newest := [],
            viol := Vector.replicate 24 ⟨false, false, 0xFF, 0⟩, ozRun := Vector.replicate 16 0#24, incomplete := false, mismatch := false,
            sent := [] },
    gm := { dev := Vector.replicate 4 Member.start, frames := [] },
    cam := Vector.replicate 24 Camera.start, cal := Vector.replicate 24 CalCh.start, camEst := Vector.replicate 24 Est.idle0, pool := 384,
    cl := Vector.replicate 4 Cluster.start, ma := Vector.replicate 8 Motor.start, prb := Vector.replicate 4 PrbU.start,
    ill := Vector.replicate 4 IllU.start,
    tags := { tag := Vector.replicate 26 TagU.start, busy := false, done := false, fail := false },
    lanes := { port := Vector.replicate 2 PortU.start, route := Vector.replicate 4 none, heard := 0, msgs := [], stage := [], headDue := 0,
               headSec := 0 },
    rings := Vector.replicate 128 RingU.start, mcmd := Vector.replicate 8 ⟨none, 0, false⟩,
    link := { up := false, rate := 0, width := 0, bm0 := false, bm1 := false },
    ints := { pend := 0#256, wait := 0#256, mask := BitVec.allOnes 256, pba := 0#256, sent := 0, last := 0 },
    evt := { lines := Vector.replicate 64 ⟨false, -8, -8, -8⟩, acts := [], levels := [] },
    log := { started := false, held := [], gap := 0, denied := 0, suppressed := 0, latHi := none, latHead := none, bankLost := false,
             batching := false, batch := [] },
    safe := { inh := Vector.replicate 24 false, pcap := Vector.replicate 24 false, stop := Vector.replicate 8 false, wd := false, seq := 0,
              status := 0, data := 0#32, holdDue := [], wdDue := false },
    svc := { unlocked := false, lockout := false, fails := 0, challenge := none, drawn := 0 },
    hk := { temps := Vector.replicate 22 ⟨0, true, 0, 0⟩, thr := Vector.replicate 4 ⟨false, 0, 0⟩, ext := Vector.replicate 16 ⟨false, 0, 0⟩,
            heldBy := [], released := false, level := 0, tj := 0, rounds := 0, rails := Vector.replicate 12 RailMon.start,
            dips := Vector.replicate 2 ⟨none, none⟩, shut := false, shutLost := false },
    boot := { stage := .held, fail := 0, secondary := false, unsigned := false, fromHost := false, image := [], hash := List.replicate 32 0#8,
              fetching := false, bootSrc := 0, gangId := 0, gangTm := false, rstLow := true, inReset := true, railHold := [] },
    fuse := { keys := Vector.replicate 4 none, revoked := Vector.replicate 4 false, secure := false, busy := false, job := none,
              uid := (List.range 8).map Config.uidByte, stepLetter := 0x43, stepDigit := 0x31 },
    bank := { sec := 0, seq := 0, head := List.replicate 32 0#8, drained := 0, cause := 1, bankLost := false, low := false, oscOk := true,
              lostNow := false, tags := Vector.replicate 26 none },
    damper := { pinLow := false, cmd := false, frozen := false, stopAtBoundary := false, mode := false, stoke := 0#32, secAt := 0, ir := 0,
                space := 0, addr := 0, dr := 0 },
    outs := [], pending := [] }

end Sys2Proof.Machine
end

