-- ==== Sys2Proof/Machine/Ops.lean ====
section
/-! DEFINITION. The operations every family shares: registers, memory, time, free values, the log, interrupts, rings and the event matrix. -/

namespace Sys2Proof.Machine
open Sys2Proof

/-! Canonical lists: keys strictly rising, no entry equal to what an unlisted key reads as. -/

/-- The value at a key. -/
def alGet {α : Type} (d : Nat → α) : List (Nat × α) → Nat → α
  | [], k => d k
  | (k', v) :: r, k => if k = k' then v else alGet d r k

/-- Store a value at a key, keeping the canonical form. -/
def alSet {α : Type} [DecidableEq α] (d : Nat → α) : List (Nat × α) → Nat → α → List (Nat × α)
  | [], k, v => if v = d k then [] else [(k, v)]
  | (k', v') :: r, k, v =>
    if k < k' then (if v = d k then (k', v') :: r else (k, v) :: (k', v') :: r)
    else if k = k' then (if v = d k then r else (k, v) :: r)
    else (k', v') :: alSet d r k v

/-- The canonical form, from a lower bound on the keys. -/
def alWfFrom {α : Type} [DecidableEq α] (d : Nat → α) : Nat → List (Nat × α) → Bool
  | _, [] => true
  | lo, (k, v) :: r => decide (lo ≤ k) && decide (v ≠ d k) && alWfFrom d (k + 1) r

/-- The canonical form of the SRAM list. -/
def Memory.wf (m : Memory) : Bool := alWfFrom (fun _ => (0#8 : Byte)) 0 m

/-- The canonical form of the register list. -/
def regsWf (r : List (Nat × Word)) : Bool := alWfFrom resetAt 0 r

/-! Registers. -/

/-- A command that answers the next state. -/
abbrev Ans := Host.Outcome State Fault Refusal

/-- The stored value of a register. -/
def State.reg (s : State) (a : Nat) : Word := alGet resetAt s.regs a
/-- Store a register's value. -/
def State.setReg (s : State) (a : Nat) (v : Word) : State := { s with regs := alSet resetAt s.regs a v }
/-- The notes of the clock in which the latest instant lies (R11). -/
def State.clkNotes (s : State) : List ClkNote := if s.clk.at_ = s.now then s.clk.notes else []
/-- The note of a register. -/
def State.clkNote (s : State) (a : Nat) : Option ClkNote := s.clkNotes.find? fun n => n.addr == a
/-- What the events of this clock have brought to a register. -/
def State.clkHeld (s : State) (a : Nat) : Word := match s.clkNote a with
  | some n => n.held
  | none => 0#32
/-- Note an event of this clock at a register: `f` joins what it brings to what the clock's events brought before it. -/
def State.clkAdd (s : State) (a : Nat) (f : Word → Word) : State :=
  let n : ClkNote := (s.clkNote a).getD ⟨a, s.reg a, 0#32⟩
  { s with clk := ⟨s.now, { n with held := f n.held } :: s.clkNotes.filter fun (m : ClkNote) => m.addr != a⟩ }
/-- An event reaches a W1C or RC register: `f` joins what it brings to the register's value (R10, R11). -/
def State.event (s : State) (a : Nat) (f : Word → Word) : State := (s.clkAdd a f).setReg a (f (s.reg a))
/-- Add to a saturating counter. -/
def State.addCnt (s : State) (a n : Nat) : State := s.event a fun w => satU32 (w.toNat + n)
/-- The device sets bits of a W1C register. -/
def State.setBits (s : State) (a : Nat) (m : Word) : State := s.event a (· ||| m)
/-- A register that keeps the largest value seen. -/
def State.setMax (s : State) (a n : Nat) : State := s.event a fun w => toW (max w.toNat n)
/-- A write of 1 clears bits of a W1C register, but for those that the device sets in the same clock (R11). -/
def State.w1c (s : State) (a : Nat) (v : Word) : State := s.setReg a (s.reg a &&& ~~~(v &&& ~~~s.clkHeld a))
/-- A read clears an RC register: what an event of the same clock brought is held for the next read (R11). -/
def State.readClear (s : State) (a : Nat) : State :=
  match s.clkNote a with
  | none => s.setReg a 0#32
  | some n =>
    ({ s with clk := ⟨s.now, { n with before := 0#32 } :: s.clkNotes.filter fun (m : ClkNote) => m.addr != a⟩ }).setReg a n.held
/-- Add one to a saturating counter. -/
def State.bump (s : State) (a : Nat) : State := s.addCnt a 1
/-- A field of a register. -/
def State.regF (s : State) (a lo n : Nat) : Nat := fld (s.reg a) lo n

/-! SRAM. -/

/-- One byte of the SRAM at a BAR2 offset. -/
def State.byte (s : State) (a : Nat) : Byte := alGet (fun _ => (0#8 : Byte)) s.sram a
/-- Write one byte. -/
def State.setByte (s : State) (a : Nat) (b : Byte) : State := { s with sram := alSet (fun _ => (0#8 : Byte)) s.sram a b }
/-- The bytes from an offset. -/
def State.bytes (s : State) (a : Nat) : Nat → List Byte
  | 0 => []
  | n + 1 => s.byte a :: State.bytes s (a + 1) n
/-- Write bytes from an offset. -/
def State.setBytes (s : State) (a : Nat) : List Byte → State
  | [] => s
  | b :: bs => State.setBytes (s.setByte a b) (a + 1) bs
/-- A little-endian word. -/
def State.word (s : State) (a : Nat) : Word := wordLE (s.byte a) (s.byte (a + 1)) (s.byte (a + 2)) (s.byte (a + 3))
/-- Write a little-endian word. -/
def State.setWord (s : State) (a : Nat) (w : Word) : State := s.setBytes a (bytesLE w)
/-- The word that holds a byte has an uncorrectable error (R19). -/
def State.isBad (s : State) (a : Nat) : Bool := s.bad.contains (a / 4 * 4)

/-- Write bytes with fresh check bits: the words written hold no error any more (R19, R21). -/
def State.put (s : State) (a : Nat) (bs : List Byte) : State :=
  let gone (x : Nat) : Bool := decide (x < a) || decide (a + bs.length ≤ x)
  { (s.setBytes a bs) with bad := s.bad.filter gone }

/-- Where the byte at `x` goes when the `n` bytes at `a` and those at `b` are exchanged. -/
def swapAddr (a b n x : Nat) : Nat :=
  if a ≤ x ∧ x < a + n then b + (x - a) else if b ≤ x ∧ x < b + n then a + (x - b) else x
/-- The `n` bytes at `a` and those at `b` are exchanged, errors and all. -/
def State.exchange (s : State) (a b n : Nat) : State :=
  let m := s.sram.filter fun x => swapAddr a b n x.1 != x.1
  let t : State := { s with sram := s.sram.filter fun x => swapAddr a b n x.1 == x.1, bad := s.bad.map (swapAddr a b n) }
  m.foldl (fun (t : State) x => t.setByte (swapAddr a b n x.1) x.2) t

/-- The eleven boundaries of R19's regions, each region's first offset after the first. -/
def regionBounds : List Nat :=
  [0x1000000, 0x1600000, 0x1980000, 0x2280000, 0x23B4000, 0x24B4000, 0x28B4000, 0x2A34000, 0x2C34000, 0x2D34000, 0x2D74000]
/-- The region of a BAR2 offset below the unbacked part, in the order of R19. -/
def regionOf (a : Nat) : Nat := (regionBounds.filter (fun b => decide (b ≤ a))).length

/-- An access has found the word at `a` uncorrectable (R440). -/
def State.countUe (s : State) (a : Nat) : State :=
  (s.bump (dbgReg (Reg.MEM_UE_CNT + 4 * regionOf a))).setReg (dbgReg Reg.MEM_UE_LAST) (toW (a / 4 * 4))

/-! Parts of the state that come in vectors. -/

/-- Change every element of a vector. -/
def vmap {α : Type} {n : Nat} (v : Vector α n) (f : α → α) : Vector α n :=
  (List.finRange n).foldl (fun (a : Vector α n) (i : Fin n) => a.set i.val (f a[i]) i.isLt) v
/-- Change every element of a vector, with its index. -/
def vmapi {α : Type} {n : Nat} (v : Vector α n) (f : Fin n → α → α) : Vector α n :=
  (List.finRange n).foldl (fun (a : Vector α n) (i : Fin n) => a.set i.val (f i a[i]) i.isLt) v

/-- Change a channel's program side. -/
def State.modCh (s : State) (c : Ch) (f : Chan → Chan) : State := { s with ch := s.ch.set c.val (f s.ch[c]) c.isLt }
/-- Change a channel's vector path. -/
def State.modVec (s : State) (c : Ch) (f : VecSt → VecSt) : State := { s with vec := s.vec.set c.val (f s.vec[c]) c.isLt }
/-- Change a channel's SYNC unit. -/
def State.modSync (s : State) (c : Ch) (f : SyncSt → SyncSt) : State := { s with sync := s.sync.set c.val (f s.sync[c]) c.isLt }
/-- Change a channel's servo. -/
def State.modSv (s : State) (c : Ch) (f : SvCh → SvCh) : State := { s with sv := s.sv.set c.val (f s.sv[c]) c.isLt }
/-- Change one servo axis. -/
def State.modAx (s : State) (c : Ch) (a : Ax) (f : Axis → Axis) : State :=
  s.modSv c fun v => { v with ax := v.ax.set a.val (f v.ax[a]) a.isLt }
/-- Change a laser port. -/
def State.modLas (s : State) (c : Ch) (f : Las → Las) : State := { s with las := s.las.set c.val (f s.las[c]) c.isLt }
/-- Change a loop unit. -/
def State.modLoop (s : State) (c : Ch) (f : LoopU → LoopU) : State := { s with loop := s.loop.set c.val (f s.loop[c]) c.isLt }
/-- Change a trace capture. -/
def State.modTrace (s : State) (c : Ch) (f : TraceU → TraceU) : State := { s with trace := s.trace.set c.val (f s.trace[c]) c.isLt }
/-- Change a cluster. -/
def State.modCl (s : State) (c : Cl) (f : Cluster → Cluster) : State := { s with cl := s.cl.set c.val (f s.cl[c]) c.isLt }
/-- Change a ring. -/
def State.modRing (s : State) (r : Ring) (f : RingU → RingU) : State := { s with rings := s.rings.set r.val (f s.rings[r]) r.isLt }
/-- Change an engine. -/
def State.modEng (s : State) (e : Fin 28) (f : Core → Core) : State := { s with eng := s.eng.set e.val (f s.eng[e]) e.isLt }

/-! Time. -/

/-- Core cycles of a stoke at each RATE (R26). -/
def stokeLen (rate : Nat) : Nat := if rate = 0 then 8000 else if rate = 1 then 5000 else if rate = 2 then 4000 else 3200
/-- The RATE code in force. -/
def State.rate (s : State) : Nat := s.regF (stkReg Reg.STOKE_CFG) 0 2
/-- Core cycles of the present stoke. -/
def State.stokeCyc (s : State) : Nat := stokeLen s.rate
/-- The program budget (R26). -/
def State.budget (s : State) : Nat := s.stokeCyc - 400
/-- Move the latest instant on; an earlier instant leaves it (log entry 3). -/
def State.at_ (s : State) (t : Nat) : State := { s with now := max s.now t }
/-- TAI at the latest instant: seconds, and quarters of a nanosecond (R37). -/
def State.tai (s : State) : Nat × Nat :=
  let q := s.time.taiQ + 5 * s.now
  ((s.time.taiSec + q / 4000000000) % 2 ^ 40, q % 4000000000)
/-- `f` happens at the boundary that ends the present stoke: what it logs bears the boundary's time (R405). -/
def State.stamped (s : State) (f : State → State) : State :=
  let d := if s.time.running then 5 * (s.stokeCyc - s.now) else 0
  let s := f { s with time := { s.time with taiQ := s.time.taiQ + d } }
  { s with time := { s.time with taiQ := s.time.taiQ - d } }
/-- The banked seconds counter: it counts on with the TAI counter, and keeps its last reading while the main die stands still, since no
command tells how long that lasts (R37, R426, log entry 71). -/
def State.bankSec (s : State) : Nat := if s.damper.frozen || s.boot.inReset || s.hk.shut then s.bank.sec else s.tai.1
/-- The counter's reading is kept when the main die stops. -/
def State.bankStop (s : State) : State := { s with bank := { s.bank with sec := s.bankSec } }
/-- STOKE_CNT[31:0]. -/
def State.stoke32 (s : State) : Word := lo32 s.time.cnt
/-- The device number (R44). -/
def State.devNum (s : State) : Nat := s.boot.gangId

/-! Free values. -/

/-- A fresh word. -/
def State.freshWord (s : State) : Word × State := (Config.freeWord s.free, { s with free := s.free + 1 })
/-- A fresh Boolean. -/
def State.freshBool (s : State) : Bool × State := (Config.freeBool s.free, { s with free := s.free + 1 })
/-- A fresh number. -/
def State.freshNat (s : State) : Nat × State := (Config.freeNat s.free, { s with free := s.free + 1 })

/-- Whether an access to a region whose layout no rule gives meets an uncorrectable word there, and which: left open, with no such word
never, and counted where it does (R19, R440). -/
def State.ueMet (s : State) (region : Nat) : Bool × State :=
  let l := s.bad.filter fun a => regionOf a == region && !(region == 5 && decide (a < 0x247C000))
  if l = [] then (false, s)
  else
    let (n, s) := s.freshNat
    match l[n % (l.length + 1)]? with
    | some a => (true, s.countUe a)
    | none => (false, s)

/-- Record what leaves the device. -/
def State.out (s : State) (o : Out) : State := { s with outs := o :: s.outs }

/-! Interrupts (R368). -/

/-- Send a vector's message, or note it in the PBA while PCI Express masks the vector. -/
def State.sendVec (s : State) (v : Nat) : State :=
  if s.ints.mask.getLsbD v then { s with ints := { s.ints with pba := s.ints.pba ||| BitVec.ofNat 256 (2 ^ v) } }
  else
    let i := s.ints
    ({ s with ints := { i with wait := i.wait ||| BitVec.ofNat 256 (2 ^ v), sent := i.sent + 1, last := v } }).out (.msi v)

/-- The vector a source maps to, if it is mapped. -/
def State.vecOf (s : State) (src : Nat) : Option Nat :=
  let m := s.reg (hostReg (Reg.INT_MAP + 4 * src))
  if bit m 8 then some (fld m 0 8) else none

/-- A source's condition arises: the pending bit sets, and its vector sends unless it awaits acknowledgement. -/
def State.raiseSrc (s : State) (src : Nat) : State :=
  let s := s.clkAdd (hostReg (Reg.INT_PEND + 4 * (src / 32))) (· ||| toW (2 ^ (src % 32)))
  if s.ints.pend.getLsbD src then s
  else
    let s := { s with ints := { s.ints with pend := s.ints.pend ||| BitVec.ofNat 256 (2 ^ src) } }
    match s.vecOf src with
    | none => s
    | some v => if s.ints.wait.getLsbD v then s else s.sendVec v

/-! Rings (R357–R361, R369). -/

/-- Slots of a ring. -/
def State.ringSize (s : State) (r : Ring) : Nat := 2 ^ s.regF (ringReg r Reg.RING_CFG) 4 5
/-- The bound role of a ring. -/
def State.ringRole (s : State) (r : Ring) : Nat := s.regF (ringReg r Reg.RING_BIND) 0 8
/-- The bound instance of a ring. -/
def State.ringInst (s : State) (r : Ring) : Nat := s.regF (ringReg r Reg.RING_BIND) 8 8
/-- Slots between two free-running 32-bit indices. -/
def idxDiff (a b : Nat) : Nat := (a + 4294967296 - b % 4294967296) % 4294967296
/-- A producer that has filled the ring (R359). -/
def State.ringFull (s : State) (r : Ring) : Bool := decide (s.ringSize r ≤ idxDiff s.rings[r].dev s.rings[r].host)

/-- The indices 0 … 127, a page of rings after another. -/
def allRings : List Ring := List.finRange 128

/-- The enabled ring that a role and instance are bound to (R360 lets there be one). -/
def State.findRing (s : State) (role inst : Nat) : Option Ring :=
  allRings.find? fun r => decide (s.rings[r].st ≠ .disabled) && s.ringRole r == role && s.ringInst r == inst

/-- The device index advances by `n` slots: the index block is written, unless the ring may not reach the host, and the
ring's interrupt follows R369. -/
def State.ringAdvanceN (s : State) (r : Ring) (n : Nat) : State :=
  let u := s.rings[r]
  let dev := (u.dev + n) % 4294967296
  let cnt := s.regF (ringReg r Reg.RING_INT_CFG) 0 16
  let s := if u.st = .run then s.out (.index r.val dev u.drops s.stoke32.toNat) else s
  let s := s.modRing r fun u => { u with dev := dev, advSince := u.advSince + n, age := if u.age.isSome then u.age else some 0 }
  if cnt ≠ 0 ∧ cnt ≤ u.advSince + n then (s.modRing r fun u => { u with advSince := 0, age := none }).raiseSrc r.val else s

/-- The device index advances by one. -/
def State.ringAdvance (s : State) (r : Ring) : State := s.ringAdvanceN r 1

/-- A record is dropped and counted (R359). -/
def State.ringDrop (s : State) (r : Ring) : State :=
  (s.modRing r fun u => { u with drops := u.drops + 1, gap := true }).bump (ringReg r Reg.RING_DROP_CNT)

/-- An outbound record: written into the next slot, or dropped where the ring is stopped, closing or full (R356, R359). -/
def State.emitTo (s : State) (r : Ring) (rec : Bool → List Byte) : State :=
  let u := s.rings[r]
  match u.st with
  | .disabled => s
  | .stopped => s.ringDrop r
  | .run =>
    if u.closing || s.ringFull r then s.ringDrop r
    else
      let s := s.out (.slot r.val (u.dev % s.ringSize r) (rec u.gap))
      (s.modRing r fun u => { u with gap := false }).ringAdvance r

/-- An outbound record to the ring that a role and instance are bound to; with none enabled it goes nowhere. -/
def State.emitRole (s : State) (role inst : Nat) (rec : Bool → List Byte) : State :=
  match s.findRing role inst with
  | none => s
  | some r => s.emitTo r rec

/-! Bytes of records. -/

/-- One byte. -/
def b8 (n : Nat) : Byte := BitVec.ofNat 8 n
/-- Two bytes, little-endian. -/
def b16 (n : Nat) : List Byte := bytesOfNatLE 2 n
/-- Four bytes, little-endian. -/
def b32 (n : Nat) : List Byte := bytesOfNatLE 4 n
/-- `n` bytes of 0. -/
def bz (n : Nat) : List Byte := List.replicate n 0#8

/-- R365: the fault and event record. -/
def State.evRecord (s : State) (src inst code detail : Nat) (gap : Bool) : List Byte :=
  [b8 src, b8 inst, b8 s.devNum, b8 (bitAt gap 0)] ++ b32 s.stoke32.toNat ++ bytesOfNatLE 8 s.tai.1
    ++ b32 (s.tai.2 / 4) ++ b32 code ++ b32 detail ++ bz 4

/-- An event raises an interrupt source from 0xC0 onward and places its record (R365, R368). -/
def State.raiseEv (s : State) (src inst code detail : Nat) : State :=
  (s.raiseSrc src).emitRole 7 0 (s.evRecord src inst code detail)

/-- A cause is set in CH_INT_CAUSE[n]: 0 VECTOR, 1 LASER, 2 LOOP, 3 TRACE, 4 CAL, 5 FAULT. -/
def State.chCause (s : State) (c : Ch) (b : Nat) : State :=
  let a := hostReg (Reg.CH_INT_CAUSE + 4 * c.val)
  (s.setBits a (toW (2 ^ b))).raiseSrc (0x80 + c.val)

/-! The change log (R404–R410). -/

/-- R395: the ORIGIN byte. -/
def Origin.code : Origin → Nat
  | .host0 => 0
  | .host1 => 1
  | .safe => 2
  | .svc => 3
  | .peer d => 4 + 8 * d.val
  | .core n => 5 + 8 * n.val
  | .hw => 6

/-- R404: the entry's 32 bytes with CHAIN as given. -/
def LogEntry.bytes (e : LogEntry) (chain : List Byte) : List Byte :=
  bytesOfNatLE 6 e.seq ++ [e.org] ++ [b8 (e.sec / 4294967296)] ++ b32 e.sec ++ b32 (e.ns + bitAt e.sup 30)
    ++ b32 (e.obj + e.kind * 67108864) ++ bytesLE e.old ++ bytesLE e.new ++ chain

/-- LOG_STATUS: NEAR_FULL, BLOCKING, BANK_LOST. -/
def State.logStatus (s : State) : Nat :=
  bitAt (decide (3584 ≤ s.log.held.length)) 0 + bitAt (decide (3840 ≤ s.log.held.length)) 1 + bitAt s.log.bankLost 2

/-- An entry enters the chain (R406); with the log full it is counted and not stored (R409). -/
def State.logStore (s : State) (e : LogEntry) : State :=
  if 4096 ≤ s.log.held.length then
    ({ s with log := { s.log with gap := s.log.gap + 1 } }).bump (accReg Reg.LOG_LOST_CNT)
  else
    let e := { e with seq := s.bank.seq }
    let h := sha256 (s.bank.head ++ e.bytes (bz 4))
    let s : State := { s with log := { s.log with held := s.log.held ++ [{ e with chain := h.take 4 }] },
                              bank := { s.bank with seq := (s.bank.seq + 1) % 2 ^ 48, head := h } }
    if s.log.held.length = 3584 then s.raiseEv 0xC9 0 0 s.logStatus else s

/-- Create a log entry. Before POWER_ON there is no log (R433); within a boundary the entries gather (R405). -/
def State.logPush (s : State) (org : Origin) (sup : Bool) (obj kind : Nat) (old new : Word) : State :=
  if s.log.started = false then s
  else
    let e : LogEntry :=
      { seq := 0, org := b8 (Origin.code org), sec := s.tai.1, ns := s.tai.2 / 4, sup := sup, obj := obj % 67108864,
        kind := kind, old := old, new := new, chain := [] }
    if s.log.batching then { s with log := { s.log with batch := s.log.batch ++ [e] } } else s.logStore e

/-- The precedence of R31, from an ORIGIN byte: a smaller number stands. -/
def precOf (org : Byte) : Nat :=
  match org.toNat % 8 with
  | 2 => 0
  | 6 => 1
  | 0 => 2
  | 1 => 3
  | 3 => 4
  | 4 => 5
  | _ => 6

/-- R405: precedence, then OBJECT. -/
def LogEntry.before (a b : LogEntry) : Bool :=
  decide (precOf a.org < precOf b.org) || (precOf a.org == precOf b.org && decide (a.obj ≤ b.obj))

/-- Insert an entry before the first that it precedes or equals. -/
def insertEntry (e : LogEntry) : List LogEntry → List LogEntry
  | [] => [e]
  | x :: r => if e.before x then e :: x :: r else x :: insertEntry e r

/-- Entries in the order of R405; equals keep their order, so EXT entries follow the entry they extend. -/
def sortEntries : List LogEntry → List LogEntry
  | [] => []
  | e :: r => insertEntry e (sortEntries r)

/-- A boundary begins to gather its entries. -/
def State.batchStart (s : State) : State := { s with log := { s.log with batching := true, batch := [] } }
/-- The gathered entries enter the chain. -/
def State.batchEnd (s : State) : State :=
  (sortEntries s.log.batch).foldl State.logStore { s with log := { s.log with batching := false, batch := [] } }

/-- An EVENT entry (R471). -/
def State.logEvent (s : State) (src inst code : Nat) (old new : Nat) : State :=
  s.logPush .hw false (src + inst * 256 + code * 65536) 0x15 (toW old) (toW new)

/-- RING_STATUS (R375): FULL is the producer one ring size ahead. -/
def State.ringStatus (s : State) (r : Ring) : Nat :=
  let u := s.rings[r]
  let st := match u.st with | .disabled => 0 | .run => 1 | .stopped => 2
  let full := if s.regF (ringReg r Reg.RING_CFG) 0 2 = 1 then s.ringFull r else decide (s.ringSize r ≤ idxDiff u.host u.dev)
  st + u.cause * 4 + bitAt u.badDb 5 + bitAt (full && u.st != .disabled) 6
/-- A ring's state changes, which a RING entry records (R405). -/
def State.ringChange (s : State) (r : Ring) (f : RingU → RingU) : State :=
  let old := s.ringStatus r
  let s := s.modRing r f
  s.logPush .hw false (ringReg r Reg.RING_CTRL) 0x10 (toW old) (toW (s.ringStatus r))
/-- A ring stops with a cause (R360), which makes its source pending (R369). -/
def State.ringStop (s : State) (r : Ring) (cause : Nat) : State :=
  if s.rings[r].st = .run then (s.ringChange r fun u => { u with st := .stopped, cause := cause, closing := false }).raiseSrc r.val else s

/-- EXT entries: two words each (R405). -/
def State.logExt (s : State) (org : Origin) (obj : Nat) : List Word → State
  | a :: b :: r => State.logExt (s.logPush org false obj 0x3F a b) org obj r
  | [a] => s.logPush org false obj 0x3F a 0#32
  | [] => s

/-- An entry that carries a run of bytes, with its EXT entries of the same origin (R405). -/
def State.logRunBy (s : State) (org : Origin) (kind obj : Nat) (bs : List Byte) : State :=
  match wordsLE bs with
  | a :: b :: r => (s.logPush org false obj kind a b).logExt org obj r
  | _ => s
/-- The same, by the device. -/
def State.logRun (s : State) (kind obj : Nat) (bs : List Byte) : State := s.logRunBy .hw kind obj bs

/-- A device write to a register, with origin HW, logged under a KIND (R398). A write of lower precedence that reached the
register at the same boundary is superseded (R31). -/
def State.hwWriteK (s : State) (kind a : Nat) (v : Word) : State :=
  let mine (e : LogEntry) : Bool := e.kind == 1 && e.obj == a
  let old := match s.log.batch.find? mine with
    | some e => e.old
    | none => s.reg a
  let bt := s.log.batch.map fun (e : LogEntry) => if mine e then { e with sup := true, old := v } else e
  (({ s with log := { s.log with batch := bt } }).setReg a v).logPush .hw false a kind old v

/-- A device write logged as WRITE. -/
def State.hwWrite (s : State) (a : Nat) (v : Word) : State := s.hwWriteK 1 a v

/-- DENY_LIMIT (R396). -/
def State.denyLimit (s : State) : Nat := s.regF (accReg Reg.LOG_CFG) 0 8

/-- A denied write (R396): counted, noted, made pending and logged with the value in force, or left out above the limit. -/
def State.denyWith (s : State) (org : Origin) (a : Nat) (inForce val : Word) : State :=
  let s := s.bump (accReg Reg.DENIED_CNT)
  let s := (s.setReg (accReg Reg.LAST_DENIED) (toW (a % 67108864))).setReg (accReg Reg.LAST_DENIED_ORG) (toW (Origin.code org))
  let s := s.raiseEv 0xCB 0 (Origin.code org) (a % 67108864)
  if s.log.denied < s.denyLimit then
    ({ s with log := { s.log with denied := s.log.denied + 1 } }).logPush org false a 2 inForce val
  else ({ s with log := { s.log with suppressed := s.log.suppressed + 1 } }).bump (accReg Reg.DENIED_SUPPR_CNT)

/-- A denied write to a register whose stored value is its value. -/
def State.deny (s : State) (org : Origin) (a : Nat) (val : Word) : State := s.denyWith org a (s.reg a) val

/-- The stoke or window ends: one SUPPRESSED entry tells how many were left out (R396). -/
def State.suppressEnd (s : State) : State :=
  let n := s.log.suppressed
  let s := { s with log := { s.log with denied := 0, suppressed := 0 } }
  if n = 0 then s else s.logPush .hw false 0 3 0#32 (satU32 n)

/-! The event matrix (R22–R24). -/

/-- The line that carries a source. -/
def State.evSrcOf (s : State) (l : Fin 64) : Nat := s.regF (evReg (Reg.EVL_SRC + 4 * l.val)) 0 10

/-- EVD_SEL of the destinations that listen to a line. -/
def State.evDests (s : State) (l : Nat) : List Nat :=
  (List.range 96).filter fun m =>
    let d := s.reg (evReg (Reg.EVD_SEL + 4 * m))
    bit d 8 && fld d 0 6 == l

/-- The motion clock, eight core cycles, that follows an instant. -/
def nextMotion (t : Nat) : Nat := (t / 8 + 1) * 8

/-- The instants of a line, counted from `n` core cycles later. -/
def EvLine.back (l : EvLine) (n : Nat) : EvLine := { l with from_ := l.from_ - n, until_ := l.until_ - n, last := l.last - n }
/-- EDGE of a line. -/
def State.evEdge (s : State) (l : Fin 64) : Bool := bit (s.reg (evReg (Reg.EVL_SRC + 4 * l.val))) 13
/-- The line is high, or its pulse is about to enter it: an event now merges into that pulse (R24). -/
def State.evBusy (s : State) (l : Fin 64) : Bool :=
  let v := s.evt.lines[l]
  (v.active && !s.evEdge l) || decide ((s.now : Int) < v.until_)
/-- The level of a line at an instant, after INV, STRETCH and EDGE. -/
def State.evAt (s : State) (l : Fin 64) (t : Int) : Bool :=
  let v := s.evt.lines[l]
  decide (t < v.last) || (decide (v.from_ ≤ t) && ((v.active && !s.evEdge l) || decide (t < v.until_)))
/-- The present level of a line (EV_LEVEL). -/
def State.evHigh (s : State) (l : Fin 64) : Bool := s.evAt l s.now

/-- One line takes the new activity of its source, which enters it at the instant `t`: an inactive-to-active transition counts, starts the
pulse and, unless the line was high, reaches the destinations in the motion clock after that (R22). An event that merges into a pulse
lengthens it to its own STRETCH (R24, log entry 69). -/
def State.evLine (s : State) (t : Nat) (l : Fin 64) (act : Bool) : State :=
  let cfg := s.reg (evReg (Reg.EVL_SRC + 4 * l.val))
  let act := act != bit cfg 12
  let v := s.evt.lines[l]
  let high := s.evBusy l
  let rise := act && !v.active
  let fall := v.active && !act && !s.evEdge l
  let v' : EvLine :=
    { active := act, from_ := if rise && !high then t else v.from_, last := if rise && !high then v.until_ else v.last,
      until_ := if rise then max v.until_ (t + 8 * max 1 (fld cfg 16 8)) else if fall then max v.until_ t else v.until_ }
  let s := { s with evt := { s.evt with lines := s.evt.lines.set l.val v' l.isLt } }
  if rise then
    let s := s.bump (evReg (Reg.EV_CNT + 4 * l.val))
    if high then s
    else { s with evt := { s.evt with acts := s.evt.acts ++ (s.evDests l.val).map (fun m => (m, t + 8)) } }
  else s

/-- The indices 0 … 63. -/
def all64 : List (Fin 64) := List.finRange 64

/-- A source becomes active or inactive as a level; it enters its lines at the instant `t`. -/
def State.evSetAt (s : State) (t src : Nat) (act : Bool) : State :=
  let lv := s.evt.levels.filter (· != src)
  let s := { s with evt := { s.evt with levels := if act then src :: lv else lv } }
  (all64.filter fun l => s.evSrcOf l == src).foldl (fun (s : State) (l : Fin 64) => s.evLine t l act) s
/-- A source becomes active or inactive: it enters its lines in the motion clock that follows (R22). -/
def State.evSet (s : State) (src : Nat) (act : Bool) : State := s.evSetAt (nextMotion s.now) src act

/-- A source event of one motion clock. -/
def State.evPulse (s : State) (src : Nat) : State := (s.evSet src true).evSet src false
/-- A program-raised event enters its lines at the boundary itself (R22). -/
def State.evProgram (s : State) (src : Nat) : State := (s.evSetAt s.now src true).evSetAt s.now src false

/-- EVTnn_OUT: the pin that destination 40 + nn drives shows the line selected, one motion clock on (R22). -/
def State.evtOut (s : State) (p : Fin 8) : Bool :=
  let d := s.reg (evReg (Reg.EVD_SEL + 4 * (40 + p.val)))
  bit d 8 && s.evAt ⟨fld d 0 6 % 64, Nat.mod_lt _ (by decide)⟩ ((s.now : Int) - 8)

/-! The kill wire and faults. -/

/-- The damper is engaged, by its pin or by command (R441). -/
def State.damperOn (s : State) : Bool := s.damper.pinLow || s.damper.cmd
/-- The damper holds the outputs safe: from its engagement to the restart (R441, R443). -/
def State.damperHolds (s : State) : Bool := s.damperOn || s.damper.frozen || s.damper.stopAtBoundary
/-- The main die stands still: frozen by the damper, held in reset, or shut down (R420, R430, R441). -/
def State.halted (s : State) : Bool := s.damper.frozen || s.boot.inReset || s.hk.shut
/-- The kill wire is asserted (R13). -/
def State.killed (s : State) : Bool := s.lsafe.aLow || s.lsafe.bLow || s.damperHolds || s.hk.shut || s.boot.inReset

/-- A fault cause arises for a channel; the lowest of a stoke's causes is taken at its boundary (R94). -/
def State.faultDue (s : State) (c : Ch) (cause : Nat) : State := s.modCh c fun x => { x with faultDue := cause :: x.faultDue }

/-! Lists of channels. -/

/-- An index into something of 24. -/
def ix24 (i : Nat) : Fin 24 := ⟨i % 24, Nat.mod_lt _ (by decide)⟩
/-- An index into something of 8. -/
def ix8 (i : Nat) : Fin 8 := ⟨i % 8, Nat.mod_lt _ (by decide)⟩
/-- An index into something of 4. -/
def ix4 (i : Nat) : Fin 4 := ⟨i % 4, Nat.mod_lt _ (by decide)⟩
/-- An index into something of 128. -/
def ix128 (i : Nat) : Fin 128 := ⟨i % 128, Nat.mod_lt _ (by decide)⟩

/-- Fold over the channels. -/
def State.forCh (s : State) (f : State → Ch → State) : State := all24.foldl f s
/-- A channel is in fault (R94). -/
def State.inFault (s : State) (c : Ch) : Bool := s.ch[c].fault != 0
/-- Some local channel is in layer. -/
def State.anyLayer (s : State) : Bool := all24.any fun (c : Ch) => s.ch[c].inLayer
/-- Some laser port is not DISARMED. -/
def State.anyArmed (s : State) : Bool := all24.any fun (c : Ch) => s.las[c].arm != .disarmed

end Sys2Proof.Machine
end

