-- ==== Sys2Proof/Machine/Access.lean ====
section
/-! DEFINITION. The field rules of R470 and the origins of R9. -/

namespace Sys2Proof.Machine
open Sys2Proof

/-- The source codes of R22's table. -/
def isEvSrc (v : Nat) : Bool :=
  decide (v ≤ 3) || decide (0x10 ≤ v ∧ v ≤ 0x17) || decide (0x18 ≤ v ∧ v ≤ 0x1B) || decide (0x20 ≤ v ∧ v ≤ 0x2F)
    || decide (0x40 ≤ v ∧ v ≤ 0x57) || decide (0x60 ≤ v ∧ v ≤ 0x77) || decide (0x80 ≤ v ∧ v ≤ 0x97) || decide (0xA0 ≤ v ∧ v ≤ 0xB7)
    || decide (0xC0 ≤ v ∧ v ≤ 0xC3) || decide (0xC8 ≤ v ∧ v ≤ 0xCF) || decide (0xD0 ≤ v ∧ v ≤ 0xE7) || decide (0xF0 ≤ v ∧ v ≤ 0xF3)

/-- R470: a field's value `v` of `n` bits meets its requirement. -/
def FChk.ok (c : FChk) (n v : Nat) : Bool :=
  match c with
  | .any => true
  | .rng lo hi => decide (lo ≤ v ∧ v ≤ hi)
  | .srng lo hi => decide (lo ≤ sx n v ∧ sx n v ≤ hi)
  | .mult k => v % k == 0
  | .fin => fFinite (toW v)
  | .fpos => fFinite (toW v) && flt 0#32 (toW v)
  | .fnn => fle 0#32 (toW v)
  | .fnz => fcmp (toW v) 0#32 != some .eq && !fIsNan (toW v)
  | .fgt0 => flt 0#32 (toW v)
  | .frng lo hi => fle (toW lo) (toW v) && fle (toW v) (toW hi)
  | .evSrc => isEvSrc v

/-- R470: every field that a write of `v` writes is within its definition; of a W1S, W1C or WO register only the fields
with a bit written 1 count. -/
def fieldsOk (d : RegDef) (v : Word) : Bool :=
  d.flds.all fun f =>
    let x := fld v f.lo f.w
    f.chk.ok f.w x || (d.acc != .rw && x == 0)

/-- The bits of a register that its fields cover; reserved bits read 0 (R8). -/
def fieldMask (d : RegDef) : Nat := d.flds.foldl (fun a f => a ||| ((2 ^ f.w - 1) * 2 ^ f.lo)) 0

/-- The channel that a register belongs to for the program of a running channel: its own block, or the camera bound to it. -/
def State.coreOwns (s : State) (x : RegAt) (n : Ch) : Bool :=
  match x.blk with
  | .ch => x.inst == n.val
  | .emp => x.inst == n.val
  | .cam => let b := s.reg (0x300000 + 0x8000 * x.inst + 8); bit b 7 && fld b 0 5 == n.val
  | _ => true

/-- The bits that SAFE may not write 1 in a register that names it: of MA_CTRL all commands but bits [3:2] (R312). -/
def safeBars (x : RegAt) : Word := if x.blk = .ma ∧ x.off = Reg.MA_CTRL then 0xF3#32 else 0#32

/-- R9: the origin is in the register's Writable by set, for the bits that a write of `v` writes. -/
def State.originOk (s : State) (x : RegAt) (org : Origin) (v : Word) : Bool :=
  let m := x.rd.by_
  match org with
  | .host0 => m % 2 == 1
  | .host1 => m / 2 % 2 == 1
  | .safe => m / 4 % 2 == 1 && v &&& safeBars x == 0#32
  | .svc => m / 8 % 2 == 1
  | .peer _ => m / 16 % 2 == 1
  | .core n => m / 32 % 2 == 1 && s.coreOwns x n
  | .hw => true

end Sys2Proof.Machine
end

