-- ==== Sys2Proof/Machine/Loop.lean ====
section
/-! DEFINITION. The melt-pool loop units: statistics, feedback, control law, modes, coefficient queue (R174–R194). -/

namespace Sys2Proof.Machine
open Sys2Proof

/-! Photodiode statistics (R174–R176). -/

/-- R175, R176: the statistics of the samples delivered, each with its dip flag; `m` is the number due. -/
def pdStats (m : Nat) (susp : Bool) (xs : List (Nat × Bool)) : PdStat :=
  let n := xs.length
  let sum := xs.foldl (fun a x => a + x.1) 0
  let sq := xs.foldl (fun a x => a + x.1 * x.1) 0
  let sp := susp || xs.any (·.2)
  let sat := n != 0 && xs.all (fun x => x.1 == 65535)
  { mean := if n = 0 then 0 else (2 * sum + n) / (2 * n)
    peak := xs.foldl (fun a x => max a x.1) 0
    min := match xs with | [] => 0 | x :: r => r.foldl (fun a y => Nat.min a y.1) x.1
    var := if n = 0 then 0 else (n * sq - sum * sum) / (n * n)
    valid := !sp && !decide (n < m) && !sat
    suspect := sp, short := decide (n < m), satAll := sat, count := n }

/-- PDE_FLAGS and PDB_FLAGS. -/
def PdStat.flags (p : PdStat) : Nat := bitAt p.valid 0 + bitAt p.suspect 1 + bitAt p.short 2 + bitAt p.satAll 3 + p.count * 256

/-! The unit's registers. -/

/-- A register of channel c. -/
def State.creg (s : State) (c : Ch) (o : Nat) : Word := s.reg (chReg c o)
/-- The low 16 bits of a register of channel c. -/
def State.creg16 (s : State) (c : Ch) (o : Nat) : Nat := fld (s.creg c o) 0 16

/-- The codes of R183. -/
def LoopMode.code : LoopMode → Nat
  | .open_ => 0
  | .track => 1
  | .shape => 2
  | .hold => 3

/-- LOOP_STATUS. -/
def State.loopStatus (s : State) (c : Ch) : Nat :=
  let l := s.loop[c]
  l.mode.code + bitAt (decide (l.blendLeft ≠ 0)) 2 + bitAt l.refused 3 + l.refCause * 16 + bitAt l.iOut 7 + l.revert * 1024
    + bitAt l.emit 13 + bitAt (l.awHi || l.awLo) 14 + bitAt (s.time.running && decide (s.creg16 c Reg.CAM_AGE_MAX < l.camAge)) 15 + l.queue.length * 65536

/-- The camera that is bound to channel c (R17). -/
def State.camOf (s : State) (c : Ch) : Option Cam :=
  all24.find? fun (k : Cam) => let b := s.reg (camReg k Reg.CAM_BIND); bit b 7 && fld b 0 5 == c.val

/-! Control law. -/

/-- The integer part of a value known to lie in [0, 64]. -/
def floor64 (x : Word) : Nat :=
  match f32 x with
  | .fin false m e => if 0 ≤ e then m <<< e.toNat else m >>> (-e).toNat
  | _ => 0

/-- R181: the gain table. -/
def State.loopGain (s : State) (c : Ch) (e : Word) : Word :=
  let l (i : Nat) := s.creg c (Reg.GAIN_LUT + 4 * i)
  let span := s.creg c Reg.LOOP_E_SPAN
  let x := fclamp 0#32 0x42800000#32 (fdiv (fmul (fadd e span) 0x42000000#32) span)
  let k := min (floor64 x) 63
  let f := fsub x (fOfInt k)
  fadd (l k) (fmul f (fsub (l (min (k + 1) 63)) (l k)))

/-- The ceiling of u: the least of LOOP_UMAX, LAS_PMAX and LAS_PCAP. -/
def State.loopCeil (s : State) (c : Ch) : Word :=
  fOfInt (min (min (s.creg16 c Reg.LOOP_UMAX) (s.creg16 c Reg.LAS_PMAX)) (s.creg16 c Reg.LAS_PCAP))

/-- R178: the feedback and whether it is valid, with the applied dark offsets of PD_E and PD_B. -/
def State.loopFb (s : State) (c : Ch) (dE dB : Word) : Word × Bool :=
  let l := s.loop[c]
  let cfg := s.creg c Reg.LOOP_CFG
  let st (p : PdStat) := fOfInt (if bit cfg 2 then p.peak else p.mean)
  let a := fsub (st l.pdE) dE
  let b := fsub (st l.pdB) dB
  match fld cfg 0 2 with
  | 0 => (a, l.pdE.valid)
  | 1 => (b, l.pdB.valid)
  | _ => (fadd (fmul (s.creg c Reg.MIX_WE) a) (fmul (s.creg c Reg.MIX_WB) b), l.pdE.valid && l.pdB.valid)

/-- R190: the variances of the photodiodes that fb uses are all below FREEZE_VAR. -/
def State.loopStill (s : State) (c : Ch) : Bool :=
  let l := s.loop[c]
  let lim := s.creg c Reg.FREEZE_VAR
  let lo (p : PdStat) := flt (fOfInt p.var) lim
  let zero (w : Word) := fcmp w 0#32 == some .eq
  match fld (s.creg c Reg.LOOP_CFG) 0 2 with
  | 0 => lo l.pdE
  | 1 => lo l.pdB
  | _ => (zero (s.creg c Reg.MIX_WE) || lo l.pdE) && (zero (s.creg c Reg.MIX_WB) || lo l.pdB)

/-- The output of OPEN before its clamp: u_ff + TRIM + blend offset (R183, R186). -/
def State.loopOpenRaw (s : State) (c : Ch) (uff : Word) : Word :=
  let l := s.loop[c]
  let b := fadd uff (s.creg c Reg.LOOP_TRIM)
  if l.blendLeft = 0 then b else fadd b (fdiv (fmul l.blendD (fOfInt (l.blendLeft - 1))) (fOfInt l.blendN))
/-- The output of OPEN, clamped (R180). -/
def State.loopOpenU (s : State) (c : Ch) (uff : Word) : Word := fclamp 0#32 (s.loopCeil c) (s.loopOpenRaw c uff)

/-- R180, R185: one accumulation of the integrator; the result and I_OUT. An i that lies inside the range has entered it, be it that the
range was moved. -/
def accumulate (lo hi i d : Word) (out : Bool) : Word × Bool :=
  let n := fadd i d
  if out && (flt i lo || flt hi i) then
    if (flt i lo && flt 0#32 d) || (flt hi i && flt d 0#32) then
      if flt n lo && flt i lo then (n, true)
      else if flt hi n && flt hi i then (n, true)
      else (fclamp lo hi n, false)
    else (i, true)
  else (fclamp lo hi n, false)

/-- The unit's stoke (R178–R190): what it computes in the stoke that ends, from the statistics of the stoke before it and
the values committed before it; `em` says whether that stoke was emitting, `pw` the code played in it. -/
def State.loopCompute (s : State) (c : Ch) (dE dB : Word) (em : Bool) (pw : Nat) : LoopU :=
  let l := s.loop[c]
  let fbv := s.loopFb c dE dB
  let fb := fbv.1
  let valid := fbv.2
  let uff := fOfInt (s.creg16 c Reg.LAS_POWER)
  let ceil := s.loopCeil c
  let l := { l with fb := fb, fbValid := valid, uff := uff, emit := em, changed := false, reverted := false }
  let fin (w : Word) := fFinite w
  let aw (l : LoopU) : LoopU := { l with awHi := fcmp l.u ceil == some .eq, awLo := fcmp l.u 0#32 == some .eq }
  let bad (l : LoopU) : LoopU := aw { l with u := uff, dueNan := true, dueEntry := false }
  match l.mode with
  | .open_ =>
    let l := { l with blendLeft := l.blendLeft - 1 }
    if fin (s.loopOpenRaw c uff) then aw { l with u := s.loopOpenU c uff } else bad l
  | .hold => aw l
  | _ =>
    let shape := l.mode == .shape
    let sp := if shape then l.spShape else s.creg c Reg.LOOP_SP
    let kp := s.creg c Reg.SHP_KP
    let lo := s.creg c Reg.SHP_SP_MIN
    let hi := s.creg c Reg.SHP_SP_MAX
    let ec := fsub (s.creg c Reg.LOOP_SP_CAM) l.cam
    -- R187, R185: the outer law
    let l :=
      if shape then
        match l.entry with
        | some _ => { l with ec := ec, spShape := fb, ic := fsub fb (fmul kp ec) }
        | none =>
          if l.camAge = 0 ∧ l.camEmit = true then
            let ic := fclamp lo hi (fadd l.ic (fmul (s.creg c Reg.SHP_KI) ec))
            { l with ec := ec, ic := ic, spShape := fclamp lo hi (fadd ic (fmul kp ec)) }
          else l
      else l
    let sp := if shape then l.spShape else sp
    let e := fsub sp fb
    let g := s.loopGain c e
    let ge := fmul g e
    let l := { l with sp := sp, e := e, g := g }
    let run := em && valid
    let iMin := s.creg c Reg.LOOP_I_MIN
    let iMax := s.creg c Reg.LOOP_I_MAX
    -- the unit and its u before the clamp, which R182 judges
    let lu : LoopU × Word :=
      match l.entry with
      | some hold =>
        let up := if hold then l.u else s.loopOpenU c uff
        let raw := if hold then l.u else s.loopOpenRaw c uff
        let i0 := fsub up uff
        let i := if run then fsub i0 ge else i0
        ({ l with i := i, iOut := flt i iMin || flt iMax i, u := fclamp 0#32 ceil up, entry := none, dueEntry := true, blendLeft := 0 }, raw)
      | none =>
        let kie := fmul (s.creg c Reg.LOOP_KI) e
        let still := l.iOut && (flt l.i iMin || flt iMax l.i)
        let acc := if run && !(l.awHi && flt 0#32 kie) && !(l.awLo && flt kie 0#32) then accumulate iMin iMax l.i kie l.iOut else (l.i, still)
        let raw := if run then fadd (fadd uff acc.1) ge else fadd uff acc.1
        ({ l with i := acc.1, iOut := acc.2, u := fclamp 0#32 ceil raw }, raw)
    let l := lu.1
    let loss := if valid then 0 else l.loss + 1
    let frz := if run && decide (s.creg16 c Reg.P_MIN < pw) then (if s.loopStill c then l.freeze + 1 else 0) else l.freeze
    let l := { l with loss := loss, freeze := frz, dueLost := decide (s.creg16 c Reg.LOSS_STOKES ≤ loss),
                      dueFrozen := decide (s.creg16 c Reg.FREEZE_STOKES ≤ frz),
                      dueAged := shape && decide (s.creg16 c Reg.CAM_AGE_MAX < l.camAge) }
    if fin l.e && fin l.g && fin l.i && fin lu.2 && (!shape || (fin l.ec && fin l.ic && fin l.spShape)) then aw l
    else bad { l with dueLost := false, dueFrozen := false, dueAged := false }

/-! Mode changes. -/

/-- R186: the hand-over to OPEN from the output committed, or its refusal (none). -/
def State.handover (s : State) (c : Ch) (force : Bool) : Option LoopU :=
  let l := s.loop[c]
  let uo := fadd (fOfInt (s.creg16 c Reg.LAS_POWER)) (s.creg c Reg.LOOP_TRIM)
  let d := fsub l.u uo
  let o := { l with mode := .open_, blendLeft := 0, entry := none, loss := 0, freeze := 0, changed := true }
  if fle (fabs d) (fOfInt (s.creg16 c Reg.HANDOVER_TOL)) then some o
  else if force || fle (fabs d) (fOfInt (s.creg16 c Reg.HANDOVER_LIMIT)) then
    let n := s.creg16 c Reg.HANDOVER_RAMP
    some { o with blendD := d, blendN := n, blendLeft := n }
  else none

/-- The event of an automatic mode change (R471), with LOOP_STATUS before it; `rev` where it is a reversion (R184). -/
def State.loopAuto (s : State) (c : Ch) (old : Nat) (rev : Bool) : State :=
  (s.modLoop c fun l => { l with reverted := l.reverted || rev, changed := true }).logEvent (0x80 + c.val) 0 3 old (s.loopStatus c)

/-- R182: a term that is not finite: OPEN with TRIM and i at 0. -/
def State.loopNan (s : State) (c : Ch) : State :=
  let old := s.loopStatus c
  let s := s.modLoop c fun l => { l with mode := .open_, i := 0#32, iOut := false, blendLeft := 0, entry := none, revert := 4,
                                         autoDue := false, loss := 0, freeze := 0, dueNan := false }
  (s.hwWrite (chReg c Reg.LOOP_TRIM) 0#32).loopAuto c old true

/-- R191: a reversion with its cause, 1 LOST or 2 FROZEN: TRIM = i, then OPEN as if FORCE were set. -/
def State.loopRevert (s : State) (c : Ch) (cause : Nat) : State :=
  let old := s.loopStatus c
  let s := s.hwWrite (chReg c Reg.LOOP_TRIM) s.loop[c].i
  let s := match s.handover c true with
    | some l => s.modLoop c fun _ => l
    | none => s
  let s := s.modLoop c fun l => { l with revert := cause, autoDue := false }
  (s.loopAuto c old true).chCause c 2

/-- R189: the loss reversion. -/
def State.loopLost (s : State) (c : Ch) : State := (s.bump (chReg c Reg.LOSS_CNT)).loopRevert c 1
/-- R190: the freeze reversion. -/
def State.loopFrozen (s : State) (c : Ch) : State := (s.bump (chReg c Reg.FREEZE_CNT)).loopRevert c 2

/-- SHAPE to TRACK (R184): LOOP_SP = sp_shape, written by HW. -/
def State.shapeToTrack (s : State) (c : Ch) : State :=
  (s.hwWrite (chReg c Reg.LOOP_SP) s.loop[c].spShape).modLoop c fun l =>
    { l with mode := .track, loss := 0, freeze := 0, changed := true }

/-- R188: the camera-age drop. -/
def State.loopAged (s : State) (c : Ch) : State :=
  let old := s.loopStatus c
  let s := (s.bump (chReg c Reg.CAM_AGE_CNT)).shapeToTrack c
  let s := s.modLoop c fun l => { l with revert := 3, autoDue := bit (s.creg c Reg.LOOP_CFG) 3 }
  s.loopAuto c old true

/-- TRACK to SHAPE (R184): the inner loop continues from LOOP_SP. -/
def State.trackToShape (s : State) (c : Ch) : State :=
  let sp := s.creg c Reg.LOOP_SP
  let ec := fsub (s.creg c Reg.LOOP_SP_CAM) s.loop[c].cam
  s.modLoop c fun l => { l with mode := .shape, ic := fsub sp (fmul (s.creg c Reg.SHP_KP) ec), spShape := sp, ec := ec,
                                loss := 0, freeze := 0, changed := true, autoDue := false }

/-- R188: the return to SHAPE. -/
def State.shapeReturn (s : State) (c : Ch) : State :=
  let old := s.loopStatus c
  (s.trackToShape c).loopAuto c old false

/-- A refused request (R184). -/
def State.loopRefuse (s : State) (c : Ch) (cause : Nat) : State :=
  let old := s.loopStatus c
  let s := s.modLoop c fun l => { l with refused := true, refCause := cause }
  s.logEvent (0x80 + c.val) 0 2 old (s.loopStatus c)

/-- Bumpless entry to TRACK or SHAPE from OPEN or HOLD (R185): the next stoke computes it. -/
def State.loopEnter (s : State) (c : Ch) (m : LoopMode) : State :=
  s.modLoop c fun l => { l with mode := m, entry := some (l.mode == .hold), loss := 0, freeze := 0, changed := true }

/-- R184–R186: a mode request is evaluated. -/
def State.modeRequest (s : State) (c : Ch) (v : Word) : State :=
  let l := s.loop[c]
  let s := s.modLoop c fun l => { l with refused := false, refCause := 0, revert := 0, autoDue := false, req := none }
  let noCam := (s.camOf c).isNone || decide (s.creg16 c Reg.CAM_AGE_MAX < l.camAge)
  if fld v 2 6 ≠ 0 then s.loopRefuse c 4
  else match fld v 0 2, l.mode with
    | 0, .open_ => s
    | 1, .track => s
    | 2, .shape => s
    | 3, .hold => s
    | 3, _ => s.modLoop c fun l => { l with mode := .hold, blendLeft := 0, entry := none, changed := true }
    | 0, _ =>
      match s.handover c (bit v 8) with
      | some l => s.modLoop c fun _ => l
      | none => (s.bump (chReg c Reg.HANDOVER_REF_CNT)).loopRefuse c 1
    | 1, .shape => if l.fbValid then s.shapeToTrack c else s.loopRefuse c 3
    | 1, _ => if l.fbValid then s.loopEnter c .track else s.loopRefuse c 3
    | _, .track => if !l.fbValid then s.loopRefuse c 3 else if noCam then s.loopRefuse c 2 else s.trackToShape c
    | _, _ => if !l.fbValid then s.loopRefuse c 3 else if noCam then s.loopRefuse c 2 else s.loopEnter c .shape

/-! The coefficient queue (R192). -/

/-- The registers marked Q. -/
def isCoef (o : Nat) : Bool := decide (0xA00C ≤ o ∧ o ≤ 0xA058) || decide (0xA200 ≤ o ∧ o ≤ 0xA2FC)

/-- A coefficient value may be applied: in its range, and the pairs stay ordered. -/
def State.coefOk (s : State) (c : Ch) (o : Nat) (v : Word) : Bool :=
  let r (k : Nat) := if k = o then v else s.creg c k
  (match regAt (chReg c o) with | some x => fieldsOk x.rd v | none => false)
    && !flt (r Reg.LOOP_I_MAX) (r Reg.LOOP_I_MIN) && !flt (r Reg.SHP_SP_MAX) (r Reg.SHP_SP_MIN)
    && decide (fld (r Reg.HANDOVER_TOL) 0 16 ≤ fld (r Reg.HANDOVER_LIMIT) 0 16)

/-- A program's write to a coefficient is logged (ports marked L in R101), as every other origin's is. -/
def State.coefApply (s : State) (c : Ch) : State :=
  match s.loop[c].queue with
  | [] => s
  | w :: r =>
    let s := s.modLoop c fun l => { l with queue := r }
    let o := w.addr - chReg c 0
    -- R8: bits outside the register's fields are not kept
    let v := match regAt w.addr with
      | some x => toW (w.val.toNat &&& fieldMask x.rd)
      | none => w.val
    if s.coefOk c o w.val then (s.setReg w.addr v).logPush w.org false w.addr 1 (s.reg w.addr) w.val
    else s.deny w.org w.addr w.val

/-- A coefficient write joins the queue, or is refused where it is full. -/
def State.coefJoin (s : State) (c : Ch) (w : Write) : State :=
  if 128 ≤ s.loop[c].queue.length then (s.deny w.org w.addr w.val).bump (chReg c Reg.COEF_DROP_CNT)
  else s.modLoop c fun l => { l with queue := l.queue ++ [w] }

/-- What the unit does at a boundary, in the order of R184. -/
def State.loopActs (s : State) (c : Ch) : State :=
  let l := s.loop[c]
  let s : State := if l.dueEntry then (s.modLoop c fun l => { l with dueEntry := false }).hwWrite (chReg c Reg.LOOP_TRIM) 0#32 else s
  let s : State := if l.dueNan then s.loopNan c
    else if l.dueLost then
      let s : State := if l.dueFrozen then s.bump (chReg c Reg.FREEZE_CNT) else s
      let s : State := if l.dueAged then s.bump (chReg c Reg.CAM_AGE_CNT) else s
      s.loopLost c
    else if l.dueFrozen then (if l.dueAged then s.bump (chReg c Reg.CAM_AGE_CNT) else s).loopFrozen c
    else if l.dueAged then s.loopAged c else s
  let s : State := s.modLoop c fun l => { l with dueNan := false, dueLost := false, dueFrozen := false, dueAged := false }
  let s : State := s.coefApply c
  let req := s.loop[c].req
  let s : State := match req with
    | none => s
    | some v => s.modeRequest c v
  let l : LoopU := s.loop[c]
  if l.autoDue ∧ l.mode = .track ∧ l.camAge = 0 ∧ bit (s.creg c Reg.LOOP_CFG) 3 = true then s.shapeReturn c else s

/-- The statistics and the camera word of the stoke that ends take their place for the next (R15, R177); `em` says whether
that stoke was emitting. -/
def State.loopInputs (s : State) (c : Ch) (pe pb : PdStat) (em : Bool) : State :=
  s.modLoop c fun l =>
    let l := { l with pdE := pe, pdB := pb }
    match l.camNew with
    | some w => { l with cam := w.2, camRaw := w.1, camAge := 0, camEmit := em, camNew := none }
    | none => { l with camAge := min 65535 (l.camAge + 1) }

/-- A rebinding of the pipeline: no statistic is held (R177). -/
def State.loopUnbind (s : State) (c : Ch) : State := s.modLoop c fun l => { l with camAge := 65535, camNew := none }

/-- One of the five words of a photodiode's statistics. -/
def PdStat.word (p : PdStat) (i : Nat) : Nat :=
  match i with
  | 0 => p.mean
  | 1 => p.peak
  | 2 => p.min
  | 3 => p.var
  | _ => p.flags

/-- The unit's read-only registers (R194). -/
def State.loopRead (s : State) (c : Ch) (o : Nat) : Option Word :=
  let l := s.loop[c]
  if o = Reg.LOOP_STATUS then some (toW (s.loopStatus c))
  else if o = Reg.LOOP_U then some l.u
  else if o = Reg.LOOP_I then some l.i
  else if o = Reg.LOOP_E then some l.e
  else if o = Reg.LOOP_FB then some l.fb
  else if o = Reg.LOOP_SP_USED then some l.sp
  else if o = Reg.SHP_I then some l.ic
  else if o = Reg.LOOP_CAM_AGE then some (toW l.camAge)
  else if o = Reg.LOOP_CAM_VAL then some l.camRaw
  else if o = Reg.LOOP_BLEND_LEFT then some (toW l.blendLeft)
  else if 0xA100 ≤ o ∧ o ≤ 0xA110 then some (toW (l.pdE.word ((o - 0xA100) / 4)))
  else if 0xA120 ≤ o ∧ o ≤ 0xA130 then some (toW (l.pdB.word ((o - 0xA120) / 4)))
  else none

end Sys2Proof.Machine
end

