-- ==== Sys2Proof/Machine/Trig.lean ====
section
/-! DEFINITION. Sine and cosine of small angles, rounded to binary64 (R139; log entry 7). -/

namespace Sys2Proof.Machine
open Sys2Proof

/-- One and the unit of the fixed-point series: 2^140. -/
def trigOne : Int := 2 ^ 140

/-- The Taylor series in fixed point: terms t^k / k! from k on, taken by fours into cosine and sine. -/
def trigSeries (t : Int) : Nat → Nat → Int → Int → Int → Int × Int
  | 0, _, _, c, s => (c, s)
  | n + 1, k, term, c, s =>
    let next := (term * t / trigOne) / ((k : Int) + 1)
    match k % 4 with
    | 0 => trigSeries t n (k + 1) next (c + term) s
    | 1 => trigSeries t n (k + 1) next c (s + term)
    | 2 => trigSeries t n (k + 1) next (c - term) s
    | _ => trigSeries t n (k + 1) next c (s - term)

/-- A finite binary64 value in units of 2^−140. -/
def fixOfD (x : D64) : Int :=
  match f64 x with
  | .fin s m e =>
    let v : Nat := if 0 ≤ e + 140 then m <<< (e + 140).toNat else m >>> (-(e + 140)).toNat
    if s then -(v : Int) else v
  | _ => 0

/-- cos and sin of an angle in radians below 2 in magnitude. -/
def cosSin (x : D64) : D64 × D64 :=
  let r := trigSeries (fixOfD x) 40 0 trigOne 0 0
  (dScale r.1 (-140), dScale r.2 (-140))

end Sys2Proof.Machine
end

