-- ==== Sys2Proof/Machine/Vec.lean ====
section
/-! DEFINITION. Scan vectors and the trajectory assist (R108–R123): prefetch, the record profile of EPS (R373) and its guard (R116), ring stops, restarts, and the descriptor's points. -/

namespace Sys2Proof.Machine
open Sys2Proof

/-! The record profile of EPS (R373). -/

/-- The bits of bytes, most significant first. -/
def bitsOf (bs : List Byte) : List Bool :=
  bs.flatMap fun b => [b.getLsbD 7, b.getLsbD 6, b.getLsbD 5, b.getLsbD 4, b.getLsbD 3, b.getLsbD 2, b.getLsbD 1, b.getLsbD 0]

/-- A number from bits, most significant first. -/
def natBits (bs : List Bool) : Nat := bs.foldl (fun a b => 2 * a + b.toNat) 0

/-- Leading ones, at most the fuel, and what follows the zero that ends them. -/
def ones : Nat → Nat → List Bool → Option (Nat × List Bool)
  | 0, q, r => some (q, r)
  | f + 1, q, true :: r => ones f (q + 1) r
  | _ + 1, q, false :: r => some (q, r)
  | _ + 1, _, [] => none

/-- One code of R370 with 32 bits to an escape: the mapped residual and the bits left. -/
def riceCode (k : Nat) (bs : List Bool) : Option (Nat × List Bool) :=
  match ones 32 0 bs with
  | none => none
  | some (q, r) =>
    let n := if q < 32 then k else 32
    if r.length < n then none
    else
      let v := natBits (r.take n)
      some (if q < 32 then q * 2 ^ k + v else v, r.drop n)

/-- The word of a mapped residual `m` and a prediction. -/
def riceWord (m : Nat) (pred : Word) : Word :=
  if 2 ^ 32 ≤ m then Config.riceWide m
  else pred + intW (if m % 2 = 0 then ((m / 2 : Nat) : Int) else -(((m + 1) / 2 : Nat) : Int))

/-- A block as far as its bytes reach: each output byte with the block bytes read when it is emitted, the block's length
once all of it is there, and whether it is malformed: then the length counts the bytes read up to the one that shows it. -/
structure Blk1 where
  outs : List (Byte × Nat)
  fin : Option Nat
  bad : Bool
  deriving DecidableEq, Repr

/-- The words of a RICE block: words left, bits left, the last words newest first, bits read so far. -/
def riceWords (k : Nat) : Nat → List Bool → List Word → Nat → Blk1
  | 0, bs, _, used =>
    let pad := (8 - used % 8) % 8
    ⟨[], some (2 + (used + pad) / 8), (bs.take pad).any id⟩
  | n + 1, bs, hist, used =>
    match riceCode k bs with
    | none => ⟨[], none, false⟩
    | some (m, r) =>
      let used := used + (bs.length - r.length)
      let w := riceWord m (nthD hist 7 0#32)
      let b := riceWords k n r (w :: hist.take 7) used
      { b with outs := (bytesLE w).map (fun x => (x, 2 + (used + 7) / 8)) ++ b.outs }

/-- The words of a RAW block, from word i on. -/
def rawWords : Nat → Nat → List Byte → Blk1
  | 0, i, _ => ⟨[], some (2 + 4 * i), false⟩
  | n + 1, i, b0 :: b1 :: b2 :: b3 :: r =>
    let b := rawWords n (i + 1) r
    { b with outs := [b0, b1, b2, b3].map (fun x => (x, 6 + 4 * i)) ++ b.outs }
  | _ + 1, _, _ => ⟨[], none, false⟩

/-- The eight words of a REPEAT block again and again, up to the byte that breaks the block cap. -/
def repeatBytes (bs : List Byte) : Nat → List (Byte × Nat)
  | 0 => []
  | n + 1 => bs.map (fun x => (x, 36)) ++ repeatBytes bs n

/-- A block of the record profile. -/
def blockOf (inp : List Byte) : Blk1 :=
  match inp with
  | [] => ⟨[], none, false⟩
  | h :: r =>
    let ty := h.toNat / 64
    let low := h.toNat % 64
    if ty = 3 ∨ (ty = 0 ∧ 32 ≤ low) ∨ (ty ≠ 0 ∧ low ≠ 0) then ⟨[], some 1, true⟩
    else match r with
      | [] => ⟨[], none, false⟩
      | n :: r =>
        if ty = 2 then
          if n.toNat ≠ 0 then ⟨[], some 2, true⟩
          else if r.length < 2 then ⟨[], none, false⟩
          else
            let cnt := natLE (r.take 2)
            if cnt = 0 then ⟨[], some 4, true⟩
            else if r.length < 34 then ⟨[], none, false⟩
            else ⟨repeatBytes ((r.drop 2).take 32) (min cnt 129), some 36, false⟩
        else if 63 < n.toNat then ⟨[], some 2, true⟩
        else if ty = 1 then rawWords (n.toNat + 1) 0 r
        else riceWords low (n.toNat + 1) (bitsOf r) [] 0

/-! Placing records (R109, R110, R113). -/

/-- Slots of the prefetch buffer. -/
def vecCap : Nat := 8192

/-- The path stops with a cause; the incomplete record is discarded (R113, R117). -/
def VecSt.halt (v : VecSt) (cause : Nat) : VecSt :=
  { v with stop := cause, errIdx := v.placed,
           dec := { v.dec with part := [], base := if v.dec.part.isEmpty then v.dec.base else v.dec.pBase } }

/-- The path is stopped and holds every record before the one that stopped it: it places no further record (R113). A stopped path whose
slots were discarded fetches them again (R111). -/
def VecSt.held (v : VecSt) : Bool := v.stop != 0 && decide (v.errIdx ≤ v.placed)

/-- A whole record arrives at the buffer: dropped by a refetch, refused by the checks of R109, or placed. -/
def VecSt.place (v : VecSt) (seq : Bool) (r : VRec) : VecSt :=
  if v.drop ≠ 0 then { v with drop := v.drop - 1 }
  else
    let ty := (nthD r.bytes 0 0#8).toNat
    if ty = 0 ∨ 0xF0 ≤ ty then v.halt 3
    else if seq && (nthD r.bytes 1 0#8).toNat != v.placed % 256 then v.halt 4
    else { v with buf := v.buf ++ [r], placed := v.placed + 1 }

/-- A record may not begin for want of a free slot. -/
def VecSt.full (v : VecSt) : Bool := decide (vecCap ≤ v.buf.length) && v.drop == 0 && v.dec.part.isEmpty

/-- Emit the bytes of the block in progress under the two caps of R116, `i` being the place of the first of them; the
answer says whether the block may go on. -/
def VecSt.emit (seq : Bool) (ratio : Nat) : List (Byte × Nat) → Nat → VecSt → VecSt × Bool
  | [], _, v => (v, true)
  | (b, rd) :: l, i, v =>
    if i < v.dec.skip then VecSt.emit seq ratio l (i + 1) { v with dec := { v.dec with done := i + 1 } }
    else if v.full then (v, false)
    else
      let d := v.dec
      let v := { v with inBytes := d.base + rd }
      if 4096 ≤ i then (v.halt 1, false)
      else if ratio * (d.base + rd) + 4096 < d.outB + i + 1 then (v.halt 2, false)
      else
        let d := if d.part.isEmpty then { d with pBase := d.base, pOff := i, pOut := d.outB } else d
        let d := { d with part := d.part ++ [b], done := i + 1 }
        let v := { v with dec := d, outBytes := d.outB + i + 1 }
        if d.part.length < 32 then VecSt.emit seq ratio l (i + 1) v
        else
          let v := ({ v with dec := { d with part := [] } }).place seq ⟨d.part, d.pBase, d.pOff, d.pOut⟩
          if v.held then (v, false) else VecSt.emit seq ratio l (i + 1) v

/-- Decode what is held, a block after another, until bytes or slots run out or the path stops. -/
def VecSt.decode (seq : Bool) (ratio : Nat) : Nat → VecSt → VecSt
  | 0, v => v
  | f + 1, v =>
    let d := v.dec
    if v.held || d.inp.isEmpty || v.full then v
    else if !d.hdr then
      if d.inp.length < 16 then { v with inBytes := d.base + d.inp.length }
      else
        let v := { v with inBytes := d.base + 16 }
        if d.inp.take 16 == 0xE5#8 :: 0x01#8 :: bz 14 then
          VecSt.decode seq ratio f { v with dec := { d with hdr := true, base := d.base + 16, inp := d.inp.drop 16 } }
        else v.halt 6
    else
      let b := blockOf d.inp
      match VecSt.emit seq ratio (b.outs.drop d.done) d.done v with
      | (v, false) => v
      | (v, true) =>
        if b.bad then ({ v with inBytes := v.dec.base + b.fin.getD 0 }).halt 6
        else match b.fin with
          | none => { v with inBytes := v.dec.base + v.dec.inp.length }
          | some n =>
            let d := v.dec
            let d' : EpsSt := { d with base := d.base + n, inp := d.inp.drop n, outB := d.outB + d.done, done := 0, skip := 0 }
            VecSt.decode seq ratio f { v with inBytes := d.base + n, dec := d' }

/-- Decode everything that can be decoded now. -/
def State.vecDrain (s : State) (c : Ch) : VecSt :=
  let v := s.vec[c]
  if v.eps then
    VecSt.decode (bit (s.reg (chReg c Reg.VEC_CFG)) 0) (s.regF (chReg c Reg.VEC_EPS_RATIO) 0 11) (v.dec.inp.length + 2) v
  else v

/-- The BAR2 offset of the buffer slot of stream number n (R19; log entry 8). -/
def vecSlot (c : Ch) (n : Nat) : Nat := 0x1000000 + 0x40000 * c.val + 32 * (n % vecCap)

/-- Write the last `n` records of the buffer into their slots. -/
def State.vecStore (s : State) (c : Ch) (v : VecSt) (n : Nat) : State :=
  let k := v.buf.length - n
  ((v.buf.drop k).foldl (fun (p : State × Nat) (r : VRec) => (p.1.put (vecSlot c p.2) r.bytes, p.2 + 1)) (s, v.placed - n)).1

/-- The vector ring of a channel. -/
def State.vecRing (s : State) (c : Ch) : Option Ring := s.findRing 1 c.val

/-- R358: the committed read index. -/
def VecSt.index (v : VecSt) : Nat :=
  if !v.eps then (v.start + v.stream) % 4294967296
  else
    let b := match v.buf with
      | r :: _ => r.base
      | [] => if v.dec.part.isEmpty then v.dec.base else v.dec.pBase
    (v.start + b / 32) % 4294967296

/-- RING_DEV_IDX follows the committed read index. -/
def State.vecIndex (s : State) (c : Ch) : State :=
  match s.vecRing c with
  | none => s
  | some r =>
    let n := idxDiff s.vec[c].index s.rings[r].dev
    if n = 0 then s else s.ringAdvanceN r n

/-- LOW follows the committed count, and its fall raises the channel's vector interrupt (R110). -/
def State.vecLow (s : State) (c : Ch) : State :=
  let v := s.vec[c]
  let low := decide (v.buf.length < s.regF (chReg c Reg.VEC_CFG) 16 13)
  let s := s.modVec c fun v => { v with low := low, above := !low }
  if low && v.above then s.chCause c 0 else s

/-- Take a new value of the path: records placed reach their slots, a new stop raises the vector interrupt (R113). -/
def State.vecTake (s : State) (c : Ch) (v : VecSt) : State :=
  let old := s.vec[c]
  let s := s.vecStore c v (v.placed - old.placed)
  let s := s.modVec c fun _ => v
  let s := if v.stop ≠ 0 ∧ old.stop = 0 then s.chCause c 0 else s
  (s.vecIndex c).vecLow c

/-- The prefetcher reads slot RING fetchIdx of the channel's own ring, or finds a read error (R16, R110, R113, R117). -/
def State.prefetch (s : State) (c : Ch) (data : Option (List Byte)) : State :=
  let s := s.vecTake c (s.vecDrain c)
  let v := s.vec[c]
  match s.vecRing c with
  | none => s
  | some r =>
    let u := s.rings[r]
    if u.st ≠ .run || u.closing || v.held || decide (vecCap ≤ v.buf.length) || v.fetchIdx == u.host then s
    else match data with
      | none => (s.vecTake c (v.halt 5)).ringStop r 1
      | some bs =>
        let bs := (bs ++ bz 32).take 32
        let v := { v with fetchIdx := (v.fetchIdx + 1) % 4294967296 }
        if v.eps then
          let v := { v with dec := { v.dec with inp := v.dec.inp ++ bs.drop v.dec.lead, lead := v.dec.lead - 32 } }
          let s := s.modVec c fun _ => v
          s.vecTake c (s.vecDrain c)
        else s.vecTake c (v.place (bit (s.reg (chReg c Reg.VEC_CFG)) 0) ⟨bs, 0, 0, 0⟩)

/-- The vector path of a channel is stopped, by its own cause or with its ring (R113, R114). -/
def State.vecStopped (s : State) (c : Ch) : Bool :=
  s.vec[c].stop != 0 || match s.vecRing c with
    | some r => s.rings[r].st == .stopped
    | none => false

/-- A decompressor that expects a stream header. -/
def EpsSt.fresh : EpsSt := ⟨false, 0, [], 0, 0, 0, 0, [], 0, 0, 0⟩

/-- What the device reads as DEV_IDX of an index block; 2^32 and up stand for a host read error. -/
def indexRead (aux : Nat) : Option Nat := if aux < 4294967296 then some aux else none

/-- R115: the vector path restarts from the device index that a ring in RUN loads (R357), or stops at a host read error
(R113); a ring that is not in RUN loads none. -/
def State.vecRestart (s : State) (c : Ch) (aux : Nat) : State :=
  let ring := (s.vecRing c).filter fun r => s.rings[r].st == .run
  let idx := match ring with
    | some r => (indexRead aux).getD s.rings[r].dev
    | none => s.vec[c].fetchIdx
  let s := s.modVec c fun v =>
    { v with buf := [], stream := 0, placed := 0, start := idx, fetchIdx := idx, drop := 0, stop := 0, underrun := false,
             inBytes := 0, outBytes := 0, eps := bit (s.reg (chReg c Reg.VEC_CFG)) 1, dec := EpsSt.fresh }
  match ring with
  | none => s.vecLow c
  | some r =>
    if aux < 4294967296 then (s.modRing r fun u => { u with dev := idx }).vecLow c
    else (s.vecTake c (s.vec[c].halt 5)).ringStop r 1

/-- Disabling the vector ring discards the buffer (R115). -/
def State.vecDiscard (s : State) (c : Ch) : State :=
  (s.modVec c fun v => { v with buf := [], placed := v.stream, dec := EpsSt.fresh }).vecLow c

/-- R111: slot `p` of the buffer is uncorrectable. It and every later slot are discarded and fetched again from the
committed read index, with the stream numbers unchanged. -/
def VecSt.refetch (v : VecSt) (p : Nat) : VecSt :=
  let f := nthD v.buf 0 ⟨[], 0, 0, 0⟩
  { v with buf := v.buf.take p, placed := v.stream + p, drop := p, fetchIdx := v.index,
           dec := { EpsSt.fresh with hdr := true, base := f.base, lead := f.base % 32, done := 0, skip := f.off, outB := f.outB } }

/-- R80, R111: the next record for a program that has popped `p` records in the stoke. -/
def State.vecPop (s : State) (c : Ch) (p : Nat) : Option (List Byte) × State :=
  let v := s.vec[c]
  match v.buf[p]? with
  | none => (none, s)
  | some r =>
    let a := vecSlot c (v.stream + p)
    match (List.range 8).find? fun i => s.isBad (a + 4 * i) with
    | none => (some r.bytes, s)
    | some i => (none, ((s.countUe (a + 4 * i)).bump (chReg c Reg.VEC_REFETCH_CNT)).modVec c fun v => v.refetch p)

/-- The pops of a stoke that commits: slots are freed, underruns counted (R110, R112). -/
def State.vecCommit (s : State) (c : Ch) (popped empty : Nat) (layer : Bool) : State :=
  let n := if layer then empty else 0
  let s := s.addCnt (chReg c Reg.VEC_UNDERRUN_CNT) n
  let s := s.modVec c fun v => { v with buf := v.buf.drop popped, stream := v.stream + popped, underrun := decide (0 < n) }
  s.vecTake c (s.vecDrain c)

/-- R114: a stopped path whose buffer is empty faults a channel in layer. -/
def State.vecStopFault (s : State) (c : Ch) : State :=
  if s.ch[c].inLayer && s.vecStopped c && s.vec[c].buf.isEmpty then s.faultDue c 7 else s

/-- VEC_STATUS and RING_STATUS (R118). -/
def State.vecStatus (s : State) (c : Ch) : Nat :=
  let v := s.vec[c]
  bitAt (s.vecStopped c) 0 + v.stop * 2 + bitAt v.low 4 + bitAt v.underrun 5 + bitAt v.eps 6 + (v.placed % 256) * 256

/-! The trajectory assist (R119–R123). -/

/-- A word of the committed descriptor, by port. -/
def State.taWord (s : State) (c : Ch) (p : Nat) : Word := s.reg (chReg c (Reg.TA_VIEW + 4 * (p - 0x40)))
/-- TA_MODE. -/
def State.taMode (s : State) (c : Ch) : Nat := (s.taWord c 0x40).toNat

/-- An integer saturated to 32 bits. -/
def satI32 (i : Int) : Int := clampI (-2147483648) 2147483647 i

/-- One line coordinate of R120. -/
def taLine (x0 v : Word) (n : Nat) : Int := satI32 (x0.toInt + (v.toInt * n + 0x8000).fdiv 65536)

/-- 2π in units of 2^−140 of a radian, rounded to nearest. -/
def twoPi140 : Int := 8757482160660207598466501616942045456798849

/-- Cosine and sine of phi · 2^−32 turn in units of 2^−60: the phase is brought to the nearest quarter turn first. -/
def cosSin60 (phi : Nat) : Int × Int :=
  let q := (phi + 2 ^ 29) / 2 ^ 30
  let r : Int := (phi : Int) - ((q * 2 ^ 30 : Nat) : Int)
  let cs := trigSeries (twoPi140 * r / 2 ^ 32) 40 0 trigOne 0 0
  let c := (cs.1 + 2 ^ 79) / 2 ^ 80
  let n := (cs.2 + 2 ^ 79) / 2 ^ 80
  match q % 4 with
  | 0 => (c, n)
  | 1 => (-n, c)
  | 2 => (-c, -n)
  | _ => (n, -c)

/-- R · cos or R · sin of the arc, rounded, with an error that R120 bounds and leaves open (log entry 9). -/
def taArc (r phi : Nat) (y : Bool) : Int :=
  let cs := cosSin60 phi
  let t : Int := (if y then cs.2 else cs.1) * r
  let d := clampI (-((r : Int) * 2 ^ 38)) ((r : Int) * 2 ^ 38) (Config.arcErr r phi y)
  (Q.mk' (t + d) (2 ^ 60)).rna

/-- k − TA_START as signed 32 bits. -/
def State.taDiff (s : State) (c : Ch) (k : Nat) : Int := (toW k - s.taWord c 0x48).toInt
/-- s of R120. -/
def State.taStep (s : State) (c : Ch) (k : Nat) : Nat := (clampI 0 (s.taWord c 0x47).toNat (s.taDiff c k)).toNat

/-- The setpoints last committed. -/
def State.setPoint (s : State) (c : Ch) : Int × Int × Int :=
  ((s.reg (axReg c 0 Reg.SV_SET)).toInt, (s.reg (axReg c 1 Reg.SV_SET)).toInt, (s.reg (axReg c 2 Reg.SV_SET)).toInt)

/-- P(k) in line or arc mode; the last setpoints otherwise (R120, R121). -/
def State.taPoint (s : State) (c : Ch) (k : Nat) : Int × Int × Int :=
  let m := s.taMode c
  let n := s.taStep c k
  let z := taLine (s.taWord c 0x43) (s.taWord c 0x46) n
  if m = 1 then (taLine (s.taWord c 0x41) (s.taWord c 0x44) n, taLine (s.taWord c 0x42) (s.taWord c 0x45) n, z)
  else if m = 2 then
    let phi := ((s.taWord c 0x4C).toInt + (s.taWord c 0x4D).toInt * n).emod 4294967296
    let r := (s.taWord c 0x4B).toNat
    (satI32 ((s.taWord c 0x49).toInt + taArc r phi.toNat false), satI32 ((s.taWord c 0x4A).toInt + taArc r phi.toNat true), z)
  else s.setPoint c

/-- TA_STATUS for stoke k (R119). -/
def State.taStatus (s : State) (c : Ch) (k : Nat) : Nat :=
  let d := s.taDiff c k
  let n : Int := (s.taWord c 0x47).toNat
  let on := s.taMode c == 1 || s.taMode c == 2
  bitAt (on && decide (0 < d ∧ d < n)) 0 + bitAt (on && decide (n ≤ d)) 1 + bitAt s.ta[c].conflict 2 + bitAt s.ta[c].bad 3

/-- The assist owns the setpoints (R121). -/
def State.taOwns (s : State) (c : Ch) : Bool := s.taMode c != 0

/-- A descriptor port's value is one that R119 keeps. -/
def taValueOk (p : Nat) (v : Word) : Bool :=
  if p = 0x40 then decide (v.toNat ≤ 3) else if p = 0x4B then decide (v.toNat < 2 ^ 30) else if p = 0x4E then decide (v.toNat < 65536) else true

/-- A PWR to a descriptor port commits, or is discarded with BAD (R119, R122). -/
def State.taWrite (s : State) (c : Ch) (p : Nat) (v : Word) : State :=
  if taValueOk p v then s.setReg (chReg c (Reg.TA_VIEW + 4 * (p - 0x40))) v
  else { s with ta := s.ta.set c.val { s.ta[c] with badNext := true } c.isLt }

/-- A setpoint write was discarded (R121). -/
def State.taConflict (s : State) (c : Ch) : State := { s with ta := s.ta.set c.val { s.ta[c] with conflictNext := true } c.isLt }

/-- The boundary that ends stoke k commits P(k), by the descriptor in force during k (R121, R122). -/
def State.taCommit (s : State) (c : Ch) (k : Nat) : State :=
  let m := s.taMode c
  if m = 1 ∨ m = 2 then
    let p := s.taPoint c k
    ((s.setReg (axReg c 0 Reg.SV_SET) (intW p.1)).setReg (axReg c 1 Reg.SV_SET) (intW p.2.1)).setReg (axReg c 2 Reg.SV_SET) (intW p.2.2)
  else s

/-- The flags of the stoke's writes reach the next snapshot (R119). -/
def State.taFlags (s : State) (c : Ch) : State :=
  { s with ta := s.ta.set c.val ⟨s.ta[c].conflictNext, s.ta[c].badNext, false, false⟩ c.isLt }

/-- A read of an assist port for stoke k; none for a port that is not there (R119). -/
def State.taPort (s : State) (c : Ch) (p k : Nat) : Option Word :=
  let look := if s.taMode c = 1 ∨ s.taMode c = 2 then k + (s.taWord c 0x4E).toNat else k
  if 0x40 ≤ p ∧ p ≤ 0x4E then some (s.taWord c p)
  else if p = 0x60 then some (intW (s.taPoint c k).1)
  else if p = 0x61 then some (intW (s.taPoint c k).2.1)
  else if p = 0x62 then some (intW (s.taPoint c k).2.2)
  else if p = 0x63 then some (toW (s.taStep c k))
  else if p = 0x64 then some (toW (s.taStatus c k))
  else if p = 0x65 then some (intW (s.taPoint c look).1)
  else if p = 0x66 then some (intW (s.taPoint c look).2.1)
  else none

end Sys2Proof.Machine
end

