-- ==== Sys2Proof/Machine/Sync.lean ====
section
/-! DEFINITION. The SYNC unit of each channel: one barrier at a time (R129–R133). -/

namespace Sys2Proof.Machine
open Sys2Proof

/-- The gang-wide number of a channel of this device (R129). -/
def State.gangCh (s : State) (c : Ch) : Nat := 24 * s.devNum + c.val

/-- The participants of a mask word triple. -/
def maskOf (m : Vector Word 3) : Nat := m[0].toNat + m[1].toNat * 2 ^ 32 + m[2].toNat * 2 ^ 64

/-- The gang-wide channels in a mask. -/
def maskList (m : Nat) : List Nat := (List.range 96).filter fun i => m.testBit i

/-- The latest arrival of a participant that the unit knows: ID and stoke. -/
def SyncSt.arrivalOf (u : SyncSt) (g : Nat) : Option (Word × Nat) := (u.known.find? fun x => x.1 == g).map fun x => (x.2.1, x.2.2.1)

/-- An arrival becomes known to a unit; the latest of each participant stands (log entry 10). -/
def SyncSt.learn (u : SyncSt) (g : Nat) (id : Word) (a k : Nat) : SyncSt :=
  { u with known := (g, id, a, k) :: u.known.filter fun x => x.1 != g }

/-- An arrival becomes known to every unit of the device. -/
def State.syncLearn (s : State) (g : Nat) (id : Word) (a : Nat) : State :=
  s.forCh fun s c => s.modSync c fun u => u.learn g id a s.time.cnt

/-- A written arrival commits at the boundary that ends stoke k, or is discarded while the unit waits (R130). -/
def State.syncArrive (s : State) (c : Ch) (k : Nat) : State :=
  let u := s.sync[c]
  if u.waiting then s.modSync c fun u => { u with refused := true }
  else
    let g := s.gangCh c
    let m := maskOf u.mask
    let m := if m.testBit g then m else m + 2 ^ g
    let t := if u.tmo = 0#32 then s.reg (chReg c Reg.SYNC_TIMEOUT_DEF) else u.tmo
    let s := s.modSync c fun u =>
      { u with waiting := true, released := false, timeout := false, mismatch := false, refused := false, skewed := false,
               arr := k, arrId := u.id, arrMask := m, arrTmo := t.toNat }
    s.syncLearn g u.id k

/-- The latest arrival stoke among the participants, once all are known with the barrier's ID (R131). -/
def SyncSt.complete (u : SyncSt) : Option Nat :=
  (maskList u.arrMask).foldl (fun (a : Option Nat) g =>
    match a, u.arrivalOf g with
    | some a, some (id, t) => if id = u.arrId then some (max a t) else none
    | _, _ => none) (some u.arr)

/-- R131: the barrier is released at the boundary that ends stoke k. -/
def SyncSt.releaseDue (u : SyncSt) (k : Nat) : Bool :=
  u.waiting && match u.complete with
    | some a => decide (a + 1 ≤ k)
    | none => false

/-- The release. -/
def State.syncRelease (s : State) (c : Ch) (k : Nat) : State :=
  let u := s.sync[c]
  if u.releaseDue k then
    let late := match u.complete with
      | some a => decide (a + 1 < k)
      | none => false
    s.modSync c fun u => { u with waiting := false, released := true, skewed := late, rel := toW k,
                                  known := u.known.filter fun x => !u.arrMask.testBit x.1 }
  else s

/-- R132: the timeout is due at the boundary that ends stoke k; a release comes first. -/
def SyncSt.timeoutDue (u : SyncSt) (k : Nat) : Bool := u.waiting && !u.releaseDue k && decide (u.arr + u.arrTmo ≤ k)

/-- The barrier is abandoned. -/
def State.syncTimeout (s : State) (c : Ch) (k : Nat) : State :=
  if s.sync[c].timeoutDue k then
    (s.modSync c fun u => { u with waiting := false, timeout := true }).bump (chReg c Reg.SYNC_TIMEOUT_CNT)
  else s

/-- A participant of the mask has arrived with another ID (SYNC_STATE.MISMATCH). -/
def State.syncMismatch (s : State) (c : Ch) : State :=
  let u := s.sync[c]
  if u.waiting && (maskList u.arrMask).any fun g => match u.arrivalOf g with
    | some (id, _) => id != u.arrId
    | none => false
  then s.modSync c fun u => { u with mismatch := true } else s

/-- What the boundary that ends stoke k does to one unit after the arrivals have committed (R131–R133). -/
def State.syncStep (s : State) (c : Ch) (k : Nat) : State := ((s.syncRelease c k).syncTimeout c k).syncMismatch c

/-- SYNC_STATE. -/
def State.syncState (s : State) (c : Ch) : Word :=
  let u := s.sync[c]
  let n := ((maskList u.arrMask).filter fun g => match u.arrivalOf g with
    | some (id, _) => id == u.arrId
    | none => false).length
  toW (bitAt u.waiting 0 + bitAt u.released 1 + bitAt u.timeout 2 + bitAt u.mismatch 3 + bitAt u.refused 4 + bitAt u.skewed 5
    + (if u.waiting then n else 0) * 256)

/-- A read of a barrier port (R129). -/
def State.syncPort (s : State) (c : Ch) (p : Nat) : Option Word :=
  let u := s.sync[c]
  if p = 0x2C0 then some u.id
  else if p = 0x2C1 then some (s.syncState c)
  else if p = 0x2C2 then some u.mask[0]
  else if p = 0x2C3 then some u.mask[1]
  else if p = 0x2C4 then some u.mask[2]
  else if p = 0x2C5 then some u.tmo
  else if p = 0x2C7 then some u.rel
  else none

/-- A PWR to a barrier port other than SYNC_ARRIVE commits. -/
def State.syncWrite (s : State) (c : Ch) (p : Nat) (v : Word) : State :=
  s.modSync c fun u =>
    if p = 0x2C0 then { u with id := v }
    else if p = 0x2C2 then { u with mask := u.mask.set 0 v }
    else if p = 0x2C3 then { u with mask := u.mask.set 1 v }
    else if p = 0x2C4 then { u with mask := u.mask.set 2 v }
    else if p = 0x2C5 then { u with tmo := v }
    else u

end Sys2Proof.Machine
end

