-- ==== Sys2Proof/Machine/Operands.lean ====
section
/-! DEFINITION. Every operand form of the Tuikin instruction set: registers, immediates, bit fields, DMEM and port addresses, and the static port map (R55, R65–R68, R76, R77, R101). -/

namespace Sys2Proof.Machine
open Sys2Proof

/-! Registers (R55). -/

/-- A register's value: w0 reads 0. -/
def Core.r (u : Core) (i : Reg) : Word := if i = 0 then 0#32 else u.w[i]
/-- Write a register: a write of w0 is discarded. -/
def Core.put (u : Core) (i : Reg) (v : Word) : Core := if i = 0 then u else { u with w := u.w.set i.val v i.isLt }
/-- The condition flags. -/
def Core.flg (u : Core) : Flg := ⟨u.z, u.n, u.c, u.v⟩
/-- Set the condition flags. -/
def Core.setFlg (u : Core) (f : Flg) : Core := { u with z := f.z, n := f.n, c := f.c, v := f.v }

/-! Immediates and bit fields (R67, R68). -/

/-- The zero-extended immediate. -/
def zextImm (i : BitVec 16) : Word := i.zeroExtend 32
/-- The length of a field from `pos`, ending at bit 31 at the latest; `l` is len − 1. -/
def bfLen (pos l : Fin 32) : Nat := min (l.val + 1) (32 - pos.val)

/-! DMEM (R76, R19). -/

/-- BAR2 offset of an engine's IMEM bank. -/
def imemBase (e : Fin 28) (bankB : Bool) : Nat := 0x1600000 + 0x20000 * e.val + (if bankB then 0x8000 else 0)
/-- BAR2 offset of an engine's DMEM. -/
def dmemBase (e : Fin 28) : Nat := 0x1600000 + 0x20000 * e.val + 0x10000
/-- BAR2 offset of a LUT table set: those of the channels, and the spare one as number 24 (R19, R106; log 64). -/
def lutSetAt (i : Nat) : Nat := 0x23B4000 + 0x8000 * i
/-- The channel's own engine. -/
def ownEng (c : Ch) : Fin 28 := ⟨c.val, by omega⟩
/-- The reserve engine of a cluster. -/
def resEng (k : Cl) : Fin 28 := ⟨24 + k.val, by omega⟩

/-- The engine whose DMEM a channel's program works on: the reserve's own in a planned swap (R283), else the channel's (R275). -/
def State.dmemEng (s : State) (c : Ch) : Fin 28 :=
  let k : Cl := ⟨c.val / 6, by omega⟩
  if (s.cl[k]).st = .swap ∧ (s.cl[k]).ch.val = c.val % 6 then resEng k else ownEng c
/-- BAR2 offset of the DMEM that a channel's program works on. DESIGN CHOICE (log 74): what R98 leaves undefined, the scratch area at
a stoke's start and the bytes outside the areas after a switch, failover, revert or overrun, stays as it was left. -/
def State.dmemOf (s : State) (c : Ch) : Nat := dmemBase (s.dmemEng c)

/-- The byte address w[a] + sext(imm), where it is in range and aligned for `n` bytes (R76). -/
def dmemAddr (base : Word) (imm : BitVec 16) (n : Nat) : Option Nat :=
  let a := base.toInt + imm.toInt
  if 0 ≤ a ∧ a + n ≤ 65536 ∧ a % (n : Int) = 0 then some a.toNat else none

/-- The port number w[a] + sext(imm), where it is in range (R77). -/
def portAddr (base : Word) (imm : BitVec 16) : Option Nat :=
  let a := base.toInt + imm.toInt
  if 0 ≤ a ∧ a ≤ 0x3FF then some a.toNat else none

/-! The port map (R101). -/

/-- The pipeline bound to a channel (R246). -/
def State.camBound (s : State) (c : Ch) : Option Cam := s.camOf c

/-- The register behind a port, where the map gives one: of the channel's block, or of the bound pipeline's. -/
def State.progPort (s : State) (c : Ch) (p : Nat) : Option Nat :=
  if 0x080 ≤ p ∧ p < 0x140 then some (chReg c (0x4000 + 4 * (p - 0x080)))
  else if 0x140 ≤ p ∧ p ≤ 0x142 then some (chReg c (0x8040 + 4 * (p - 0x140)))
  else if p = 0x143 then some (chReg c Reg.LAS_STATE)
  else if p = 0x144 then some (chReg c Reg.MON_MEAN)
  else if p = 0x145 then some (chReg c Reg.POWER_PLAYED)
  else if 0x180 ≤ p ∧ p < 0x1C0 then some (chReg c (0xA100 + 4 * (p - 0x180)))
  else if 0x1C0 ≤ p ∧ p < 0x200 then some (chReg c (0xA000 + 4 * (p - 0x1C0)))
  else if 0x200 ≤ p ∧ p < 0x240 then some (chReg c (0xA200 + 4 * (p - 0x200)))
  else if 0x280 ≤ p ∧ p < 0x2A0 then some (empReg c (4 * (p - 0x280)))
  else if 0x2A0 ≤ p ∧ p < 0x2C0 then some (empReg c (0x80 + 4 * (p - 0x2A0)))
  else if 0x300 ≤ p ∧ p < 0x340 then some (chReg c (0xC000 + 4 * (p - 0x300)))
  else if 0x260 ≤ p ∧ p ≤ 0x267 then (s.camBound c).map fun m => camReg m (0x100 + 4 * (p - 0x260))
  else none

/-- The writable ports without a register behind them. -/
def plainPort (p : Nat) : Bool :=
  decide (0x020 ≤ p ∧ p ≤ 0x024) || decide (0x030 ≤ p ∧ p ≤ 0x03F) || decide (0x040 ≤ p ∧ p ≤ 0x04E)
    || p == 0x2C0 || decide (0x2C2 ≤ p ∧ p ≤ 0x2C6)

/-- The ports that the FAULT entry may write (R93). -/
def faultPort (p : Nat) : Bool := p == 0x022 || p == 0x023 || p == 0x024 || decide (0x030 ≤ p ∧ p ≤ 0x03F)

/-- A PWR may write the port (R77, R93); a camera port of a channel without a pipeline takes and discards it (R246). -/
def State.portOk (s : State) (c : Ch) (p : Nat) (fault : Bool) : Bool :=
  if fault then faultPort p
  else plainPort p || decide (0x260 ≤ p ∧ p ≤ 0x267) || match s.progPort c p with
    | none => false
    | some a => match regAt a with
      | none => false
      | some x => decide (x.rd.by_ / 32 % 2 = 1)

/-- RING_AVAIL and SYNC_STATE, the two immediate ports (R79, R101); `popped` counts the stoke's records. -/
def State.immPort (s : State) (c : Ch) (p popped : Nat) : Option Word :=
  if p = 0x010 then some (toW (s.vec[c].buf.length - popped))
  else if p = 0x2C1 then some (s.syncState c)
  else none

end Sys2Proof.Machine
end

