-- ==== Sys2Proof/Machine/Tuikin.lean ====
section
/-! DEFINITION. How an engine issues one instruction (R54–R63, R72–R75, R86, R87): stalls, the budget, traps, loop ends and what an instruction may do. -/

namespace Sys2Proof.Machine
open Sys2Proof

/-- The place of a channel in its cluster. -/
def inCluster (c : Ch) : Fin 6 := ⟨c.val % 6, Nat.mod_lt _ (by decide)⟩

/-- The reserve of the channel's cluster runs the channel, after a failover or a planned swap (R275, R283). -/
def State.covered (s : State) (c : Ch) : Bool :=
  let k := s.cl[clusterOf c]
  (k.st == .cover || k.st == .swap) && k.ch == inCluster c && !k.wait

/-- The engine that runs a channel (R275). -/
def State.engOf (s : State) (c : Ch) : Fin 28 := if s.covered c then resEng (clusterOf c) else ownEng c

/-- The cycles an entry may use: the program budget, or 200 in the FAULT entry (R89, R93). -/
def State.engBudget (s : State) (e : Fin 28) : Nat := if s.eng[e].entry = .fault then 200 else s.budget

/-- Where an instruction leaves the program counter. -/
inductive Nxt where
  /-- to the next instruction, or through a loop's back-edge -/
  | seq
  /-- a control transfer -/
  | to (pc : Nat)
  /-- the entry ends -/
  | fin

/-- What an instruction does when it issues. -/
inductive Act where
  /-- a trap (R86) -/
  | trap (code : Nat)
  /-- the word at a BAR2 offset of the engine's memories is uncorrectable (R19) -/
  | ue (addr : Nat)
  /-- the two cores differ in an item of R53 (R270) -/
  | differ (item : Nat)
  /-- its effect, with its cost -/
  | go (cost : Nat) (eff : State → State) (nxt : Nxt)

/-- Flags usable by cycle `t` join FSTAT (R58). -/
def Core.fold (u : Core) (t : Nat) : Core :=
  { u with fstat := u.pend.foldl (fun a p => if p.ready ≤ t then a ||| p.fl.bits else a) u.fstat,
           pend := u.pend.filter fun p => decide (t < p.ready) }

/-- The cycle at which an instruction that uses the registers given may issue (R61); `all` waits for every binary32 result
(R58). w0 is no dependency. -/
def Core.issueAt (u : Core) (uses : List Reg) (all : Bool) : Nat :=
  u.pend.foldl (fun a p => if all || (p.d != 0 && uses.contains p.d) then max a p.ready else a) u.cycle

/-- ENG_FSTAT gathers FSTAT at END and at a trap (R58). -/
def State.engFstat (s : State) (c : Ch) (e : Fin 28) : State :=
  s.setBits (chReg c Reg.ENG_FSTAT) ((s.eng[e].fstat).zeroExtend 32)

/-- ENTRY of s4 and ENG_TRAP. -/
def entryCode : Entry → Nat
  | .stoke => 0
  | .layer => 1
  | .fault => 2

/-- R87, R93: the engine stops with a trap at its issue cycle; ENG_TRAP keeps the first. DESIGN CHOICE (log 73): R63 counts to END
and is silent on a stoke that traps; the trapping instruction counts as one cycle, whatever its cost. -/
def State.engTrap (s : State) (c : Ch) (e : Fin 28) (code addr : Nat) : State :=
  let u := s.eng[e]
  let s := s.engFstat c e
  let s := s.modEng e fun u => { u with run := .trapped, trapCode := code, trapAddr := addr, cycle := u.cycle + 1, pend := [] }
  let s := if u.entry = .fault then s.modCh c fun x => { x with fTrap := true } else s.bump (chReg c Reg.TRAP_CNT)
  if fld (s.reg (chReg c Reg.ENG_TRAP)) 0 8 = 0 then
    (s.setReg (chReg c Reg.ENG_TRAP) (toW (code + 256 * addr + 2097152 * entryCode u.entry + bitAt (decide (24 ≤ e.val)) 23))).setReg
      (chReg c Reg.ENG_TRAP_STOKE) s.stoke32
  else s

/-- R33, R63, R93: the budget stops the program; an overrun reports the budget plus one. -/
def State.engOver (s : State) (c : Ch) (e : Fin 28) : State :=
  let b := s.engBudget e
  let s := if s.eng[e].entry = .fault then s.modCh c fun x => { x with fOvr := true } else s
  s.modEng e fun u => { u with run := .overran, cycle := b + 1, pend := [] }

/-- The model's mark for an uncorrectable word of a reserve's own memory, beside the items of R53. -/
def ownMemItem : Nat := 6

/-- R270: the pair stops at the difference, two cycles after the leading core reached it. -/
def State.engDiffer (s : State) (e : Fin 28) (item : Nat) : State :=
  s.modEng e fun u => { u with run := .mismatched, item := item, cycle := u.cycle + 2, pend := [] }

/-- The program counter after an instruction (R72): at the end of the innermost loop the loop goes on or is left. -/
def Core.seqNext (u : Core) : Core :=
  match u.loops with
  | f :: r =>
    if u.pc = f.stop then
      if 1 < f.remaining then { u with pc := f.start, loops := { f with remaining := f.remaining - 1 } :: r }
      else { u with pc := f.stop + 1, loops := r }
    else { u with pc := u.pc + 1 }
  | [] => { u with pc := u.pc + 1 }

/-- R74: a taken transfer to `tgt` removes the loops whose body it leaves, with every loop inside them. -/
def Core.leave (u : Core) (tgt : Nat) : Core :=
  let n := ((u.loops.reverse).takeWhile fun f => decide (f.start ≤ tgt ∧ tgt ≤ f.stop)).length
  { u with loops := u.loops.drop (u.loops.length - n) }

/-- An engine as every entry finds it (R55); the stoke's counts run on (R63, R84). -/
def Core.enter (u : Core) (en : Entry) (pc : Nat) : Core :=
  { u with w := Vector.replicate 32 0#32, z := false, n := false, c := false, v := false, fstat := 0#5, pc := pc, entry := en,
           run := .run, loops := [], calls := [], pend := [] }

/-- R54, R63: past 0x1FFF the engine traps in place of the fetch, with the flags usable by then (R58). DESIGN CHOICE (log 73): a
RET to 0x2000, where its CALL stood at 0x1FFF, and a LOOP of count 0 that lands past 0x1FFF are transfers themselves, of which
R54 says nothing; they take this trap too, with the address 0x1FFF. -/
def State.engPast (s : State) (c : Ch) (e : Fin 28) : State :=
  if s.eng[e].pc ≤ 0x1FFF then s
  else if s.engBudget e ≤ s.eng[e].cycle then s.engOver c e
  else (s.modEng e fun u => u.fold u.cycle).engTrap c e 0x0B 0x1FFF

/-- R75: END finishes the entry; END of LAYER starts STOKE. -/
def State.engEnd (s : State) (c : Ch) (e : Fin 28) : State :=
  let u := s.eng[e]
  let s := s.engFstat c e
  match u.entry with
  | .layer =>
    let pc := match s.ch[c].active with
      | some m => m.entryStoke
      | none => 0
    s.modEng e fun u => u.enter .stoke pc
  | .stoke => s.modEng e fun u => { u with run := .idle, pend := [] }
  | .fault => (s.modEng e fun u => { u with run := .idle, pend := [] }).modCh c fun x => { x with fRan := true }

/-- One instruction of a channel's running entry (R60–R63): `uses` are the registers it reads or writes, `all` makes it wait
for every binary32 result, `ctrl` marks the instructions of R73. An engine that runs no entry does nothing. -/
def State.tuikin (s : State) (c : Ch) (uses : List Reg) (all ctrl : Bool) (act : Core → Fin 28 → Act) : State :=
  let e := s.engOf c
  let u := s.eng[e]
  let b := s.engBudget e
  if u.run ≠ .run ∨ s.halted then s
  else
    let t := u.issueAt uses all
    let stall := min t b - u.cycle
    if b ≤ t then (s.modEng e fun u => { u with stall := u.stall + stall }).engOver c e
    else
      let u := { u.fold t with cycle := t, stall := u.stall + stall }
      let s := s.modEng e fun _ => u
      let im := imemBase (ownEng c) s.ch[c].bankB + 4 * u.pc
      if s.isBad im then (s.countUe im).engDiffer e 0
      else if ctrl && (match u.loops with
          | f :: _ => u.pc == f.stop
          | [] => false) then s.engTrap c e 0x01 u.pc
      else match act u e with
        | .trap code => s.engTrap c e code u.pc
        | .ue a => (s.countUe a).engDiffer e (if 24 ≤ e.val ∧ dmemBase e ≤ a then ownMemItem else 0)
        | .differ item => s.engDiffer e item
        | .go cost eff nxt =>
          if b < t + cost then s.engOver c e
          else
            let s := (eff s).modEng e fun u => { u with cycle := t + cost }
            match nxt with
            | .seq => (s.modEng e Core.seqNext).engPast c e
            | .to pc => (s.modEng e fun u => { u with pc := pc }).engPast c e
            | .fin => s.engEnd c e

/-- The effect of writing one register. -/
def putReg (e : Fin 28) (d : Reg) (v : Word) (s : State) : State := s.modEng e fun u => u.put d v
/-- The effect of setting the flags. -/
def putFlg (e : Fin 28) (f : Flg) (s : State) : State := s.modEng e fun u => u.setFlg f

/-- An instruction of fixed cost that computes one register from the engine's state. -/
def State.aluOp (s : State) (c : Ch) (uses : List Reg) (d : Reg) (cost : Nat) (f : Core → Word) : State :=
  s.tuikin c (d :: uses) false false fun u e => .go cost (putReg e d (f u)) .seq

/-- An instruction of one cycle that sets the flags alone. -/
def State.cmpOp (s : State) (c : Ch) (uses : List Reg) (f : Core → Flg) : State :=
  s.tuikin c uses false false fun u e => .go 1 (putFlg e (f u)) .seq

/-- A binary32 instruction: result and FSTAT flags, its cost, and the cycles until both are usable (R58, R60). -/
def State.fpuOp (s : State) (c : Ch) (uses : List Reg) (d : Reg) (cost lat : Nat) (f : Core → Word × FFlags) : State :=
  s.tuikin c (d :: uses) false false fun u e =>
    let r := f u
    .go cost (fun s => s.modEng e fun u => { u.put d r.1 with pend := u.pend ++ [⟨d, r.2, u.cycle + lat⟩] }) .seq

end Sys2Proof.Machine
end

