-- ==== Sys2Proof/Machine/Alu.lean ====
section
/-! DEFINITION. The integer, fixed-point and immediate instructions (R65–R68). -/

namespace Sys2Proof.Machine
open Sys2Proof

/-! Values. -/

/-- ROR (R65). -/
def rorW (a : Word) (n : Nat) : Word := if n = 0 then a else (a >>> n) ||| (a <<< (32 - n))
/-- Leading zeros, counted down from bit `n`. -/
def clzFrom (a : Word) : Nat → Nat
  | 0 => 32
  | n + 1 => if bit a n then 31 - n else clzFrom a n
/-- CLZ (R65). -/
def clzW (a : Word) : Word := toW (clzFrom a 32)
/-- ABS (R65): the most negative number gives the most positive. -/
def absW (a : Word) : Word := sat32 a.toInt.natAbs
/-- The exact product shifted right with rounding: (a × b + r) >> s (R65). -/
def qProd (a b : Word) (s : Nat) : Int := (a.toInt * b.toInt + (if s = 0 then 0 else 2 ^ (s - 1))).fdiv (2 ^ s)
/-- The quotient by zero of DIV and QDIV (R66). -/
def divZero (a : Word) : Word := if a.toInt < 0 then 0x80000000#32 else 0x7FFFFFFF#32
/-- DIV (R65, R66): truncated toward zero; the one quotient out of range saturates. -/
def divW (a b : Word) : Word := if b = 0#32 then divZero a else sat32 (a.toInt.tdiv b.toInt)
/-- DIVU. -/
def divuW (a b : Word) : Word := if b = 0#32 then 0xFFFFFFFF#32 else toW (a.toNat / b.toNat)
/-- REM: the sign of a. -/
def remW (a b : Word) : Word := if b = 0#32 then a else intW (a.toInt.tmod b.toInt)
/-- REMU. -/
def remuW (a b : Word) : Word := if b = 0#32 then a else toW (a.toNat % b.toNat)
/-- QDIV (R65, R66). -/
def qdivW (a b : Word) (s : Nat) : Word := if b = 0#32 then divZero a else sat32 ((a.toInt * 2 ^ s).tdiv b.toInt)
/-- SHI (R67). -/
def shiW (k : Fin 4) (a : Word) (n : Nat) : Word :=
  match k with
  | 0 => a <<< n
  | 1 => a >>> n
  | 2 => a.sshiftRight n
  | 3 => rorW a n
/-- EXTU (R68). -/
def extuW (a : Word) (pos l : Fin 32) : Word := toW (fld a pos.val (bfLen pos l))
/-- EXTS (R68). -/
def extsW (a : Word) (pos l : Fin 32) : Word := intW (sx (bfLen pos l) (fld a pos.val (bfLen pos l)))
/-- INS (R68). -/
def insW (d a : Word) (pos l : Fin 32) : Word :=
  let n := bfLen pos l
  let m := toW ((2 ^ n - 1) * 2 ^ pos.val)
  (d &&& ~~~m) ||| toW (fld a 0 n * 2 ^ pos.val)

/-! R65, format R: two sources, one cycle. -/

/-- ADD. -/
def execAdd (c : Ch) (d a b : Reg) (s : State) : Ans := .next (s.aluOp c [a, b] d 1 fun u => u.r a + u.r b)
/-- SUB. -/
def execSub (c : Ch) (d a b : Reg) (s : State) : Ans := .next (s.aluOp c [a, b] d 1 fun u => u.r a - u.r b)
/-- AND. -/
def execAnd (c : Ch) (d a b : Reg) (s : State) : Ans := .next (s.aluOp c [a, b] d 1 fun u => u.r a &&& u.r b)
/-- OR. -/
def execOr (c : Ch) (d a b : Reg) (s : State) : Ans := .next (s.aluOp c [a, b] d 1 fun u => u.r a ||| u.r b)
/-- XOR. -/
def execXor (c : Ch) (d a b : Reg) (s : State) : Ans := .next (s.aluOp c [a, b] d 1 fun u => u.r a ^^^ u.r b)
/-- ANDN. -/
def execAndn (c : Ch) (d a b : Reg) (s : State) : Ans := .next (s.aluOp c [a, b] d 1 fun u => u.r a &&& ~~~(u.r b))
/-- SHL by b[4:0]. -/
def execShl (c : Ch) (d a b : Reg) (s : State) : Ans := .next (s.aluOp c [a, b] d 1 fun u => u.r a <<< fld (u.r b) 0 5)
/-- SHR, zero fill. -/
def execShr (c : Ch) (d a b : Reg) (s : State) : Ans := .next (s.aluOp c [a, b] d 1 fun u => u.r a >>> fld (u.r b) 0 5)
/-- SAR, sign fill. -/
def execSar (c : Ch) (d a b : Reg) (s : State) : Ans := .next (s.aluOp c [a, b] d 1 fun u => (u.r a).sshiftRight (fld (u.r b) 0 5))
/-- ROR. -/
def execRor (c : Ch) (d a b : Reg) (s : State) : Ans := .next (s.aluOp c [a, b] d 1 fun u => rorW (u.r a) (fld (u.r b) 0 5))
/-- MIN, signed. -/
def execMin (c : Ch) (d a b : Reg) (s : State) : Ans :=
  .next (s.aluOp c [a, b] d 1 fun u => if (u.r a).toInt ≤ (u.r b).toInt then u.r a else u.r b)
/-- MAX, signed. -/
def execMax (c : Ch) (d a b : Reg) (s : State) : Ans :=
  .next (s.aluOp c [a, b] d 1 fun u => if (u.r b).toInt ≤ (u.r a).toInt then u.r a else u.r b)
/-- MINU. -/
def execMinu (c : Ch) (d a b : Reg) (s : State) : Ans :=
  .next (s.aluOp c [a, b] d 1 fun u => if (u.r a).toNat ≤ (u.r b).toNat then u.r a else u.r b)
/-- MAXU. -/
def execMaxu (c : Ch) (d a b : Reg) (s : State) : Ans :=
  .next (s.aluOp c [a, b] d 1 fun u => if (u.r b).toNat ≤ (u.r a).toNat then u.r a else u.r b)
/-- SLT. -/
def execSlt (c : Ch) (d a b : Reg) (s : State) : Ans :=
  .next (s.aluOp c [a, b] d 1 fun u => if (u.r a).toInt < (u.r b).toInt then 1#32 else 0#32)
/-- SLTU. -/
def execSltu (c : Ch) (d a b : Reg) (s : State) : Ans :=
  .next (s.aluOp c [a, b] d 1 fun u => if (u.r a).toNat < (u.r b).toNat then 1#32 else 0#32)
/-- ADDS, saturated. -/
def execAdds (c : Ch) (d a b : Reg) (s : State) : Ans := .next (s.aluOp c [a, b] d 1 fun u => sat32 ((u.r a).toInt + (u.r b).toInt))
/-- SUBS, saturated. -/
def execSubs (c : Ch) (d a b : Reg) (s : State) : Ans := .next (s.aluOp c [a, b] d 1 fun u => sat32 ((u.r a).toInt - (u.r b).toInt))
/-- ABS. -/
def execAbs (c : Ch) (d a : Reg) (s : State) : Ans := .next (s.aluOp c [a] d 1 fun u => absW (u.r a))
/-- CLZ. -/
def execClz (c : Ch) (d a : Reg) (s : State) : Ans := .next (s.aluOp c [a] d 1 fun u => clzW (u.r a))
/-- SEL; a reserved condition is an illegal instruction (R59, R64). -/
def execSel (c : Ch) (d a b : Reg) (cond : BitVec 5) (s : State) : Ans :=
  .next (s.tuikin c [d, a, b] false false fun u e =>
    if condOk cond then .go 1 (putReg e d (if condHolds cond u.flg then u.r a else u.r b)) .seq else .trap 0x01)
/-- CMP. -/
def execCmp (c : Ch) (a b : Reg) (s : State) : Ans := .next (s.cmpOp c [a, b] fun u => subFlags (u.r a) (u.r b))
/-- TST. -/
def execTst (c : Ch) (a b : Reg) (s : State) : Ans := .next (s.cmpOp c [a, b] fun u => tstFlags (u.r a) (u.r b))
/-- MUL: the low word. -/
def execMul (c : Ch) (d a b : Reg) (s : State) : Ans := .next (s.aluOp c [a, b] d 1 fun u => u.r a * u.r b)
/-- MULH: the high word, signed. -/
def execMulh (c : Ch) (d a b : Reg) (s : State) : Ans :=
  .next (s.aluOp c [a, b] d 1 fun u => intW (((u.r a).toInt * (u.r b).toInt).fdiv 4294967296))
/-- MULHU: the high word, unsigned. -/
def execMulhu (c : Ch) (d a b : Reg) (s : State) : Ans := .next (s.aluOp c [a, b] d 1 fun u => hi32 ((u.r a).toNat * (u.r b).toNat))
/-- QMUL. -/
def execQmul (c : Ch) (d a b : Reg) (sh : Fin 32) (s : State) : Ans :=
  .next (s.aluOp c [a, b] d 1 fun u => sat32 (qProd (u.r a) (u.r b) sh.val))
/-- MAC. -/
def execMac (c : Ch) (d a b : Reg) (s : State) : Ans := .next (s.aluOp c [a, b] d 1 fun u => u.r d + u.r a * u.r b)
/-- QMAC. -/
def execQmac (c : Ch) (d a b : Reg) (sh : Fin 32) (s : State) : Ans :=
  .next (s.aluOp c [a, b] d 1 fun u => sat32 ((u.r d).toInt + qProd (u.r a) (u.r b) sh.val))

/-! R65, R66: sixteen cycles. -/

/-- DIV. -/
def execDiv (c : Ch) (d a b : Reg) (s : State) : Ans := .next (s.aluOp c [a, b] d 16 fun u => divW (u.r a) (u.r b))
/-- DIVU. -/
def execDivu (c : Ch) (d a b : Reg) (s : State) : Ans := .next (s.aluOp c [a, b] d 16 fun u => divuW (u.r a) (u.r b))
/-- REM. -/
def execRem (c : Ch) (d a b : Reg) (s : State) : Ans := .next (s.aluOp c [a, b] d 16 fun u => remW (u.r a) (u.r b))
/-- REMU. -/
def execRemu (c : Ch) (d a b : Reg) (s : State) : Ans := .next (s.aluOp c [a, b] d 16 fun u => remuW (u.r a) (u.r b))
/-- QDIV. -/
def execQdiv (c : Ch) (d a b : Reg) (sh : Fin 32) (s : State) : Ans := .next (s.aluOp c [a, b] d 16 fun u => qdivW (u.r a) (u.r b) sh.val)

/-! R67, R68: immediates and bit fields. -/

/-- ADDI. -/
def execAddi (c : Ch) (d a : Reg) (imm : BitVec 16) (s : State) : Ans := .next (s.aluOp c [a] d 1 fun u => u.r a + sextImm imm)
/-- ANDI. -/
def execAndi (c : Ch) (d a : Reg) (imm : BitVec 16) (s : State) : Ans := .next (s.aluOp c [a] d 1 fun u => u.r a &&& zextImm imm)
/-- ORI. -/
def execOri (c : Ch) (d a : Reg) (imm : BitVec 16) (s : State) : Ans := .next (s.aluOp c [a] d 1 fun u => u.r a ||| zextImm imm)
/-- XORI. -/
def execXori (c : Ch) (d a : Reg) (imm : BitVec 16) (s : State) : Ans := .next (s.aluOp c [a] d 1 fun u => u.r a ^^^ zextImm imm)
/-- LUI. -/
def execLui (c : Ch) (d : Reg) (imm : BitVec 16) (s : State) : Ans := .next (s.aluOp c [] d 1 fun _ => zextImm imm <<< 16)
/-- SHI. -/
def execShi (c : Ch) (d a : Reg) (k : Fin 4) (n : Fin 32) (s : State) : Ans := .next (s.aluOp c [a] d 1 fun u => shiW k (u.r a) n.val)
/-- CMPI. -/
def execCmpi (c : Ch) (a : Reg) (imm : BitVec 16) (s : State) : Ans := .next (s.cmpOp c [a] fun u => subFlags (u.r a) (sextImm imm))
/-- EXTU. -/
def execExtu (c : Ch) (d a : Reg) (pos len1 : Fin 32) (s : State) : Ans := .next (s.aluOp c [a] d 1 fun u => extuW (u.r a) pos len1)
/-- EXTS. -/
def execExts (c : Ch) (d a : Reg) (pos len1 : Fin 32) (s : State) : Ans := .next (s.aluOp c [a] d 1 fun u => extsW (u.r a) pos len1)
/-- INS. -/
def execIns (c : Ch) (d a : Reg) (pos len1 : Fin 32) (s : State) : Ans := .next (s.aluOp c [a] d 1 fun u => insW (u.r d) (u.r a) pos len1)

end Sys2Proof.Machine
end

