-- ==== Sys2Proof/Machine/Eps.lean ====
section
/-! DEFINITION. The image profile of EPS: predictor, codes, block choice, frame (R370–R372). -/

namespace Sys2Proof.Machine
open Sys2Proof

/-- The predictor of R370 from left, above and above-left. -/
def predict (a b c : Nat) : Nat := if max a b ≤ c then min a b else if c ≤ min a b then max a b else a + b - c

/-- The predictions of one line, given the line above (empty for the first line) and the pixels to the left. -/
def predLine : List Nat → List Nat → Option (Nat × Nat) → List Nat
  | [], _, _ => []
  | x :: xs, up, left =>
    let b := up.headD 0
    let p := match left, up.isEmpty with
      | none, true => 0
      | some l, true => l.1
      | none, false => b
      | some l, false => predict l.1 b l.2
    p :: predLine xs up.tail (some (x, b))

/-- The predictions of a frame, line by line. -/
def predFrame (w : Nat) : Nat → List Nat → List Nat → List Nat
  | 0, _, _ => []
  | h + 1, up, px => let l := px.take w; predLine l up none ++ predFrame w h l (px.drop w)

/-- The mapped residual of a sample (R370). -/
def mapRes (bits x pred : Nat) : Nat :=
  let d := (x + 2 ^ bits - pred % 2 ^ bits) % 2 ^ bits
  if d < 2 ^ (bits - 1) then 2 * d else 2 * (2 ^ bits - d) - 1

/-- The low `n` bits of a number, most significant first. -/
def bitsMsb : Nat → Nat → List Bool
  | 0, _ => []
  | n + 1, v => v.testBit n :: bitsMsb n v

/-- The length in bits of a code. -/
def codeLen (bits k m : Nat) : Nat := if m / 2 ^ k < 32 then m / 2 ^ k + 1 + k else 32 + bits
/-- A code. -/
def code (bits k m : Nat) : List Bool :=
  if m / 2 ^ k < 32 then List.replicate (m / 2 ^ k) true ++ [false] ++ bitsMsb k m else List.replicate 32 true ++ bitsMsb bits m

/-- The bytes of a bit string, most significant first, with pad bits of 0; the fuel is the number of bits. -/
def packBits : Nat → List Bool → List Byte
  | 0, _ => []
  | _ + 1, [] => []
  | f + 1, bs =>
    BitVec.ofNat 8 ((bs.take 8 ++ List.replicate (8 - (bs.take 8).length) false).foldl (fun a b => 2 * a + b.toNat) 0) :: packBits f (bs.drop 8)

/-- The cost in bits of a block at each K. -/
def riceCost (bits k : Nat) (ms : List Nat) : Nat := ms.foldl (fun a m => a + codeLen bits k m) 0
/-- The K of fewest bits, the lowest on a tie (R371). -/
def bestK (bits : Nat) (ms : List Nat) : Nat :=
  ((List.range bits).foldl (fun (a : Nat × Nat) k => let c := riceCost bits k ms; if c < a.2 then (k, c) else a) (0, riceCost bits 0 ms)).1

/-- One block and whether it is RAW (R371); `force` sends it raw (R19). -/
def epsBlock (bits : Nat) (force : Bool) (xs ms : List Nat) : List Byte × Bool :=
  let k := bestK bits ms
  let rice := 1 + (riceCost bits k ms + 7) / 8
  let raw := 1 + (xs.length * bits + 7) / 8
  if force || decide (raw ≤ rice) then (0x40#8 :: packBits (xs.length * bits + 1) (xs.flatMap (bitsMsb bits)), true)
  else (BitVec.ofNat 8 k :: packBits (riceCost bits k ms + 1) (ms.flatMap (code bits k)), false)

/-- The blocks of a frame, and how many are RAW, given for each block whether it must be. -/
def epsBlocks (bits : Nat) : List Bool → List Nat → List Nat → List Byte × Nat
  | [], _, _ => ([], 0)
  | f :: fs, xs, ms =>
    let b := epsBlock bits f (xs.take 64) (ms.take 64)
    let r := epsBlocks bits fs (xs.drop 64) (ms.drop 64)
    (b.1 ++ r.1, r.2 + (if b.2 then 1 else 0))

/-- BITS of a tap. -/
def tapBits (tap : Nat) : Nat := if tap = 0 then 12 else if tap = 1 then 20 else 24
/-- The output bound of R372 in bytes. -/
def epsBound (bits n : Nat) : Nat := (n * bits + 7) / 8 + (n + 63) / 64 + 16
/-- The pages that a frame reserves. -/
def epsPages (bits n : Nat) : Nat := (epsBound bits n + 4095) / 4096

/-- An image-profile frame and its number of RAW blocks, given for each block whether it must be. -/
def epsFrame (bits w h : Nat) (px : List Nat) (force : List Bool) : List Byte × Nat :=
  let n := w * h
  let ms := (px.zip (predFrame w h [] px)).map fun x => mapRes bits x.1 x.2
  let b := epsBlocks bits force px ms
  ([0xE5#8, 0#8, BitVec.ofNat 8 bits, 0#8] ++ bytesOfNatLE 2 w ++ bytesOfNatLE 2 h ++ bytesOfNatLE 4 n ++ bytesOfNatLE 4 0 ++ b.1, b.2)

end Sys2Proof.Machine
end

