-- ==== Sys2Proof/Machine/Frame.lean ====
section
/-! DEFINITION. Frames as data: shaping, merge, correction, statistics (R228, R234–R238). -/

namespace Sys2Proof.Machine
open Sys2Proof

/-! Capture (R227). -/

/-- The pixels of a line, of the codes that the PCLK edges of its LV period find on D, a rising edge first: those of rising edges alone with SDR. -/
def pclkPixels (sdr : Bool) (l : List Nat) : List Nat :=
  (l.zipIdx.filter fun x => !sdr || x.2 % 2 == 0).map fun x => x.1 % 4096

/-! Shaping (R228). -/

/-- One line brought to `w` pixels: short lines are padded with the pad value, or with the last pixel accepted. -/
def shapeLine (w : Nat) (pad : Option Nat) (padVal : Nat) (last : Option Nat) (l : List Nat) : List Nat × Option Nat :=
  let k := l.take w
  let last := match k.getLast? with | some x => some x | none => last
  let p := match pad with | some v => v | none => last.getD padVal
  (k ++ List.replicate (w - k.length) p, last)

/-- The lines of a frame brought to `h` lines. -/
def shapeLines (w : Nat) (pad : Option Nat) (padVal : Nat) : Nat → Option Nat → List (List Nat) → List Nat
  | 0, _, _ => []
  | h + 1, last, [] =>
    (shapeLine w pad padVal last []).1 ++ shapeLines w pad padVal h last []
  | h + 1, last, l :: r =>
    let x := shapeLine w pad padVal last l
    x.1 ++ shapeLines w pad padVal h x.2 r

/-- The flags of a frame: LN_SHORT, LN_LONG, FR_SHORT, FR_LONG and TMO from bit 0. -/
def shapeFlags (w h : Nat) (tmo : Bool) (ls : List (List Nat)) : Nat :=
  let l := ls.take h
  bitAt (l.any fun x => decide (x.length < w)) 0 + bitAt (l.any fun x => decide (w < x.length)) 1 + bitAt (decide (ls.length < h)) 2
    + bitAt (decide (h < ls.length)) 3 + bitAt tmo 4

/-! Merge and correction (R234–R236). -/

/-- The better of two members at a pixel, each its exposure, raw code and index: the longest exposure not saturated, or the
shortest where both are saturated; equal exposures go to the earlier. -/
def pickMember (sat : Nat) (a b : Nat × Nat × Nat) : Nat × Nat × Nat :=
  let sa := decide (sat ≤ a.2.1)
  let sb := decide (sat ≤ b.2.1)
  if sa && sb then (if b.1 < a.1 then b else a) else if sa then b else if sb then a else if a.1 < b.1 then b else a

/-- The member that a pixel selects: its exposure, raw code and index. -/
def selectMember (sat : Nat) : List (Nat × Nat × Nat) → Nat × Nat × Nat
  | [] => (1, 0, 0)
  | c :: r => r.foldl (pickMember sat) c

/-- The merged value of a pixel that selects a member, and whether it counts as saturated; `tl` is none for a set of one. -/
def mergePixel (lin : Nat → Nat) (sat shift : Nat) (tl : Option Nat) (m : Nat × Nat × Nat) : Nat × Bool :=
  let l := lin m.2.1
  let v := match tl with
    | none => l
    | some t => min 0xFFFFFF ((2 * l * t + m.1 * 2 ^ shift) / (2 * m.1 * 2 ^ shift))
  (v, decide (sat ≤ m.2.1))

/-- The nearest integer of a quotient, ties to even. -/
def divRne (a : Int) (b : Nat) : Int := (Q.mk' a b).rne

/-- The corrected value; `df` is the dark and flat entry, none with the correction off. -/
def correct (merged : Nat) (dcam : Int) (shift : Nat) (df : Option Word) : Nat :=
  let v : Int := match df with
    | none => (merged : Int) - dcam
    | some e => divRne (((merged : Int) - ((fld e 0 16 * 2 ^ shift : Nat) : Int) - dcam) * ((fld e 16 16 : Nat) : Int)) 16384
  (clampI 0 0xFFFFFF v).toNat

/-! Statistics (R238). -/

/-- A quotient rounded to an integer with a direction that no rule states (log entry 14). -/
def divOpen (a : Int) (b : Nat) : Int :=
  let q := a.fdiv b
  if q * b = a then q else if Config.roundUp a b then q + 1 else q

/-- The square root of a nonnegative rational, to 100 binary places. -/
def qSqrt (q : Q) : Q :=
  Q.mk' (isqrt (q.num.toNat * q.den * 2 ^ 200) : Nat) (q.den * 2 ^ 100)

/-- atan of z · 2^−140 for |z| at most 0.2 · 2^140: the alternating series. -/
def atanSeries (z z2 : Int) : Nat → Nat → Int → Int → Int
  | 0, _, _, acc => acc
  | f + 1, k, p, acc =>
    let t := p / ((2 * k + 1 : Nat) : Int)
    atanSeries z z2 f (k + 1) (p * z2 / 2 ^ 140) (if k % 2 = 0 then acc + t else acc - t)

/-- Half the argument's tangent: z / (1 + √(1 + z²)) in units of 2^−140. -/
def tanHalf (z : Int) : Int :=
  let one : Nat := 2 ^ 140
  let r := isqrt (one * one + (z * z).toNat)
  z * one / ((one + r : Nat) : Int)

/-- atan of z · 2^−140, for |z| at most 2^140. -/
def atanFix (z : Int) : Int :=
  let h := tanHalf (tanHalf z)
  4 * atanSeries h (h * h / 2 ^ 140) 45 0 h 0

/-- π in units of 2^−140. -/
def pi140 : Int := 4378741080330103799233250808471022728399424

/-- atan2(y, x) in units of 2^−140 of a radian, the arguments not both 0. -/
def atan2Fix (y x : Int) : Int :=
  let one : Int := 2 ^ 140
  if y.natAbs ≤ x.natAbs then
    let a := atanFix (y * one / x)
    if 0 < x then a else if 0 ≤ y then a + pi140 else a - pi140
  else
    let a := atanFix (x * one / y)
    (if 0 < y then pi140 / 2 else -(pi140 / 2)) - a

/-- Two pixels touch, across a corner or a side. -/
def touch8 (a b : Nat × Nat) : Bool :=
  decide (a.1 ≤ b.1 + 1) && decide (b.1 ≤ a.1 + 1) && decide (a.2 ≤ b.2 + 1) && decide (b.2 ≤ a.2 + 1)

/-- One 8-connected region: pixels to expand, pixels left, pixels found. -/
def growRegion : Nat → List (Nat × Nat) → List (Nat × Nat) → List (Nat × Nat) → List (Nat × Nat) × List (Nat × Nat)
  | 0, _, rest, acc => (acc, rest)
  | _ + 1, [], rest, acc => (acc, rest)
  | f + 1, p :: fr, rest, acc =>
    let s := rest.partition (touch8 p)
    growRegion f (s.1 ++ fr) s.2 (p :: acc)

/-- The 8-connected regions of a list of pixels. -/
def regions : Nat → List (Nat × Nat) → List (List (Nat × Nat))
  | 0, _ => []
  | _ + 1, [] => []
  | f + 1, p :: r =>
    let x := growRegion (r.length + 2) [p] r []
    x.1 :: regions f x.2

/-- Statistics words 0–12 of the corrected values of a frame of width `w`; `line` leaves words 2–9 at 0. -/
def statWords (w : Nat) (thr1 thr2 : Nat) (spat : Word) (line : Bool) (sat : Nat) (v : List Nat) : List Word × Bool :=
  let px := v.zipIdx.map fun x => (x.1, x.2 % w, x.2 / w)
  let hot := (px.filter fun p => decide (thr1 < p.1)).map fun p => (p.1 - thr1, p.2)
  let sum (f : Nat × Nat × Nat → Nat) : Nat := hot.foldl (fun a p => a + f p) 0
  let sw := sum (·.1)
  let sx := sum fun p => p.1 * p.2.1
  let sy := sum fun p => p.1 * p.2.2
  let sxx := sum fun p => p.1 * p.2.1 * p.2.1
  let syy := sum fun p => p.1 * p.2.2 * p.2.2
  let sxy := sum fun p => p.1 * p.2.1 * p.2.2
  let mom (a b c : Nat) : Q := Q.mk' ((a * sw : Nat) - (b * c : Nat) : Int) (sw * sw)
  let mxx := mom sxx sx sx
  let myy := mom syy sy sy
  let mxy := mom sxy sx sy
  let d := mxx.add (myy.scale 1 1)
  let df := mxx.sub myy
  let r := qSqrt ((df.mul df).add ((mxy.mul mxy).scale 4 1))
  let l1 := (d.add r).scale 1 2
  let l2 := (d.sub r).scale 1 2
  let root (q : Q) : Word := if q.num ≤ 0 then 0#32 else ((qSqrt q).scale 4 1).toF
  let ori : Word :=
    if mxy.num = 0 ∧ df.num = 0 then Config.orientFlat sw
    else
      let y := (mxy.scale 2 1).num * df.den
      let x := df.num * (mxy.scale 2 1).den
      intW (divOpen (atan2Fix y x * 2 ^ 32) (4 * pi140).toNat)
  let peak := v.foldl max 0
  let at_ := match v.zipIdx.find? (fun x => x.1 == peak) with
    | some x => (x.2 % w, x.2 / w)
    | none => (0, 0)
  let bright := (px.filter fun p => decide (fld spat 0 24 < p.1)).map (·.2)
  let nsp := ((regions (bright.length + 1) bright).filter fun g => decide (fld spat 24 8 ≤ g.length) && !g.contains at_).length
  let shape := if sw = 0 ∨ line = true then List.replicate 8 0#32
    else [intW (divOpen (sx * 65536 : Nat) sw), intW (divOpen (sy * 65536 : Nat) sw), mxx.toF, myy.toF, mxy.toF, root l1, root l2, ori]
  ([toW (v.filter fun x => decide (thr1 < x)).length, toW (v.filter fun x => decide (thr2 < x)).length] ++ shape
    ++ [toW peak, (Q.ofInt (v.foldl (· + ·) 0 : Nat)).toF, toW (min nsp 15 + sat * 16)], sw == 0)

end Sys2Proof.Machine
end

