-- ==== Sys2Proof/Machine/Hk.lean ====
section
/-! DEFINITION. Housekeeping: temperatures, thresholds, external limits, dips and the records of RING.90 (R412–R428). -/

namespace Sys2Proof.Machine
open Sys2Proof

/-- TEMP[i] (R428); it reads 0 until the first round has ended. -/
def tempWord (t : TempIn) : Word :=
  toW ((BitVec.ofInt 16 t.value).toNat + bitAt t.valid 16 + t.fault * 131072)
/-- The TEMP register of input i. -/
def State.tempReg (s : State) (i : Fin 22) : Word := if s.hk.rounds = 0 then 0#32 else tempWord s.hk.temps[i]
/-- The indices of the die sensors. -/
def dieIdx : List (Fin 22) := [0, 1, 2, 3, 4, 5]
/-- Valid die sensors (DIE_VALID). -/
def State.dieValid (s : State) : Nat := (dieIdx.filter fun (i : Fin 22) => s.hk.temps[i].valid).length
/-- The indices 0 … 15. -/
def all16 : List (Fin 16) := List.finRange 16
/-- The indices 0 … 11. -/
def all12 : List (Fin 12) := List.finRange 12
/-- The indices 0 … 21. -/
def all22 : List (Fin 22) := List.finRange 22
/-- EXT_WARN. -/
def State.extWarn (s : State) : Nat := all16.foldl (fun (a : Nat) (i : Fin 16) => a + bitAt s.hk.ext[i].set i.val) 0
/-- HK_STATUS. -/
def State.hkStatus (s : State) : Nat :=
  s.hk.level + bitAt s.hk.thr[0].set 3 + bitAt (!s.hk.heldBy.isEmpty) 4 + bitAt (decide (s.dieValid < 6)) 5 + s.dieValid * 256
    + bitAt (decide (s.extWarn ≠ 0)) 11 + bitAt (decide (s.reg (hkReg Reg.SUP_DIP) ≠ 0)) 12
/-- SUP_V[r]. -/
def railWord (r : RailMon) : Word := toW (r.mv % 65536 + bitAt r.below 16)
/-- BANK_STATUS. -/
def State.bankStatus (s : State) : Nat := bitAt s.bank.low 0 + bitAt s.bank.bankLost 1 + bitAt s.bank.oscOk 2

/-- The four temperatures of R415 in 1/64 °C: Warning, L1, L2, L3. -/
def thrTemp (i : Fin 4) : Int := if i = 0 then 6080 else if i = 1 then 6400 else if i = 2 then 6656 else 6848

/-- R414: one round of one threshold at T; `count` is false while the level is held, when exits do not count. -/
def Thr.round (h : Thr) (t : Int) (v : Option Int) (count : Bool) : Thr :=
  match v with
  | none => { h with entry := 0, exit := 0 }
  | some x =>
    let en := if t < x then h.entry + 1 else 0
    let ex := if x < t - 192 ∧ count = true then h.exit + 1 else 0
    { set := if 4 ≤ en then true else if 4 ≤ ex then false else h.set, entry := min en 4, exit := min ex 4 }

/-- R413: one input takes its reading and fault code of the round; a reading outside −40 to +150 °C is a fault of its own. -/
def State.tempRound (s : State) (i : Fin 22) (v : Int) (f : Nat) : State :=
  let t := s.hk.temps[i]
  let f := if f = 0 ∧ (v < -2560 ∨ 9600 < v) then 3 else f
  let t' : TempIn :=
    if f ≠ 0 then ⟨v, false, f, 0⟩
    else if t.valid then { t with value := v }
    else if 3 ≤ t.clean then ⟨v, true, 0, 0⟩
    else { t with value := v, clean := t.clean + 1 }
  let s' := { s with hk := { s.hk with temps := s.hk.temps.set i.val t' i.isLt } }
  if f ≠ 0 ∧ t.valid = true then
    let s' := if i.val < 6 ∧ 1 ≤ s.hk.level then { s' with hk := { s'.hk with heldBy := i.val :: s'.hk.heldBy } } else s'
    let s' := (s'.bump (hkReg Reg.SENS_FAULT_CNT)).logEvent 0xC1 i.val 1 (tempWord t).toNat (tempWord t').toNat
    s'.raiseEv 0xC1 i.val f s'.hkStatus
  else s'

/-- R417: a held sensor that is valid again leaves the hold; a hold that empties has ended in this round. -/
def State.holdRound (s : State) : State :=
  let by' := s.hk.heldBy.filter fun n => dieIdx.any fun (i : Fin 22) => i.val == n && !s.hk.temps[i].valid
  { s with hk := { s.hk with heldBy := by', released := s.hk.released || (by'.isEmpty && !s.hk.heldBy.isEmpty) } }

/-- Tj: the highest valid die sensor (R414). -/
def State.tjOf (s : State) : Option Int :=
  (dieIdx.filter fun (i : Fin 22) => s.hk.temps[i].valid).foldl
    (fun (a : Option Int) (i : Fin 22) =>
      let v := s.hk.temps[i].value
      match a with
      | none => some v
      | some x => some (max x v)) none

/-- R415: the level that the thresholds give. -/
def levelOf (t : Vector Thr 4) : Nat := if t[3].set then 3 else if t[2].set then 2 else if t[1].set then 1 else 0

/-- R414, R416: the thresholds and the level of a round. -/
def State.levelRound (s : State) : State :=
  let tj := s.tjOf
  let count := s.hk.heldBy.isEmpty && !s.hk.released
  let thr := all4.foldl (fun (a : Vector Thr 4) (i : Fin 4) => a.set i.val (a[i].round (thrTemp i) tj count) i.isLt) s.hk.thr
  let lv := levelOf thr
  let old := s.hk.level
  let warn := thr[0].set && !s.hk.thr[0].set
  let s := { s with hk := { s.hk with thr := thr, level := lv, tj := tj.getD s.hk.tj, released := false } }
  let s := if warn then s.raiseEv 0xC1 0 0 s.hkStatus else s
  if lv = old then s
  else
    let s := if old = 0 then s.bump (hkReg Reg.THROTTLE_CNT) else s
    let s := s.logPush .hw false (hkReg Reg.HK_STATUS) 0x14 (toW old) (toW lv)
    (s.evPulse 0x0F2).raiseEv 0xC1 0 lv s.hkStatus

/-- R418: the limit of external input i. -/
def State.extRound (s : State) (i : Fin 16) : State :=
  let cfg := s.reg (hkReg (Reg.EXT_CFG + 4 * i.val))
  let t := s.hk.temps[(⟨i.val + 6, by omega⟩ : Fin 22)]
  let h := s.hk.ext[i]
  let h' : Thr := if bit cfg 16 then h.round (sx 16 (fld cfg 0 16)) (if t.valid then some t.value else none) true else ⟨false, 0, 0⟩
  let old := s.extWarn
  let s := { s with hk := { s.hk with ext := s.hk.ext.set i.val h' i.isLt } }
  if h'.set = h.set then s
  else (s.logEvent 0xC1 i.val 2 old s.extWarn).raiseEv 0xC1 i.val 0 s.hkStatus

/-- R427: the temperature record. -/
def State.hkRecT (s : State) (round : Nat) (gap : Bool) : List Byte :=
  [1#8, b8 s.devNum, b8 (s.hk.level + bitAt s.hk.thr[0].set 3 + bitAt (!s.hk.heldBy.isEmpty) 4 + bitAt gap 5), b8 round]
    ++ b32 s.stoke32.toNat ++ b32 s.tai.1
    ++ b32 (all22.foldl (fun (a : Nat) (i : Fin 22) => a + bitAt s.hk.temps[i].valid i.val) 0)
    ++ all22.flatMap (fun (i : Fin 22) => b16 (BitVec.ofInt 16 s.hk.temps[i].value).toNat)
    ++ b16 (BitVec.ofInt 16 s.hk.tj).toNat ++ bz 2

/-- R427: the supply record; `lows` are the lowest samples of the round. -/
def State.hkRecS (s : State) (round : Nat) (lows : List Nat) (gap : Bool) : List Byte :=
  [2#8, b8 s.devNum, b8 (bitAt gap 0), b8 round] ++ b32 s.stoke32.toNat ++ b32 s.tai.1
    ++ b32 (all12.foldl (fun (a : Nat) (i : Fin 12) => a + bitAt s.hk.rails[i].dipRound i.val + bitAt s.hk.rails[i].below (i.val + 16)) 0)
    ++ all12.flatMap (fun (i : Fin 12) => b16 s.hk.rails[i].mv) ++ all12.flatMap (fun (i : Fin 12) => b16 (nthD lows i.val 0))

/-- R412–R418, R427: the values of a round are evaluated: temperatures with their fault codes, rails with their mean, their
lowest sample and whether they end below warning. -/
def State.hkEval (s : State) (temps : List (Int × Nat)) (rails : List (Nat × Nat × Bool)) : State :=
  let round := if s.time.running then s.time.cnt / 512 else s.hk.rounds
  let s := { s with hk := { s.hk with rounds := s.hk.rounds + 1 } }
  let s := all22.foldl (fun (s : State) (i : Fin 22) => let x := nthD temps i.val (0, 0); s.tempRound i x.1 x.2) s
  let s := s.holdRound.levelRound
  let s := all16.foldl (fun (s : State) (i : Fin 16) => s.extRound i) s
  let rl := all12.foldl (fun (a : Vector RailMon 12) (i : Fin 12) =>
    let x := nthD rails i.val (0, 0, false)
    a.set i.val { a[i] with mv := x.1, below := x.2.2 } i.isLt) s.hk.rails
  let s := { s with hk := { s.hk with rails := rl } }
  let s := s.emitRole 8 0 (s.hkRecT round)
  let s := s.emitRole 8 0 (s.hkRecS round (rails.map fun x => x.2.1))
  { s with hk := { s.hk with rails := all12.foldl (fun (a : Vector RailMon 12) (i : Fin 12) =>
    a.set i.val { a[i] with dipRound := false } i.isLt) s.hk.rails } }

/-! Dips (R422–R424). -/

/-- The converter die whose analog rail a monitor watches. -/
def dieOfMon (m : Nat) : Option (Fin 2) :=
  if m = 7 ∨ m = 9 then some 0 else if m = 8 ∨ m = 10 then some 1 else none
/-- A monitor of the die is below its warning level now. -/
def State.dieLow (s : State) (d : Fin 2) : Bool := all12.any fun (i : Fin 12) => s.hk.rails[i].low && dieOfMon i.val == some d
/-- Samples of the present stoke on a die are suspect (R424). -/
def State.dipSuspect (s : State) (d : Fin 2) : Bool :=
  s.dieLow d || (match s.hk.dips[d].suspect with | none => false | some k => decide (s.time.cnt ≤ k))
/-- The gates of a die's channels are masked in the present pin stoke (R424). -/
def State.dipGate (s : State) (d : Fin 2) : Bool :=
  s.dieLow d || (match s.hk.dips[d].gate with | none => false | some k => decide (s.time.cnt ≤ k))
/-- The later of a window's end and a stoke. -/
def laterEnd (a : Option Nat) (k : Nat) : Option Nat := some (max (a.getD 0) k)

/-- An excursion below warning begins on monitor m. -/
def State.dipBegin (s : State) (m : Fin 12) (mv : Nat) : State :=
  let r := s.hk.rails[m]
  if r.low then { s with hk := { s.hk with rails := s.hk.rails.set m.val { r with lowest := min r.lowest mv } m.isLt } }
  else
    let dgs := s.regF (hkReg Reg.DIP_GATE_STOKES) 0 16
    { s with hk := { s.hk with rails := s.hk.rails.set m.val { r with low := true, lowest := mv, dgs := dgs } m.isLt } }

/-- The excursion recovers before it caused a reset: it is a dip (R423), and the windows of its die run on (R424). -/
def State.dipEnd (s : State) (m : Fin 12) (mv : Nat) : State :=
  let s := s.dipBegin m mv
  let r := s.hk.rails[m]
  let k := s.time.cnt
  let s := { s with hk := { s.hk with rails := s.hk.rails.set m.val { r with low := false, dipRound := true } m.isLt } }
  let s := match dieOfMon m.val with
    | none => s
    | some d =>
      let w := s.hk.dips[d]
      { s with hk := { s.hk with dips := s.hk.dips.set d.val ⟨laterEnd w.suspect (k + 8), laterEnd w.gate (k + r.dgs)⟩ d.isLt } }
  let old := s.reg (hkReg Reg.SUP_DIP)
  let s := (s.setBits (hkReg Reg.SUP_DIP) (toW (2 ^ m.val))).bump (hkReg (Reg.SUP_DIP_CNT + 4 * m.val))
  (s.logEvent 0xC2 m.val 1 old.toNat r.lowest).raiseEv 0xC2 m.val 0 (s.reg (hkReg Reg.SUP_DIP)).toNat

/-- R425: the direction rule of a write of DIP_GATE_STOKES. -/
def State.dipGateOk (s : State) (org : Origin) (v : Word) : Bool :=
  if (s.reg (hkReg Reg.DIP_GATE_STOKES)).toNat < v.toNat then org == .host0 || org == .safe || org == .svc
  else if v.toNat < (s.reg (hkReg Reg.DIP_GATE_STOKES)).toNat then (org == .host0 || org == .svc) && !s.anyLayer
  else true

end Sys2Proof.Machine
end

