-- ==== Sys2Proof/Machine/Servo.lean ====
section
/-! DEFINITION. The galvo servo: trims, field correction, the law, axis states, faults, parameters and grids (R134–R157). -/

namespace Sys2Proof.Machine
open Sys2Proof

/-! Converters (R135–R137). -/

/-- Samples of a stoke (R135). -/
def servoCount (rate cnt : Nat) : Nat :=
  if rate = 0 then 16 else if rate = 1 then 10 else if rate = 2 then 8 else if cnt % 5 = 0 ∨ cnt % 5 = 2 then 7 else 6

/-- A quotient of integers to the nearest integer, ties away from zero. -/
def divRna (a : Int) (b : Nat) : Int := (Q.mk' a b).rna

/-- R136: what sample m of a stoke plays. -/
def interpCode (d dPrev : Int) (m n : Nat) (step : Bool) : Int := if step then d else divRna (dPrev * n + (d - dPrev) * (m + 1)) n

/-- R137: the decimate in AU. -/
def decimate (xs : List Int) (last : Bool) : Int :=
  match xs with
  | [] => 0
  | x :: r => if last then 4 * (r.getLastD x) else divRna (4 * xs.foldl (· + ·) 0) xs.length

/-- A servo register of an axis. -/
def State.areg (s : State) (c : Ch) (a : Ax) (o : Nat) : Word := s.reg (axReg c a o)

/-- Cycles of the stoke at which the first sample instant falls, counted so that instants are multiples of 500 from stoke 0. -/
def firstSample (s : State) : Nat := (500 - (s.time.cnt * s.stokeCyc) % 500) % 500

/-- The code that the converter die plays at an instant of the stoke (R13, R136): that of the latest sample, or the last one
of the stoke before. -/
def State.codeAt (s : State) (c : Ch) (a : Ax) (t : Nat) : Int :=
  let x := s.sv[c].ax[a]
  let f := firstSample s
  if t < f then x.dPrev
  else interpCode x.d x.dPrev ((t - f) / 500) (servoCount s.rate s.time.cnt) (bit (s.areg c a Reg.SV_CFG) 0)

/-! Ramps (R149, R150). -/

/-- The value of a ramp after m of n stokes. -/
def RampQ.value (r : RampQ) (m n : Nat) : Q := if n ≤ m then r.target else r.start.add ((r.target.sub r.start).scale m n)
/-- A ramp that stands at a value. -/
def RampQ.at_ (q : Q) : RampQ := ⟨q, q⟩

/-- RAMPING: a ramp of N stokes is in progress until the boundary that ends its N-th stoke (R149). -/
def SvCh.ramping (v : SvCh) : Bool := v.n != 0 && decide (v.m ≤ v.n)
/-- PD_RAMP: the same of an axis's detector ramp. -/
def Axis.pdRamp (x : Axis) : Bool := x.pdN != 0 && decide (x.pdM ≤ x.pdN)

/-- A signed register as an exact value. -/
def qOfReg (w : Word) : Q := Q.ofInt w.toInt

/-- The channel's four applied trims: DX, DY, ROT, SCALE. -/
def SvCh.trims (v : SvCh) : Q × Q × Q × Q := (v.dx.value v.m v.n, v.dy.value v.m v.n, v.rot.value v.m v.n, v.scale.value v.m v.n)

/-- c_max × 2^32: the largest distance from field point (0, 0) to a corner of the grid span. -/
def State.cMax32 (s : State) (c : Ch) : Nat :=
  let span : Int := 64 * 2 ^ (fld (s.creg c Reg.FC_CFG) 0 5)
  let far (o : Int) : Nat := max o.natAbs (o + span).natAbs
  let x := far (s.creg c Reg.FC_ORIGIN_X).toInt
  let y := far (s.creg c Reg.FC_ORIGIN_Y).toInt
  isqrt ((x * x + y * y) <<< 64)

/-- R149: a trim ramp starts from the applied values. -/
def State.trimStart (s : State) (c : Ch) : State :=
  let v := s.sv[c]
  let t := v.trims
  let g (o : Nat) := qOfReg (s.creg c o)
  let dx : RampQ := ⟨t.1, g Reg.TRIM_DX_TGT⟩
  let dy : RampQ := ⟨t.2.1, g Reg.TRIM_DY_TGT⟩
  let rot : RampQ := ⟨t.2.2.1, g Reg.TRIM_ROT_TGT⟩
  let sc : RampQ := ⟨t.2.2.2, g Reg.TRIM_SCALE_TGT⟩
  let len (r : RampQ) : Q := (r.target.sub r.start).abs
  let cm : Q := Q.mk' (s.cMax32 c * 256) (2 ^ 32 * 1000000000)
  let d := ((len dx).add (len dy)).add (cm.mul ((len rot).add (len sc)))
  let n := max (s.creg16 c Reg.TRIM_RAMP) ((d.scale 1 (s.creg16 c Reg.TRIM_STEP_MAX)).ceil).toNat
  if s.time.running then s.modSv c fun v => { v with dx := dx, dy := dy, rot := rot, scale := sc, m := 0, n := n, trimDirty := false }
  else s.modSv c fun v => { v with dx := dx, dy := dy, rot := rot, scale := sc, m := 0, n := 0, trimDirty := false }

/-- R149: a detector ramp of one axis starts. -/
def State.pdStart (s : State) (c : Ch) (a : Ax) : State :=
  let x := s.sv[c].ax[a]
  let off : RampQ := ⟨x.pdOff.value x.pdM x.pdN, qOfReg (s.areg c a Reg.SV_PD_OFFSET_TGT)⟩
  let gain : RampQ := ⟨x.pdGain.value x.pdM x.pdN, qOfF (s.areg c a Reg.SV_PD_GAIN_TGT)⟩
  let d := ((off.target.sub off.start).abs).add (((gain.target.sub gain.start).abs).scale 524288 1)
  let n := max (s.creg16 c Reg.TRIM_RAMP) ((d.scale 1 (s.creg16 c Reg.PD_STEP_MAX)).ceil).toNat
  s.modAx c a fun x => { x with pdOff := off, pdGain := gain, pdM := 0, pdN := if s.time.running then n else 0, pdDirty := false }

/-- R149, R150: at a boundary, ramps whose target has changed start, and those that run take their next stoke. -/
def State.servoRamps (s : State) (c : Ch) : State :=
  let s : State := if s.sv[c].trimDirty then s.trimStart c else s
  let v := s.sv[c]
  let s : State := if v.ramping ∧ (v.ax[0].st ≠ .off ∨ v.ax[1].st ≠ .off) then s.modSv c fun v => { v with m := v.m + 1 } else s
  all3.foldl (fun (s : State) (a : Ax) =>
    let s : State := if s.sv[c].ax[a].pdDirty then s.pdStart c a else s
    let x := s.sv[c].ax[a]
    if x.pdRamp ∧ x.st ≠ .off then s.modAx c a fun x => { x with pdM := x.pdM + 1 } else s) s

/-! The point and its correction (R139–R142). -/

/-- 1e-9 in binary64. -/
def nano64 : D64 := 0x3E112E0BE826D695#64

/-- R139: a point under the channel's applied trim, in 1/256 field units. -/
def State.trimXY (s : State) (c : Ch) (px py : Int) : Int × Int :=
  let t := s.sv[c].trims
  let x := dOfInt px
  let y := dOfInt py
  let k := dadd done64 (dmul t.2.2.2.toD nano64)
  let cs := cosSin (dmul t.2.2.1.toD nano64)
  let d256 := dOfInt 256
  let lim : Int := 2 ^ 62
  let fin (v : D64) : Int := dToInt (-lim) lim (dmul v d256)
  (fin (dadd (dmul k (dsub (dmul x cs.1) (dmul y cs.2))) (ddiv t.1.toD d256)),
   fin (dadd (dmul k (dadd (dmul x cs.2) (dmul y cs.1))) (ddiv t.2.1.toD d256)))

/-- The trimmed point of the committed setpoints. -/
def State.trimPoint (s : State) (c : Ch) : Int × Int :=
  s.trimXY c (s.areg c 0 Reg.SV_SET).toInt (s.areg c 1 Reg.SV_SET).toInt

/-- A coordinate in 1/256 field unit at the nearest whole field unit, ties to even, in 1/256 units again (R139). -/
def wholeUnit (x : Int) : Int := 256 * (Q.mk' x 256).rne
/-- A plate point as the guard, the overlap zones, the ember map and registration take it (R139). -/
def wholePoint (p : Int × Int) : Int × Int := (wholeUnit p.1, wholeUnit p.2)
/-- The trimmed point of the committed setpoints in whole field units. -/
def State.platePoint (s : State) (c : Ch) : Int × Int := wholePoint (s.trimPoint c)

/-- BAR2 offset of a grid entry (R19, R140). -/
def gridAddr (c : Ch) (g i j : Nat) : Nat := 0x2280000 + 16900 * (3 * c.val + g) + 4 * (65 * j + i)

/-- BAR2 offset of the two spare grids, behind the active ones (R19, R153; log 78). -/
def spareGrids : Nat := 0x2280000 + 16900 * 72

/-- What the correction gives: the three commands, outside, and whether an entry read was uncorrectable. -/
structure Cmds where
  rx : Word
  ry : Word
  rf : Word
  outside : Bool
  ue : Bool
  deriving DecidableEq, Repr

/-- R140–R142: the commands from the trimmed point. -/
def State.fieldCmds (s : State) (c : Ch) (p : Int × Int) : Cmds :=
  let fz := fmul (s.creg c Reg.FC_FZ_GAIN) (fOfInt (s.areg c 2 Reg.SV_SET).toInt)
  let cfg := s.creg c Reg.FC_CFG
  if bit cfg 8 = false then ⟨(Q.mk' p.1 256).toF, (Q.mk' p.2 256).toF, fz, false, false⟩
  else
    let sh := fld cfg 0 5 + 8
    let span : Int := 64 * 2 ^ sh
    let u0 := p.1 - 256 * (s.creg c Reg.FC_ORIGIN_X).toInt
    let v0 := p.2 - 256 * (s.creg c Reg.FC_ORIGIN_Y).toInt
    let out := decide (u0 < 0) || decide (span < u0) || decide (v0 < 0) || decide (span < v0)
    let u := (clampI 0 span u0).toNat
    let v := (clampI 0 span v0).toNat
    let i := min (u >>> sh) 63
    let j := min (v >>> sh) 63
    let fx := u - i <<< sh
    let fy := v - j <<< sh
    let one := 2 ^ sh
    let e (g di dj : Nat) : Int := (s.word (gridAddr c g (i + di) (j + dj))).toInt
    let bad (g : Nat) : Bool := s.isBad (gridAddr c g i j) || s.isBad (gridAddr c g (i + 1) j) || s.isBad (gridAddr c g i (j + 1))
      || s.isBad (gridAddr c g (i + 1) (j + 1))
    let g (k : Nat) : Q :=
      Q.mk' ((one - fx : Nat) * (one - fy : Nat) * e k 0 0 + fx * (one - fy : Nat) * e k 1 0 + (one - fx : Nat) * fy * e k 0 1
        + fx * fy * e k 1 1) (one * one * 256)
    ⟨(g 0).toF, (g 1).toF, fadd (g 2).toF fz, out, bad 0 || bad 1 || bad 2⟩

/-! The law (R143–R145, R147). -/

/-- A biquad in transposed direct form II: output and new states; a disabled one passes its input. -/
def biquad (en : Bool) (b0 b1 b2 a1 a2 z1 z2 x : Word) : Word × Word × Word :=
  if en then
    let o := fadd (fmul b0 x) z1
    (o, fadd (fsub (fmul b1 x) (fmul a1 o)) z2, fsub (fmul b2 x) (fmul a2 o))
  else (x, z1, z2)

/-- R147: a notch run backwards; a disabled one, or one with b0 = 0, is passed over. -/
def unnotch (en : Bool) (b0 z1 o : Word) : Word :=
  if en && fcmp b0 0#32 != some .eq then fdiv (fsub o z1) b0 else o

/-- R143: the corrected position. -/
def State.servoY (s : State) (c : Ch) (a : Ax) : Word :=
  let x := s.sv[c].ax[a]
  let dec := if bit (s.areg c a Reg.SV_CFG) 3 then -x.dec else x.dec
  fmul (fsub (fOfInt dec) (x.pdOff.value x.pdM x.pdN).toF) (x.pdGain.value x.pdM x.pdN).toF

/-- R144, R145, R147: one axis computes a stoke; none where a term is not finite. -/
def State.servoLaw (s : State) (c : Ch) (a : Ax) (r : Word) : Option Axis :=
  let x := s.sv[c].ax[a]
  let p (o : Nat) := s.areg c a o
  let run := x.st == .run
  let y := s.servoY c a
  let r := if run then r else if x.presetY then y else x.rPrev
  let e := fsub r y
  let v := if run && decide (0 < x.runAge) then fsub r x.rPrev else 0#32
  let ac := if run && decide (1 < x.runAge) then fsub v x.vPrev else 0#32
  let pr := fmul (p Reg.SV_KP) e
  let kie := fmul (p Reg.SV_KI) e
  let imax := p Reg.SV_I_MAX
  let held := (x.clHi && flt 0#32 kie) || (x.clLo && flt kie 0#32)
  let acc := if held then (x.i, x.iOut) else accumulate (fneg imax) imax x.i kie x.iOut
  let al := p Reg.SV_D_ALPHA
  let dd := fadd (fmul al x.dd) (fmul (fmul (fsub fone al) (p Reg.SV_KD)) (fsub e x.ePrev))
  let en := p Reg.SV_NOTCH_EN
  let off := fOfInt (p Reg.SV_OUT_OFFSET).toInt
  let ffw := fadd (fmul (p Reg.SV_KFV) v) (fmul (p Reg.SV_KFA) ac)
  let dnow := if bit (p Reg.SV_CFG) 2 then -x.d else x.d
  let pre :=
    let u2 := fsub (fOfInt dnow) off
    let u1 := unnotch (bit en 1) (p Reg.SV_N2_B0) x.n2z1 u2
    let u0 := unnotch (bit en 0) (p Reg.SV_N1_B0) x.n1z1 u1
    fsub u0 (fadd (fadd ffw pr) dd)
  let i := if x.preset then pre else acc.1
  let iOut := if x.preset then flt i (fneg imax) || flt imax i else acc.2
  let u0 := fadd (fadd (fadd ffw pr) i) dd
  let b1 := biquad (bit en 0) (p Reg.SV_N1_B0) (p Reg.SV_N1_B1) (p Reg.SV_N1_B2) (p Reg.SV_N1_A1) (p Reg.SV_N1_A2) x.n1z1 x.n1z2 u0
  let b2 := biquad (bit en 1) (p Reg.SV_N2_B0) (p Reg.SV_N2_B1) (p Reg.SV_N2_B2) (p Reg.SV_N2_A1) (p Reg.SV_N2_A2) x.n2z1 x.n2z2 b1.1
  if fFinite r && fFinite y && fFinite e && fFinite i && fFinite dd && fFinite u0 && fFinite b1.1 && fFinite b2.1 then
    let cl : Int := fld (p Reg.SV_CLAMP) 0 20
    let d := fToInt (-cl) cl (fadd b2.1 off)
    let hi := d == cl
    let lo := d == -cl
    let fmax := fld (p Reg.SV_FERR_MAX) 0 20
    let ferr := fmax != 0 && flt (fOfInt fmax) (fabs e)
    some { x with i := i, iOut := iOut, dd := dd, rPrev := r, vPrev := v, ePrev := e, y := y, clHi := hi, clLo := lo,
                  n1z1 := b1.2.1, n1z2 := b1.2.2, n2z1 := b2.2.1, n2z2 := b2.2.2,
                  runAge := if run then x.runAge + 1 else x.runAge, preset := false, presetY := false,
                  dPrev := x.d, d := if bit (p Reg.SV_CFG) 2 then -d else d,
                  fClamped := hi || lo, fAw := !x.preset && (held || (x.iOut && acc.1 == x.i)), fSat := x.satMean, fFerr := ferr,
                  nFerr := if ferr then x.nFerr + 1 else 0, nSat := if x.satMean then x.nSat + 1 else 0,
                  nClamp := if hi || lo then x.nClamp + 1 else 0 }
  else none

/-- R151: the lowest cause whose count has reached its limit; 0 is none. -/
def State.servoCause (s : State) (c : Ch) (a : Ax) : Nat :=
  let x := s.sv[c].ax[a]
  let lim (o : Nat) := fld (s.areg c a o) 0 16
  if x.fFerr && decide (lim Reg.SV_FERR_STOKES ≤ x.nFerr) then 1
  else if x.fSat && decide (lim Reg.SV_SAT_STOKES ≤ x.nSat) then 2
  else if x.fClamped && decide (lim Reg.SV_CLAMP_STOKES ≤ x.nClamp) then 3
  else 0

/-- R145, R151: an axis freezes with a cause; the channel's fault follows. -/
def State.axFreeze (s : State) (c : Ch) (a : Ax) (cause : Nat) : State :=
  (s.modAx c a fun x => { x with st := .frozen, cause := cause, preset := false, presetY := false, nFerr := 0, nSat := 0, nClamp := 0 }).faultDue c
    (if cause = 5 then 6 else 3)

/-- A count that has reached its limit freezes its axis (R151). -/
def State.servoFault (s : State) (c : Ch) (a : Ax) : State :=
  let x := s.sv[c].ax[a]
  if x.st = .run ∨ x.st = .hold then
    let k := s.servoCause c a
    if k = 0 then s else s.axFreeze c a k
  else s

/-- FERR_PEAK keeps the largest |e|. -/
def State.ferrPeak (s : State) (c : Ch) (a : Ax) (e : Word) : State :=
  s.setMax (axReg c a Reg.SV_FERR_PEAK) (fToInt 0 4294967295 (fabs e)).toNat

/-- The servo unit's stoke (R138–R145, R151): commands, the law of each axis, and the faults it finds. -/
def State.servoCompute (s : State) (c : Ch) : State :=
  let p := s.trimPoint c
  let run := all3.any fun (a : Ax) => s.sv[c].ax[a].st == .run
  let k : Cmds := if run then s.fieldCmds c p else ⟨0#32, 0#32, 0#32, false, false⟩
  let s : State := if k.ue then
      all3.foldl (fun (s : State) (a : Ax) => (s.modAx c a fun x => { x with dPrev := x.d }).axFreeze c a 5)
        (s.modSv c fun v => { v with fresh := false })
    else
      all3.foldl (fun (s : State) (a : Ax) =>
        let x := s.sv[c].ax[a]
        match x.st with
        | .run | .hold =>
          match s.servoLaw c a (if a = 0 then k.rx else if a = 1 then k.ry else k.rf) with
          | none => (s.modAx c a fun x => { x with dPrev := x.d }).axFreeze c a 4
          | some x' =>
            let s := (s.modAx c a fun _ => { x' with fOutside := k.outside && x.st == .run }).ferrPeak c a x'.ePrev
            s.servoFault c a
        | _ => s.modAx c a fun x => { x with dPrev := x.d, fClamped := false, fAw := false, fSat := false, fFerr := false,
                                             fOutside := false, nFerr := 0, nSat := 0, nClamp := 0 }) s
  if k.outside then (s.modLas c fun l => { l with mNext := true }).bump (chReg c Reg.OUTSIDE_CNT) else s

/-! Axis states (R146, R147, R152). -/

/-- An axis enters HOLD from OFF, KILLED or FROZEN: the preset of R147 is due. -/
def Axis.toHold (x : Axis) (fromOff : Bool) : Axis := { x with st := .hold, preset := true, presetY := fromOff }

/-- An axis goes OFF: integrator and filter states 0, code 0. -/
def Axis.toOff (x : Axis) : Axis :=
  { x with st := .off, i := 0#32, dd := 0#32, rPrev := 0#32, vPrev := 0#32, ePrev := 0#32, clHi := false, clLo := false, n1z1 := 0#32,
           n1z2 := 0#32, n2z1 := 0#32, n2z2 := 0#32, d := 0, iOut := false, preset := false, presetY := false }

/-- A committed SV_CTRL: EN bits. -/
def State.svEnable (s : State) (c : Ch) (v : Word) : State :=
  all3.foldl (fun (s : State) (a : Ax) => s.modAx c a fun x =>
    if bit v a.val then (if x.st = .off then x.toHold true else x) else (if x.st = .off then x else x.toOff)) s

/-- An accepted SV_CLEAR moves FROZEN axes to HOLD and clears SV_FAULT when it takes effect (R152). -/
def State.svClear (s : State) (c : Ch) : State :=
  (all3.foldl (fun (s : State) (a : Ax) => s.modAx c a fun x =>
    if x.st = .frozen then { x.toHold false with cause := 0 } else { x with cause := 0 }) s)

/-- R146: KILLED is entered and left at the boundary; `seen` says whether the wire was asserted in the stoke that ends. An axis
enabled at this boundary was OFF in that stoke. -/
def State.svKill (s : State) (c : Ch) : State :=
  let seen := s.sv[c].killSeen || s.killed
  let held (x : Axis) : Int := if s.killed then x.out else x.dPrev
  let s := all3.foldl (fun (s : State) (a : Ax) => s.modAx c a fun x =>
    match x.st with
    | .off => x
    | .killed => if seen then x else if x.wasFrozen then { x with st := .frozen } else x.toHold false
    | st => if seen && !x.presetY then { x with st := .killed, wasFrozen := st == .frozen, d := held x, dPrev := held x, preset := false, presetY := false } else x) s
  s.modSv c fun v => { v with killSeen := s.killed }

/-- The hold causes that the channel gives all its axes (R146). -/
def State.svHoldAll (s : State) (c : Ch) : Bool :=
  !s.ch[c].running || s.inFault c || all3.any fun (a : Ax) => s.sv[c].ax[a].st == .frozen

/-- RUN and HOLD follow the hold causes at the boundary. -/
def State.svHold (s : State) (c : Ch) : State :=
  let all := s.svHoldAll c
  all3.foldl (fun (s : State) (a : Ax) =>
    let h := all || bit (s.areg c a Reg.SV_MODE) 0
    s.modAx c a fun x =>
      match x.st with
      | .run => if h then { x with st := .hold } else x
      | .hold => if h || x.preset then x else { x with st := .run, runAge := 0 }
      | _ => x) s

/-- The kill wire is asserted: the die holds the codes it plays (R13). -/
def State.svKillOn (s : State) : State :=
  s.forCh fun s c =>
    let s := all3.foldl (fun (s : State) (a : Ax) => let k := s.codeAt c a s.now; s.modAx c a fun x => { x with out := k }) s
    s.modSv c fun v => { v with killSeen := true }

/-- The samples of the stoke give the decimates for the next (R15, R137). -/
def State.servoInputs (s : State) (c : Ch) (ci : ChanIn) : State :=
  all3.foldl (fun (s : State) (a : Ax) =>
    let xs := if a = 0 then ci.adcX else if a = 1 then ci.adcY else ci.adcF
    let sum := xs.foldl (· + ·) 0
    let last := bit (s.areg c a Reg.SV_CFG) 1
    s.modAx c a fun x => { x with dec := decimate xs last, satMean := xs.length != 0 && decide (131008 * xs.length ≤ sum.natAbs) }) s

/-! Parameters (R155). -/

/-- The registers marked P, by offset for axis X. -/
def isParam (o : Nat) : Bool := decide (0x4020 ≤ o ∧ o ≤ 0x4080)

/-- A write to a P register sets its shadow. -/
def State.paramShadow (s : State) (c : Ch) (a : Ax) (o : Nat) (v : Word) : State :=
  s.modAx c a fun x => { x with shadow := alSet (fun _ => ~~~v) x.shadow o v }

/-- SHADOW_DIRTY: the shadow differs from the active set. -/
def State.shadowDirty (s : State) (c : Ch) (a : Ax) : Bool :=
  s.sv[c].ax[a].shadow.any fun p => s.areg c a p.1 != p.2

/-- An apply is refused where D_ALPHA lies outside 0.0–<1.0 (R156). -/
def State.applyOk (s : State) (c : Ch) (a : Ax) : Bool :=
  let al := match s.sv[c].ax[a].shadow.find? (·.1 == Reg.SV_D_ALPHA) with
    | some p => p.2
    | none => s.areg c a Reg.SV_D_ALPHA
  fle 0#32 al && flt al fone

/-- The whole shadow of an axis becomes active. -/
def State.paramApply (s : State) (c : Ch) (a : Ax) : State :=
  (s.sv[c].ax[a].shadow.foldl (fun (s : State) (p : Nat × Word) => s.setReg (axReg c a p.1) p.2) s).modAx c a fun x => { x with shadow := [] }

/-! Grids (R153, R154). -/

/-- A load is refused, with its code; one of the channel that is in progress goes on. -/
def State.gridRefuse (s : State) (c : Ch) (code : Nat) (hash : List Byte) : State :=
  let s := s.modSv c fun v => { v with grid := if s.gridQ.any (·.ch == c) then v.grid else .refused, gridRefuse := code }
  (s.logRun 0x0A (chReg c Reg.GRID_CTRL) hash).logPush .hw false (chReg c Reg.GRID_CTRL) 0x3F (toW code) 0#32

/-- Bytes of a block: X and Y, or F. -/
def gridBytes (xy : Bool) : Nat := if xy then 33800 else 16900
/-- 32 bytes of 0, the hash of an image or block that was never read. -/
def noHash : List Byte := bz 32

/-- A committed LOAD: the loader reads the block, unless one is pending anywhere. -/
def State.gridLoad (s : State) (c : Ch) (xy : Bool) : State :=
  if s.gridQ.isEmpty then
    let s := { s with gridQ := [⟨c, xy, none⟩] }
    let s := s.modSv c fun v => { v with grid := .loading, gridRefuse := 0, swapped := false }
    s.out (.hostRead ((s.creg c Reg.GRID_SRC_LO).toNat + 4294967296 * (s.creg c Reg.GRID_SRC_HI).toNat) (gridBytes xy))
  else s.gridRefuse c 1 noHash

/-- The block has been read (none where a host read failed): in the spare grids and pending, or refused. -/
def State.gridDone (s : State) (c : Ch) (block : Option (List Byte)) : State :=
  match s.gridQ with
  | [g] =>
    if g.ch = c ∧ g.block = none then
      let free : State := { s with gridQ := [] }
      match block with
      | none => free.gridRefuse c 3 noHash
      | some bs =>
        if bs.length ≠ gridBytes g.xy then free.gridRefuse c 3 noHash
        else if crc32 bs ≠ s.creg c Reg.GRID_CRC then free.gridRefuse c 2 (sha256 bs)
        else (({ s with gridQ := [{ g with block := some bs }] }.put spareGrids bs).modSv c fun v => { v with grid := .pending }).logRun 8
          (chReg c Reg.GRID_CTRL) (sha256 bs)
    else s
  | _ => s

/-- Spares and active grids are exchanged at the first boundary at which the channel is not in layer (R153). -/
def State.gridSwap (s : State) (c : Ch) : State :=
  match s.gridQ with
  | [⟨c', xy, some bs⟩] =>
    if c' = c ∧ s.ch[c].inLayer = false then
      let h := sha256 bs
      let s : State := { s with gridQ := [] }.exchange (gridAddr c (if xy then 0 else 2) 0 0) spareGrids (gridBytes xy)
      let s := s.modSv c fun v => { v with grid := .idle, swapped := true, fresh := true }
      let s : State := (List.range 8).foldl (fun (s : State) i => s.setReg (chReg c (Reg.GRID_HASH + 4 * i)) (nthD (wordsLE h) i 0#32)) s
      s.logRun 9 (chReg c Reg.GRID_CTRL) h
    else s
  | _ => s

/-- ABORT discards a pending swap. -/
def State.gridAbort (s : State) (c : Ch) : State :=
  match s.gridQ with
  | [⟨c', _, some _⟩] => if c' = c then ({ s with gridQ := [] }).modSv c fun v => { v with grid := .idle } else s
  | _ => s

/-! Views. -/

/-- The codes of R146. -/
def AxSt.code : AxSt → Nat
  | .off => 0
  | .run => 1
  | .hold => 2
  | .frozen => 3
  | .killed => 4

/-- SV_STATUS. -/
def State.svStatus (s : State) (c : Ch) (a : Ax) : Nat :=
  let x := s.sv[c].ax[a]
  x.st.code + bitAt x.fClamped 3 + bitAt x.fAw 4 + bitAt x.fSat 5 + bitAt x.fFerr 6 + bitAt (s.shadowDirty c a) 7 + bitAt x.fOutside 8
    + bitAt x.pdRamp 9 + bitAt x.iOut 10

/-- The codes of GRID_STATUS.STATE. -/
def GridState.code : GridState → Nat
  | .idle => 0
  | .loading => 1
  | .pending => 2
  | .refused => 3

/-- The axis registers that are read-only (R156), by offset for axis X. -/
def State.axisRead (s : State) (c : Ch) (a : Ax) (o : Nat) : Option Word :=
  let x := s.sv[c].ax[a]
  if o = Reg.SV_STATUS then some (toW (s.svStatus c a))
  else if o = Reg.SV_CMD then some x.rPrev
  else if o = Reg.SV_POS then some x.y
  else if o = Reg.SV_ERR then some x.ePrev
  else if o = Reg.SV_DAC_CODE then some (intW x.d)
  else if o = Reg.SV_ADC_RAW then some (intW x.dec)
  else if o = Reg.SV_PD_OFFSET_APPL then some (intW (x.pdOff.value x.pdM x.pdN).rne)
  else if o = Reg.SV_PD_GAIN_APPL then some (x.pdGain.value x.pdM x.pdN).toF
  else none

/-- The channel's shared servo registers that are read-only (R157). -/
def State.servoRead (s : State) (c : Ch) (o : Nat) : Option Word :=
  let v := s.sv[c]
  let t := v.trims
  if o = Reg.SV_FAULT then some (toW (v.ax[0].cause + v.ax[1].cause * 256 + v.ax[2].cause * 65536))
  else if o = Reg.TRIM_DX_APPL then some (intW t.1.rne)
  else if o = Reg.TRIM_DY_APPL then some (intW t.2.1.rne)
  else if o = Reg.TRIM_ROT_APPL then some (intW t.2.2.1.rne)
  else if o = Reg.TRIM_SCALE_APPL then some (intW t.2.2.2.rne)
  else if o = Reg.TRIM_STATUS then some (toW (bitAt v.ramping 0 + min (v.n - v.m) 65535 * 65536))
  else if o = Reg.GRID_STATUS then some (toW (v.grid.code + bitAt v.swapped 4 + v.gridRefuse * 256))
  else if 0x4000 ≤ o ∧ o < 0x4100 then s.axisRead c 0 o
  else if 0x4100 ≤ o ∧ o < 0x4200 then s.axisRead c 1 (o - 0x100)
  else if 0x4200 ≤ o ∧ o < 0x4300 then s.axisRead c 2 (o - 0x200)
  else none

/-- Some axis of the channel is FROZEN (R152). -/
def State.anyFrozen (s : State) (c : Ch) : Bool := all3.any fun (a : Ax) => s.sv[c].ax[a].st == .frozen

/-- R152: SV_CLEAR is refused while the wire is asserted, or with a GRID fault and no fresh grid set. -/
def State.svClearRefused (s : State) (c : Ch) : Bool := s.killed || !s.sv[c].fresh

end Sys2Proof.Machine
end

