-- ==== Sys2Proof/Machine/Laser.lean ====
section
/-! DEFINITION. The laser port and the safety inputs (R158–R173). -/

namespace Sys2Proof.Machine
open Sys2Proof

/-! Masks (R162, R163). -/

/-- The converter die of a channel, as an index. -/
def dieOf (c : Ch) : Fin 2 := if c.val < 12 then 0 else 1

/-- A latching mask is in force. -/
def State.lasLatched (s : State) (c : Ch) : Bool :=
  let l := s.las[c]
  l.lNow || l.fNow || l.cut || l.arm != .armed || !s.ch[c].running || s.killed

/-- A cause that R163 marks power 0 is in force, or a withheld stoke with P_ZERO: a latching mask of a withheld stoke alone holds the code. -/
def State.powerOff (s : State) (c : Ch) : Bool :=
  let l := s.las[c]
  l.fNow || l.cut || l.arm != .armed || !s.ch[c].running || s.killed || l.zNow

/-- A transient mask is in force. -/
def State.lasTransient (s : State) (c : Ch) : Bool := s.las[c].mNow || s.dipGate (dieOf c)

/-- The gate pin (R162). -/
def State.gatePin (s : State) (c : Ch) : Bool := s.las[c].level && !s.lasTransient c && !s.lasLatched c

/-- The EMISSION_EN pin (R164, R167, R170). -/
def State.emissionPin (s : State) (c : Ch) : Bool := s.las[c].arm != .disarmed && !s.las[c].cut && !s.killed

/-- Account for the gate pin from the last accounted cycle up to t. -/
def State.gateSpan (s : State) (c : Ch) (t : Nat) : State :=
  let l := s.las[c]
  if t ≤ l.seen then s
  else
    let n := t - l.seen
    let pin := s.gatePin c
    let msk := s.lasTransient c || s.lasLatched c
    s.modLas c fun l =>
      { l with seen := t, onCyc := if pin then l.onCyc + n else l.onCyc, onAll := l.onAll && pin,
               maskHit := l.maskHit || (l.level && msk), masked := l.masked || msk }

/-- One edge plays at its offset (R161): an on edge counts if its stoke was in layer (R92) and no latching mask is in force. -/
def State.gateEdge (s : State) (c : Ch) (o : Nat) (on : Bool) : State :=
  let s := s.gateSpan c o
  if on then
    if s.las[c].play.layer && !s.lasLatched c then
      let was := s.gatePin c
      let s := s.modLas c fun l => { l with level := true, lit := true }
      if !was && s.gatePin c then ({ s with now := max s.now o }).evPulse (0xA0 + c.val) else s
    else s
  else s.modLas c fun l => { l with level := false }

/-- The edges of the present stoke up to, and not at, cycle t play in order; with equal offsets the off edge stands. -/
def State.gatePlay (s : State) (c : Ch) (t : Nat) : State :=
  let e := s.las[c].play
  let due (o : Option Nat) : Bool := match o with | some k => decide (k < t) | none => false
  let doOn (s : State) : State := match e.on with
    | some k => if k < t ∧ e.off ≠ some k then (s.gateEdge c k true).modLas c fun l => { l with play := { l.play with on := none } }
                else if k < t then s.modLas c fun l => { l with play := { l.play with on := none } } else s
    | none => s
  let doOff (s : State) : State := match e.off with
    | some k => if k < t then (s.gateEdge c k false).modLas c fun l => { l with play := { l.play with off := none } } else s
    | none => s
  let offFirst := due e.off && match e.on, e.off with
    | some a, some b => decide (b < a)
    | _, _ => false
  (if offFirst then doOn (doOff s) else doOff (doOn s)).gateSpan c t

/-- A cut that acts on the pins at once (R167, R170): gate and enable low, power 0, until the port is armed again. -/
def State.lasCut (s : State) (c : Ch) : State :=
  let s := s.gatePlay c s.now
  s.modLas c fun l => { l with cut := true, maskHit := l.maskHit || l.level, masked := true, onAll := false, level := false }

/-! Arming (R164–R167). -/

/-- A trip at a boundary. -/
def State.lasTrip (s : State) (c : Ch) (cause : Nat) : State :=
  s.modLas c fun l => { l with arm := .disarmed, armWait := 0, trip := cause, tripDue := 0 }

/-- LSAFE_STATUS. -/
def State.lsafeStatus (s : State) : Nat :=
  bitAt s.lsafe.aLow 0 + bitAt s.lsafe.bLow 1 + bitAt s.lsafe.disc 2 + bitAt s.killed 3

/-- R165: the conditions of an ARM. -/
def State.armOk (s : State) (c : Ch) (org : Origin) : Bool :=
  !s.lsafe.aLow && !s.lsafe.bLow && !s.lsafe.disc && !s.killed && !s.las[c].alarm && !s.inFault c && s.ch[c].faultDue.isEmpty
    && !s.gang.conflict && org == .host0 && !s.safe.inh[c] && s.boot.stage == .ready && s.time.running

/-- An ARM with every condition true: DISARMED to ARMING. -/
def State.lasArm (s : State) (c : Ch) : State :=
  if s.las[c].arm = .disarmed then s.modLas c fun l => { l with arm := .arming, armWait := 0, cut := false, tripDue := 0 } else s

/-- ALARM, or the loss of READY, cuts the port, and its trip is due; of two in one stoke the first names the trip. -/
def State.lasLost (s : State) (c : Ch) (cause : Nat) : State :=
  let s := if s.las[c].cut then s else s.lasCut c
  s.modLas c fun l => { l with tripDue := if l.tripDue = 0 then cause else l.tripDue }

/-- The filtered level of READY: active or not. Its loss in ARMED cuts at once and trips at the boundary (R167). -/
def State.lasReady (s : State) (c : Ch) (act : Bool) : State :=
  let was := s.las[c].ready
  let s := s.modLas c fun l => { l with ready := act }
  if was && !act && s.las[c].arm == .armed then (s.lasLost c 4).faultDue c 4 else s

/-- The filtered level of ALARM; in ARMING or ARMED it cuts at once. -/
def State.lasAlarm (s : State) (c : Ch) (act : Bool) : State :=
  let s := s.modLas c fun l => { l with alarm := act }
  if act && s.las[c].arm != .disarmed then (s.lasLost c 5).faultDue c 4 else s

/-- R167: a pin level that has been stable for a number of motion clocks passes the filter. -/
def State.lasFilter (s : State) (c : Ch) (clocks : Nat) : Bool := decide (fld (s.creg c Reg.LAS_CFG) 8 8 ≤ clocks)

/-- READY_TO (R164). -/
def State.readyTo (s : State) (c : Ch) : Nat := fld (s.creg c Reg.LAS_CFG) 16 16

/-- ARMING that has waited READY_TO stokes trips. -/
def State.readyTimeout (s : State) (c : Ch) : State :=
  let l := s.las[c]
  if l.arm = .arming ∧ l.ready = false ∧ s.readyTo c ≤ l.armWait then s.lasTrip c 3 else s

/-- The arm state at a boundary: trips that have acted on the pins, READY, the timeout. -/
def State.lasArmStep (s : State) (c : Ch) : State :=
  let l := s.las[c]
  if s.lsafe.tripDue then s.lasTrip c 6
  else if l.tripDue ≠ 0 then s.lasTrip c l.tripDue
  else if l.arm = .arming then
    if l.ready then s.modLas c fun l => { l with arm := .armed, armWait := 0 }
    else (s.modLas c fun l => { l with armWait := l.armWait + 1 }).readyTimeout c
  else s

/-! The monitor (R168). -/

/-- LAS_STATE. -/
def State.lasState (s : State) (c : Ch) : Nat :=
  let l := s.las[c]
  (match l.arm with | .disarmed => 0 | .arming => 1 | .armed => 2) + bitAt (s.emissionPin c) 2 + bitAt l.ready 3 + bitAt l.alarm 4
    + bitAt l.levelLast 5 + bitAt l.maskedLast 6 + bitAt (s.lasLatched c) 7 + bitAt l.monDev 8 + bitAt l.badEdge 9 + l.trip * 4096

/-- The deviation count has reached its limit. -/
def State.monDeviate (s : State) (c : Ch) : State :=
  let cfg := s.creg c Reg.MON_CFG
  if fld cfg 16 16 ≤ s.las[c].monCount ∧ s.las[c].monDev = false then
    let old := s.lasState c
    let s := (s.modLas c fun l => { l with monDev := true }).bump (chReg c Reg.MON_DEV_CNT)
    let s := (s.logEvent (0x80 + c.val) 0 1 old (s.lasState c)).chCause c 1
    if bit cfg 4 then s.faultDue c 4 else s
  else s

/-- R168: the comparison of the stoke that ends, whose histories stand at their heads. -/
def State.monCompare (s : State) (c : Ch) : State :=
  let l := s.las[c]
  let cfg := s.creg c Reg.MON_CFG
  let k := fld cfg 0 4
  if bit cfg 5 && nthD l.histOn 0 false && nthD l.histOn k false && !s.dipSuspect (dieOf c) then
    let ex := fadd (fmul (s.creg c Reg.MON_GAIN) (fOfInt (nthD l.histCode k 0 : Nat))) (fOfInt (s.creg c Reg.MON_OFFSET).toInt)
    let dev := fabs (fsub (fOfInt l.monMean) ex)
    if flt (fOfInt (s.creg16 c Reg.MON_TOL)) dev then (s.modLas c fun l => { l with monCount := l.monCount + 1 }).monDeviate c
    else s.modLas c fun l => { l with monCount := 0, monDev := false }
  else s

/-! The boundary. -/

/-- The stoke ends for the port: the rest of its edges play, the mask is counted, histories and the monitor take their value. -/
def State.lasEnd (s : State) (c : Ch) (mon : List Nat) : State :=
  let s := s.gatePlay c s.stokeCyc
  let s : State := if s.las[c].maskHit then s.bump (chReg c Reg.MASK_CNT) else s
  let n := mon.length
  let sum := mon.foldl (· + ·) 0
  let s := s.modLas c fun l =>
    { l with histOn := (l.onAll :: l.histOn).take 16, histCode := (l.code :: l.histCode).take 16, onLast := l.onCyc, levelLast := l.level, maskedLast := l.masked,
             monMean := if n = 0 then l.monMean else (2 * sum + n) / (2 * n) }
  s.monCompare c

/-- An edge port's committed value: an offset, none, or a bad one that is discarded (R160). -/
def State.edgeOf (s : State) (c : Ch) (o : Nat) : Option Nat × Bool :=
  let v := (s.creg c o).toNat
  if v = 0xFFFFFFFF then (none, false) else if v < s.stokeCyc then (some v, false) else (none, true)

/-- Edges committed at this boundary enter the holding stage and the ports return to no edge (R14, R160); those held come to
play. `layer` says whether the stoke that staged them was in layer. -/
def State.lasEdges (s : State) (c : Ch) (layer : Bool) : State :=
  let on := s.edgeOf c Reg.LAS_GATE_ON
  let off := s.edgeOf c Reg.LAS_GATE_OFF
  let nb := bitAt on.2 0 + bitAt off.2 0
  let s := (s.setReg (chReg c Reg.LAS_GATE_ON) 0xFFFFFFFF#32).setReg (chReg c Reg.LAS_GATE_OFF) 0xFFFFFFFF#32
  let s : State := if nb = 0 then s else s.addCnt (chReg c Reg.EDGE_BAD_CNT) nb
  s.modLas c fun l => { l with play := l.held, held := ⟨on.1, off.1, layer⟩, badEdge := decide (nb ≠ 0) }

/-- The power code of a committed u (R158, R180): rounded to nearest, ties to even, then clamped. -/
def State.powerCode (s : State) (c : Ch) : Nat :=
  (fToInt 0 (min (s.creg16 c Reg.LAS_PMAX) (s.creg16 c Reg.LAS_PCAP) : Nat) s.loop[c].u).toNat

/-- The code that the power DAC plays at an instant of the stoke (R13, R159): that of the latest sample, or the last one of the
stoke before; 0 while a cause of power 0 stands. -/
def State.powerAt (s : State) (c : Ch) (t : Nat) : Nat :=
  let l := s.las[c]
  let f := firstSample s
  if s.powerOff c then 0
  else if t < f then l.codePrev
  else (interpCode l.code l.codePrev ((t - f) / 500) (servoCount s.rate s.time.cnt) (!bit (s.creg c Reg.LAS_CFG) 0)).toNat

/-- The next stoke begins: masks move on, the code is set, and a latching mask turns the level off, which counts where it cuts an on
gate (R163). -/
def State.lasBegin (s : State) (c : Ch) : State :=
  let s := s.modLas c fun l =>
    { l with mNow := l.mNext, mNext := false, lNow := l.lNext, lNext := false, zNow := l.zNext, zNext := false, fNow := l.fNow || l.fNext,
             fNext := false }
  let lat := s.lasLatched c
  let code := if s.powerOff c then 0 else s.powerCode c
  s.modLas c fun l =>
    { l with codePrev := l.code, code := code, level := l.level && !lat, lit := l.level && !lat, seen := 0, onCyc := 0, onAll := true,
             maskHit := l.level && lat, masked := l.level && lat }

/-! The safety inputs (R170, R171). -/

/-- The kill wire has just been asserted: every port is cut, every servo code held (R13). -/
def State.killOn (s : State) : State := (s.forCh fun s c => s.lasCut c).svKillOn

/-- A safety input goes low. -/
def State.lsafeAssert (s : State) (b : Bool) : State :=
  if (if b then s.lsafe.bLow else s.lsafe.aLow) then s
  else
    let old := s.lsafeStatus
    let s : State := if s.killed then s else s.killOn
    let s := { s with lsafe := { s.lsafe with aLow := s.lsafe.aLow || !b, bLow := s.lsafe.bLow || b, tripDue := true,
                                              was := if s.lsafe.tripDue then s.lsafe.was else old } }
    let s := { s with lsafe := { s.lsafe with both := s.lsafe.both || (s.lsafe.aLow && s.lsafe.bLow) } }
    let s := s.bump Reg.LSAFE_CNT
    (s.evSet 0x0F1 true).raiseEv 0xC3 0 0 s.lsafeStatus

/-- A safety input is released; with both released the source goes inactive. -/
def State.lsafeRelease (s : State) (b : Bool) : State :=
  let s := { s with lsafe := if b then { s.lsafe with bLow := false } else { s.lsafe with aLow := false } }
  if s.lsafe.aLow || s.lsafe.bLow then s else s.evSet 0x0F1 false

/-- The level of a safety input while the main die stands still: the kill wire follows it and nothing counts, but an assertion trips every
port at the next boundary at which the die runs (R170). -/
def State.lsafePin (s : State) (b low : Bool) : State :=
  let old := s.lsafeStatus
  let new := low && !(if b then s.lsafe.bLow else s.lsafe.aLow)
  let l : LsafeSt := if b then { s.lsafe with bLow := low } else { s.lsafe with aLow := low }
  { s with lsafe := { l with both := l.both || (l.aLow && l.bLow), tripDue := l.tripDue || new,
                             was := if l.tripDue || !new then l.was else old } }

/-- The clocks run again: the level of event source 0x0F1 follows the inputs (R22, R170). -/
def State.lsafeLevel (s : State) : State := s.evSet 0x0F1 (s.lsafe.aLow || s.lsafe.bLow)

/-- The inputs have differed for longer than DISC_TIME stokes (R171). -/
def State.lsafeDisc (s : State) : State :=
  if s.lsafe.disc = false ∧ s.regF Reg.LSAFE_CFG 0 16 < s.lsafe.differ then
    let old := s.lsafeStatus
    let s := { s with lsafe := { s.lsafe with disc := true, both := false } }
    (s.logEvent 0xC3 0 2 old s.lsafeStatus).raiseEv 0xC3 0 0 s.lsafeStatus
  else s

/-- The trip of R170 has reached every port at a boundary and is logged. -/
def State.lsafeTripped (s : State) : State :=
  if s.lsafe.tripDue then
    ({ s with lsafe := { s.lsafe with tripDue := false } }).logEvent 0xC3 0 1 s.lsafe.was s.lsafeStatus
  else s

/-- The boundary's count of stokes in which the inputs differ; inputs that stand low together count as asserted together (R171). -/
def State.lsafeStep (s : State) : State :=
  let d := s.lsafe.aLow != s.lsafe.bLow
  ({ s with lsafe := { s.lsafe with both := s.lsafe.both || (s.lsafe.aLow && s.lsafe.bLow), differ := if d then s.lsafe.differ + 1 else 0 } }).lsafeDisc

/-- R171: DISC is cleared only while both inputs are released and have since been asserted together. -/
def State.lsafeClrOk (s : State) : Bool := !s.lsafe.aLow && !s.lsafe.bLow && s.lsafe.both

/-- The laser port's read-only registers (R172). -/
def State.lasRead (s : State) (c : Ch) (o : Nat) : Option Word :=
  if o = Reg.LAS_STATE then some (toW (s.lasState c))
  else if o = Reg.MON_MEAN then some (toW s.las[c].monMean)
  else if o = Reg.POWER_PLAYED then some (toW s.las[c].codePrev)
  else none

end Sys2Proof.Machine
end

