-- ==== Sys2Proof/Machine/Trace.lean ====
section
/-! DEFINITION. Trace: the allocation rules shared by channels and camera pipelines, the capture states, channel records (R195–R198, R242). -/

namespace Sys2Proof.Machine
open Sys2Proof

/-- BAR2 offset of the trace region (R19). -/
def traceBase : Nat := 0x24B4000

/-- Base unit and size of an allocation register. -/
def allocOf (w : Word) : Nat × Nat := (fld w 0 10, fld w 16 11)

/-- The capture is IDLE, neither running nor holding a finished capture. -/
def TraceU.isIdle (u : TraceU) : Bool := u.st == .idle && !u.done
/-- The capture runs. -/
def TraceU.isOn (u : TraceU) : Bool := u.st != .idle

/-- Every allocation whose capture is not IDLE, but for one: channel `c` or pipeline `m`. -/
def State.allocsBusy (s : State) (c : Option Ch) (m : Option Cam) : List (Nat × Nat) :=
  ((all24.filter fun (x : Ch) => some x != c && !s.trace[x].isIdle).map fun x => allocOf (s.creg x Reg.TRACE_ALLOC))
    ++ ((all24.filter fun (x : Cam) => some x != m && !s.camTr[x].isIdle).map fun x => allocOf (s.reg (camReg x Reg.CAM_TRC_ALLOC)))

/-- R195: an ARM of the allocation would be refused. -/
def State.armBad (s : State) (a : Nat × Nat) (busy : List (Nat × Nat)) : Bool :=
  a.2 == 0 || decide (1024 < a.1 + a.2) || busy.any (fun b => decide (a.1 < b.1 + b.2) && decide (b.1 < a.1 + a.2)) || decide (1 ≤ s.hk.level)

/-- An armed capture (R196). With PRE 0 it is ready at once. `decim` counts the boundaries up to the first stoke that is sampled, less one. -/
def TraceU.armed (u : TraceU) (pre decim : Nat) : TraceU :=
  if u.isOn then u
  else { u with st := if pre = 0 then .ready else .filling, done := false, preShort := false, throttled := false, ecc := false,
                stored := 0, skip := decim, trigDue := false, recAt := false, postLeft := 0, prev := none }
/-- ABORT. -/
def TraceU.abort (u : TraceU) : TraceU := { u with st := .idle, done := false, trigDue := false }
/-- A trigger (R196): ignored outside FILLING and READY. -/
def TraceU.trigger (u : TraceU) : TraceU :=
  if u.st = .filling then { u with st := .post, preShort := true, trigDue := true }
  else if u.st = .ready then { u with st := .post, trigDue := true } else u
/-- DONE: the trigger record's place and word 0 reach TRACE_TRIG_IDX and TRACE_TRIG_STOKE (R196). -/
def TraceU.finish (u : TraceU) : TraceU :=
  { u with st := .idle, done := true, postLeft := 0, trigDue := false,
           trigIdx := if u.recAt then u.recIdx else u.trigIdx, trigStoke := if u.recAt then u.recStoke else u.trigStoke }
/-- Throttle level L1 ends a capture (R196, R247). -/
def TraceU.throttle (u : TraceU) : TraceU := if u.isOn then { u.finish with throttled := true } else u

/-- The capture after it has stored one record with `word0`, at a depth of `d` records of `n` words. -/
def TraceU.store (u : TraceU) (d n pre : Nat) (word0 : Word) : TraceU :=
  let idx := (u.stored % max d 1) * n
  let u : TraceU := { u with stored := u.stored + 1 }
  match u.st with
  | .filling => { u with st := if pre ≤ u.stored then .ready else .filling }
  | .post =>
    let u : TraceU := if u.trigDue then { u with trigDue := false, recAt := true, recIdx := idx, recStoke := word0, postLeft := d - pre } else u
    if u.postLeft ≤ 1 then u.finish else { u with postLeft := u.postLeft - 1 }
  | _ => u

/-- D: records of `n` words in an allocation. -/
def depthOf (size n : Nat) : Nat := size * 4096 / (4 * n)

/-- TRACE_STATUS. -/
def TraceU.status (u : TraceU) (d : Nat) : Nat :=
  (match u.st with | .idle => 0 | .filling => 1 | .ready => 2 | .post => 3)
    + bitAt u.done 2 + bitAt u.preShort 3 + bitAt u.throttled 4 + bitAt u.ecc 5 + (d % 65536) * 65536

/-! Channel captures. -/

/-- N of TRACE_CFG. -/
def State.traceN (s : State) (c : Ch) : Nat := fld (s.creg c Reg.TRACE_CFG) 0 5
/-- D of a channel's capture. -/
def State.traceD (s : State) (c : Ch) : Nat := depthOf (allocOf (s.creg c Reg.TRACE_ALLOC)).2 (1 + s.traceN c)

/-- PRE ≤ D, with the N that a write of TRACE_CFG brings (R197). -/
def State.traceCfgOk (s : State) (c : Ch) (v : Word) : Bool :=
  decide (fld v 16 16 ≤ depthOf (allocOf (s.creg c Reg.TRACE_ALLOC)).2 (1 + fld v 0 5))

/-- The node codes of R198. -/
def isNode (n : Nat) : Bool :=
  decide (n ≤ 0x0C) || decide (0x10 ≤ n ∧ n ≤ 0x17) || decide (0x20 ≤ n ∧ n ≤ 0x22) || decide (0x24 ≤ n ∧ n ≤ 0x28)
    || decide (0x30 ≤ n ∧ n ≤ 0x32) || decide (0x40 ≤ n ∧ n ≤ 0x4F)

/-- The value of a node at the end of the stoke, and whether it is compared as binary32. -/
def State.node (s : State) (c : Ch) (n : Nat) : Word × Bool :=
  let l := s.loop[c]
  let ax (a : Ax) := s.sv[c].ax[a]
  match n with
  | 0x01 => (l.e, true)
  | 0x02 => (l.g, true)
  | 0x03 => (l.i, true)
  | 0x04 => (l.u, true)
  | 0x05 => (l.uff, true)
  | 0x06 => (l.fb, true)
  | 0x07 => (l.sp, true)
  | 0x08 => (l.ec, true)
  | 0x09 => (l.ic, true)
  | 0x0A => (l.camRaw, false)
  | 0x0B => (toW l.camAge, false)
  | 0x0C => (toW (s.loopStatus c), false)
  | 0x20 => ((ax 0).ePrev, true)
  | 0x21 => ((ax 1).ePrev, true)
  | 0x22 => ((ax 2).ePrev, true)
  | 0x24 => (intW (ax 0).d, false)
  | 0x25 => (intW (ax 1).d, false)
  | 0x26 => (intW (ax 2).d, false)
  | 0x27 => (toW s.las[c].code, false)
  | 0x28 => (toW s.las[c].monMean, false)
  | 0x30 => (intW (ax 0).dec, false)
  | 0x31 => (intW (ax 1).dec, false)
  | 0x32 => (intW (ax 2).dec, false)
  | _ =>
    if 0x10 ≤ n ∧ n ≤ 0x13 then (toW (l.pdE.word (n - 0x10)), false)
    else if 0x14 ≤ n ∧ n ≤ 0x17 then (toW (l.pdB.word (n - 0x14)), false)
    else if 0x40 ≤ n ∧ n ≤ 0x4F then (nthD s.ch[c].telem (n - 0x40) 0#32, false)
    else (0#32, false)

/-- A value lies at or above the level, in its node's format. -/
def atLevel (lvl v : Word) (isF : Bool) : Bool := if isF then fle lvl v else decide (lvl.toInt ≤ v.toInt)

/-- Source 5: the level node crosses the level in the direction chosen. -/
def State.traceCross (s : State) (c : Ch) : Bool :=
  let cfg := s.creg c Reg.TRACE_TRIG_CFG
  let x := s.node c (fld (s.creg c (Reg.TRACE_NODE + 4 * fld cfg 8 4)) 0 8)
  let lvl := s.creg c Reg.TRACE_TRIG_LEVEL
  match s.trace[c].prev with
  | none => false
  | some p => let a := atLevel lvl p x.2; let b := atLevel lvl x.1 x.2; if bit cfg 12 then a && !b else !a && b

/-- The sources of the stoke that trigger under TRACE_TRIG_CFG; `fault` says the channel enters fault at this boundary. -/
def State.traceTrigs (s : State) (c : Ch) (fault : Bool) : Bool :=
  let cfg := s.creg c Reg.TRACE_TRIG_CFG
  (bit cfg 0 && s.ch[c].traceTrig) || (bit cfg 2 && s.loop[c].changed) || (bit cfg 3 && s.loop[c].reverted) || (bit cfg 4 && fault)
    || (bit cfg 5 && s.traceCross c)

/-- A trigger of a camera trace, which notes how many frames have ended: none of them is the trigger frame (R242). -/
def State.camTrTrigger (s : State) (m : Cam) : State :=
  let u := s.camTr[m].trigger
  let u : TraceU := if s.camTr[m].st = .filling ∨ s.camTr[m].st = .ready then { u with recStoke := toW s.cam[m].ends } else u
  { s with camTr := s.camTr.set m.val u m.isLt }

/-- The pipeline bound to a channel is triggered with it (R242). -/
def State.camTrig (s : State) (c : Ch) : State :=
  match s.camOf c with
  | none => s
  | some m => s.camTrTrigger m

/-- A trigger of the channel's trace: its own capture and the bound pipeline's. -/
def State.traceTrigger (s : State) (c : Ch) : State := (s.modTrace c TraceU.trigger).camTrig c

/-- A host trigger, TRACE_CTRL.TRIG, where source 0 is enabled. -/
def State.traceHostTrig (s : State) (c : Ch) : State := if bit (s.creg c Reg.TRACE_TRIG_CFG) 0 then s.traceTrigger c else s

/-- TRACE_CTRL takes effect. -/
def State.traceCtrl (s : State) (c : Ch) (v : Word) : State :=
  let cfg := s.creg c Reg.TRACE_CFG
  -- the stoke that the ARM's boundary ends is none after it
  let s : State := if bit v 0 then s.modTrace c fun u => u.armed (fld cfg 16 16) (fld cfg 8 8 + bitAt s.time.running 0) else s
  let s : State := if bit v 1 then s.traceHostTrig c else s
  if bit v 2 then s.modTrace c TraceU.abort else s

/-- The capture was armed at this very boundary: the stoke that ends is none of its stokes. -/
def State.traceNew (s : State) (c : Ch) : Bool :=
  let u := s.trace[c]
  s.time.running && u.stored == 0 && u.skip == fld (s.creg c Reg.TRACE_CFG) 8 8 + 1

/-- The record of the stoke that ends: triggers are taken, then a sampled stoke is stored (R195, R196). `v` holds the values at the end
of the stoke: the state with the statistics and decimates that the stoke delivered (R15, R137, R175). -/
def State.traceStep (s v : State) (c : Ch) (fault : Bool) : State :=
  let trig := v.traceTrigs c fault
  if !s.trace[c].isOn then if trig then s.camTrig c else s
  else
    let s : State := if !trig then s else if s.traceNew c then s.camTrig c else s.traceTrigger c
    let cfg := s.creg c Reg.TRACE_CFG
    let lv := (v.node c (fld (s.creg c (Reg.TRACE_NODE + 4 * fld (s.creg c Reg.TRACE_TRIG_CFG) 8 4)) 0 8)).1
    let s := s.modTrace c fun u => { u with prev := some lv }
    let u := s.trace[c]
    if u.skip ≠ 0 then s.modTrace c fun u => { u with skip := u.skip - 1 }
    else
      let n := fld cfg 0 5
      let d := s.traceD c
      let ws := s.stoke32 :: (List.range n).map fun i => (v.node c (fld (s.creg c (Reg.TRACE_NODE + 4 * i)) 0 8)).1
      let at_ := traceBase + 4096 * (allocOf (s.creg c Reg.TRACE_ALLOC)).1 + 4 * ((u.stored % max d 1) * (1 + n))
      let s := s.put at_ (ws.flatMap bytesLE)
      let s := s.modTrace c fun u => { u.store d (1 + n) (fld cfg 16 16) s.stoke32 with skip := fld cfg 8 8 }
      if s.trace[c].done then s.chCause c 3 else s

/-- A level of L1 or above ends every capture; each raises its channel's trace interrupt. -/
def State.traceThrottle (s : State) : State :=
  let s := s.forCh fun (s : State) c => if s.trace[c].isOn then (s.modTrace c TraceU.throttle).chCause c 3 else s
  all24.foldl (fun (s : State) (m : Cam) => { s with camTr := s.camTr.set m.val s.camTr[m].throttle m.isLt }) s

/-- The host has read an uncorrectable word of the trace region: every capture whose allocation holds it is flagged (R19, R196). -/
def State.traceFlag (s : State) (a : Nat) : State :=
  let k := (a - traceBase) / 4096
  let holds (u : TraceU) (w : Word) : Bool := !u.isIdle && decide ((allocOf w).1 ≤ k) && decide (k < (allocOf w).1 + (allocOf w).2)
  let s := s.forCh fun s c => if holds s.trace[c] (s.creg c Reg.TRACE_ALLOC) then s.modTrace c fun u => { u with ecc := true } else s
  all24.foldl (fun (s : State) (m : Cam) => if holds s.camTr[m] (s.reg (camReg m Reg.CAM_TRC_ALLOC)) then
    { s with camTr := s.camTr.set m.val { s.camTr[m] with ecc := true } m.isLt } else s) s

/-- The trace registers that are read-only (R197). -/
def State.traceRead (s : State) (c : Ch) (o : Nat) : Option Word :=
  let u := s.trace[c]
  if o = Reg.TRACE_STATUS then some (toW (u.status (s.traceD c)))
  else if o = Reg.TRACE_TRIG_IDX then some (toW u.trigIdx)
  else if o = Reg.TRACE_TRIG_STOKE then some u.trigStoke
  else none

end Sys2Proof.Machine
end

