-- ==== Sys2Proof/Machine/Camera.lean ====
section
/-! DEFINITION. The camera pipelines: triggers, exposures, matching, sets, delivery, taps, states (R227–R249). -/

namespace Sys2Proof.Machine
open Sys2Proof

/-- Change a pipeline. -/
def State.modCam (s : State) (m : Cam) (f : Camera → Camera) : State := { s with cam := s.cam.set m.val (f s.cam[m]) m.isLt }
/-- A register of a pipeline. -/
def State.mreg (s : State) (m : Cam) (o : Nat) : Word := s.reg (camReg m o)
/-- A field of a register of a pipeline. -/
def State.mregF (s : State) (m : Cam) (o lo n : Nat) : Nat := fld (s.mreg m o) lo n
/-- Line-scan mode. -/
def State.lineScan (s : State) (m : Cam) : Bool := bit (s.mreg m Reg.CAM_MODE) 0
/-- WIDTH and HEIGHT. -/
def State.camW (s : State) (m : Cam) : Nat := s.mregF m Reg.CAM_SIZE 0 14
/-- HEIGHT. -/
def State.camH (s : State) (m : Cam) : Nat := s.mregF m Reg.CAM_SIZE 16 9
/-- The channel a pipeline is bound to. -/
def State.camCh (s : State) (m : Cam) : Option Ch :=
  let b := s.mreg m Reg.CAM_BIND
  if h : bit b 7 = true ∧ fld b 0 5 < 24 then some ⟨fld b 0 5, h.2⟩ else none
/-- The linearised value of a raw code (R234). -/
def State.camLin (s : State) (m : Cam) (r : Nat) : Nat := fld (s.mreg m (Reg.CAM_LIN + 4 * (r % 4096))) 0 20
/-- The level of the TRIG pin (R227, R230). -/
def State.trigPin (s : State) (m : Cam) : Bool :=
  (match s.cam[m].exp with | some (_, _, on, _) => on | none => false) != bit (s.mreg m Reg.CAM_MODE) 5
/-- BAR2 offset of a pipeline's dark and flat map (R237). -/
def dfBase (m : Cam) : Nat := 0x1980000 + 0x60000 * m.val
/-- D_cam of the present stoke (R254), to nearest, ties to even. -/
def State.camDark (s : State) (m : Cam) : Int := let e := s.camEst[m]; (e.r0.value e.m e.n).rne

/-! A set's statistics (R233–R239). -/

/-- A deposited record waits for its delivery. -/
def State.camPush (s : State) (m : Cam) (r : CamRec) : State := s.modCam m fun c => { c with done := c.done ++ [r] }

/-- A frame, the `num`-th to have ended, goes to the camera trace: header, then one word per pixel. A frame that ended before the trigger
is no trigger frame (R242). -/
def State.camTrStore (s : State) (m : Cam) (w13 w14 : Word) (stoke w h num : Nat) (px : List Nat) : State :=
  let u := s.camTr[m]
  let n := 4 + w * h
  let a := allocOf (s.mreg m Reg.CAM_TRC_ALLOC)
  let d := depthOf a.2 n
  if !u.isOn || d == 0 then s
  else
    let ws := [w13, w14, toW stoke, toW (w + h * 65536)] ++ px.map toW
    let s := s.put (traceBase + 4096 * a.1 + 4 * ((u.stored % d) * n)) (ws.flatMap bytesLE)
    let u' : TraceU :=
      if u.trigDue ∧ num ≤ u.recStoke.toNat then { u with stored := u.stored + 1 }
      else u.store d n (s.mregF m Reg.CAM_TRC_CFG 0 16) (toW stoke)
    let s := { s with camTr := s.camTr.set m.val u' m.isLt }
    match u'.done, s.camCh m with
    | true, some c => s.chCause c 3
    | _, _ => s

/-! Archive (R241, R367, R374). -/

/-- At a frame's start its pages are reserved, or it will not be archived; either way it takes an ASEQ. -/
def State.archSlot (s : State) (m : Cam) (tap : Word) (on : Bool) : Option (Nat × Nat) × State :=
  if !on then (none, s)
  else
    let k := epsPages (tapBits (fld tap 0 2)) (s.camW m * s.camH m)
    let n := s.cam[m].aseq
    let s := s.modCam m fun c => { c with aseq := (c.aseq + 1) % 4294967296 }
    if s.pool < k then (none, s.bump (camReg m Reg.CAM_ARCH_DROP_CNT)) else (some (k, n), { s with pool := s.pool - k })
/-- The pages of a frame that goes nowhere return to the pool. -/
def State.archBack (s : State) (x : Option (Nat × Nat)) : State := match x with
  | some p => { s with pool := s.pool + p.1 }
  | none => s
/-- The set is one that CAM_TAP archives. -/
def CamSet.archived (z : CamSet) : Bool := bit z.tap 2 && z.setNum % (fld z.tap 8 8 + 1) == 0

/-- The blocks that an uncorrectable word of the compressor's buffers makes the compressor send raw: which ones such a word touches is left
open, and each is flagged by its count (R19). -/
def State.epsRaws (s : State) : Nat → List Bool × State
  | 0 => ([], s)
  | n + 1 =>
    let x := s.ueMet 7
    let r := State.epsRaws x.2 n
    (x.1 :: r.1, r.2)

/-- The compressor's counters take a frame of `len` bytes with `raw` RAW blocks (R376). -/
def State.epsCount (s : State) (m : Cam) (tap n len raw : Nat) : State :=
  let o := 0x10 * m.val
  (((s.bump (epsReg (Reg.EPSC_FRAMES + o))).addCnt (epsReg (Reg.EPSC_IN_BYTES + o)) (epsBound (tapBits tap) n)).addCnt
    (epsReg (Reg.EPSC_OUT_BYTES + o)) len).addCnt (epsReg (Reg.EPSC_RAW_BLK + o)) raw

/-- A frame with reserved pages ends: it is compressed, and the pages it does not use return (R367); or it is dropped whole where its carrier
cannot be reached (R374). -/
def State.camArchive (s : State) (m : Cam) (route : Word) (tap member : Nat) (w13 w14 : Word) (stoke w h : Nat) (px : List Nat)
    (slot : Option (Nat × Nat)) : State :=
  match slot with
  | none => s
  | some (k, n) =>
    let far := bit route 0 && fld route 1 2 != s.devNum
    let lost := (s.lanes.route[(⟨fld route 1 2 % 4, by omega⟩ : Fin 4)]).isNone || !Nat.testBit s.lanes.heard (fld route 1 2)
    if far && lost then { s.bump (hostReg Reg.FWD_DROP_CNT) with pool := s.pool + k }
    else
      let (raws, s) := s.epsRaws ((w * h + 63) / 64)
      let f := epsFrame (tapBits tap) w h px raws
      let used := (f.1.length + 4095) / 4096
      ({ s.epsCount m tap (w * h) f.1.length f.2 with pool := s.pool + (k - used) }).modCam m fun c =>
        { c with arch := c.arch ++ [(⟨tap, member, w13, w14, stoke, w, h, f.1, n, min used k, route⟩ : CamArch)] }

/-- The dark and flat entry of pixel i, and whether it is uncorrectable (R236). -/
def State.dfEntry (s : State) (m : Cam) (line : Bool) (w i : Nat) : Word × Bool :=
  let a : Nat := dfBase m + 4 * (if line then i % w else 256 * (i / w) + i % w)
  if s.isBad a then (0x40000000#32, true) else (s.word a, false)

/-- The data of a set or strip: members present with exposure and raw pixels, and the taps in force. -/
structure SetData where
  set : Option CamSet
  frames : List CamFrame
  partial_ : Bool
  line : Bool
  tap : Word
  route : Word
  deriving DecidableEq, Repr

/-- A frame of a tap: its member, the frame it comes from or was completed by, and its samples. -/
structure TapFrame where
  member : Nat
  frame : CamFrame
  px : List Nat
  deriving DecidableEq, Repr

/-- The tap's frames: one for each member at T0 and T1, one for the set at T2 and T3. -/
def tapFrames (tap : Nat) (fs : List CamFrame) (lin : Nat → Nat) (merged corr : List Nat) : List TapFrame :=
  if tap = 0 then fs.map fun f => ⟨f.member, f, f.raw⟩
  else if tap = 1 then fs.map fun f => ⟨f.member, f, f.raw.map lin⟩
  else match fs.getLast? with
    | some f => [⟨255, f, if tap = 2 then merged else corr⟩]
    | none => []

/-- A closed set, an untagged frame or a strip is processed: statistics, dark sample, archive and trace. `dk` is what the
dark estimator needs: whether the exposure window was dark so far and whether it reaches into the present stoke. -/
def State.camProcess (s : State) (m : Cam) (d : SetData) (dk : Bool × Bool) : State :=
  match d.frames with
  | [] => s
  | f0 :: _ =>
    let w := s.camW m
    let h := s.camH m
    let sat := s.mregF m Reg.CAM_SAT_RAW 0 12
    let df := s.mreg m Reg.CAM_DF_CFG
    let n := w * h
    let wid (i : Nat) : Nat := match d.set with | some z => nthD z.widths i 1 | none => 1
    let tl : Option Nat := match d.set with
      | some z => if 1 < z.members ∧ d.line = false then some ((z.widths.take z.members).foldl max 0) else none
      | none => none
    let lin := s.camLin m
    let sel := (List.range n).map fun i => selectMember sat (d.frames.map fun f => (wid f.member, nthD f.raw i 0, f.member))
    let mg := sel.map fun x => mergePixel lin sat (s.mregF m Reg.CAM_MERGE 0 4) tl x
    -- the merge and line buffer (R237)
    let s := s.put (dfBase m + 0x40000) (sel.flatMap fun x => bytesOfNatLE 2 (Config.mergeHalf x.2.1 x.2.2).toNat)
    let ents := (List.range n).map fun i => if bit df 0 then some (s.dfEntry m d.line w i) else none
    let dcam := match d.set with | some z => z.dcam | none => s.camDark m
    let v := (mg.zip ents).map fun x => correct x.1.1 dcam (fld df 8 4) (x.2.map (·.1))
    let ecc := (ents.filter fun e => match e with | some x => x.2 | none => false).length
    let s := s.addCnt (camReg m Reg.CAM_DF_ECC_CNT) ecc
    let s := (List.range n).foldl (fun (s' : State) i =>
      if bit df 0 && (s.dfEntry m d.line w i).2 then s'.countUe (dfBase m + 4 * (if d.line then i % w else 256 * (i / w) + i % w)) else s') s
    let st := statWords w f0.thr1 f0.thr2 f0.spat d.line (mg.filter (·.2)).length v
    let fl := d.frames.foldl (fun a f => a ||| f.flags) 0
    let w13 := match d.set with | some z => z.tseq % 65536 | none => 65536
    let l2 := match d.set with | some z => z.l2 | none => false
    let w13 := toW (w13 + fl * 131072 + bitAt d.partial_ 22 + bitAt (decide (ecc ≠ 0)) 23 + bitAt st.2 24 + bitAt d.line 25 + bitAt l2 26)
    let mem := match d.set with | some z => z.members | none => 1
    let pres := d.frames.foldl (fun a f => a ||| 2 ^ (f.member + 2)) 0
    let w14 := toW (match d.set with | some z => mem + pres + z.gen * 256 + (z.setNum % 65536) * 65536 | none => 1 + 4)
    let used := (List.range 3).map fun i => match d.set with
      | some z => if d.frames.any (fun f => f.member == i) then nthD z.widths i 0 else 0
      | none => 0
    let s : State := if d.partial_ then s.bump (camReg m Reg.CAM_PARTIAL_CNT) else s
    let s := s.camPush m ⟨st.1 ++ [w13, w14, 0#32], used, s.time.cnt, d.line⟩
    let mgv := mg.map (·.1)
    let at_ := fld d.tap 0 2
    let s := (tapFrames at_ d.frames lin mgv v).foldl (fun (s : State) x =>
      s.camArchive m d.route at_ x.member w13 w14 x.frame.stoke w h x.px (if at_ < 2 then x.frame.slot else f0.slot)) s
    let s := (tapFrames (fld d.tap 16 2) d.frames lin mgv v).foldl (fun (s : State) x =>
      s.camTrStore m w13 w14 x.frame.stoke w h x.frame.num x.px) s
    let darks := (mg.zip ents).map fun x => ((x.1.1 : Int) - match x.2 with | some e => ((fld e.1 0 16 * 2 ^ fld df 8 4 : Nat) : Int) | none => 0)
    if fld w13 16 9 = 0 ∧ dk.1 = true then
      s.modCam m fun c => { c with dark := c.dark ++ [(Q.mk' (darks.foldl (· + ·) 0) (max n 1), dk.2)] }
    else s

/-! Sets and strips (R232, R233, R243). -/

/-- An open set closes: it is processed from the members present. -/
def State.setClose (s : State) (m : Cam) (o : CamOpen) : State :=
  let s := s.modCam m fun c => { c with opens := c.opens.filter fun x => x.set.setNum != o.set.setNum }
  s.camProcess m ⟨some o.set, o.frames, decide (o.frames.length < o.set.members), false, o.set.tap, o.set.route⟩
    (o.dark, o.fell.isNone || o.fell == some s.time.cnt)

/-- A strip takes its next line, and is processed once it is full. -/
def State.stripAdd (s : State) (m : Cam) (o : CamOpen) (f : CamFrame) : State :=
  let reach := o.fell.isNone || o.fell == some s.time.cnt
  let x : CamStrip := match s.cam[m].strip with
    | some x => { x with lines := x.lines ++ [f.raw], flags := x.flags ||| f.flags, dark := x.dark && o.dark, reach := x.reach || reach }
    | none => ⟨o.set, [f.raw], f.flags, f, o.dark, reach⟩
  let full := decide (s.camH m ≤ x.lines.length)
  let s := s.modCam m fun c => { c with strip := if full then none else some x }
  if full then
    s.camProcess m ⟨some x.set, [{ x.head with raw := x.lines.flatten, flags := x.flags, stoke := s.time.cnt, num := s.cam[m].ends }], false, true, x.set.tap, x.set.route⟩
      (x.dark, x.reach)
  else s

/-- The line that stands for a missed pulse. A strip that it begins is reserved for at once. -/
def State.padLine (s : State) (m : Cam) (o : CamOpen) : CamFrame × State :=
  let r := s.archSlot m o.set.tap (o.set.archived && s.cam[m].strip.isNone)
  (⟨0, List.replicate (s.camW m) (s.mregF m Reg.CAM_PAD 0 12), 4, s.time.cnt, s.mregF m Reg.CAM_THR1 0 24, s.mregF m Reg.CAM_THR2 0 24,
    s.mreg m Reg.CAM_SPAT, s.cam[m].ends, r.1⟩, r.2)

/-- Lines enter the strip in tag order: those that have ended, and a line of PAD_VAL for each missed pulse, up to the first tag that is still
awaited. -/
def State.stripFlush (s : State) (m : Cam) : Nat → State
  | 0 => s
  | k + 1 =>
    match s.cam[m].opens with
    | [] => s
    | o :: r =>
      let pop (s : State) : State := s.modCam m fun c => { c with opens := r }
      match o.frames with
      | f :: _ => State.stripFlush ((pop s).stripAdd m o f) m k
      | [] =>
        if o.missed then
          let x := (pop s).padLine m o
          State.stripFlush (x.2.stripAdd m o x.1) m k
        else s

/-- A pulse is removed as missed (R232): its set closes (R233), or its line is padded in its turn (R243). -/
def State.pulseMiss (s : State) (m : Cam) (p : CamPulse) : State :=
  let s := (s.bump (camReg m Reg.CAM_TRIG_MISS_CNT)).modCam m fun c => { c with pending := c.pending.filter fun x => x != p }
  if s.lineScan m then
    let s := s.modCam m fun c => { c with opens := c.opens.map fun o => if o.set.setNum = p.setNum then { o with missed := true } else o }
    s.stripFlush m s.cam[m].opens.length
  else match s.cam[m].opens.find? fun o => o.set.setNum == p.setNum with
    | some o => s.setClose m o
    | none => s

/-! Triggers (R229–R231). -/

/-- MATCH_WIN in core cycles. -/
def State.matchWin (s : State) (m : Cam) : Int := (8 * s.mregF m Reg.CAM_MATCH 0 24 : Nat)

/-- A pulse of a set rises at an instant. -/
def State.pulseRise (s : State) (m : Cam) (z : CamSet) (i : Nat) (t : Int) : State :=
  let s := s.modCam m fun c =>
    { c with exp := some (z, i, true, t + (nthD z.widths i 8 : Nat)), rise := some t, tseq := (c.tseq + 1) % 65536,
             pending := c.pending ++ [⟨(z.tseq + i) % 65536, z.setNum, i, t⟩] }
  (s.at_ t.toNat).evPulse (0x80 + m.val)

/-- R230: a request at an instant starts a set, or is lost. -/
def State.camRequest (s : State) (m : Cam) (t : Int) : State :=
  let c := s.cam[m]
  if c.st ≠ .run ∨ c.exp.isSome = true ∨ 8 ≤ c.pending.length then s.bump (camReg m Reg.CAM_TRIG_LOST_CNT)
  else
    let mem := if s.lineScan m then 1 else s.mregF m Reg.CAM_HDR 0 2
    let cut := decide (2 ≤ s.hk.level) && mem == 3
    let ws := [s.mregF m Reg.CAM_EXP_A 0 24, s.mregF m Reg.CAM_EXP_B 0 24, s.mregF m Reg.CAM_EXP_C 0 24]
    let z : CamSet := ⟨c.setNum, c.tseq, if cut then 2 else mem, ws, s.mregF m Reg.CAM_SET_GAP 0 24, c.gen, cut, s.camDark m, s.mreg m Reg.CAM_TAP, s.reg (hostReg Reg.ARCH_ROUTE)⟩
    let s := s.modCam m fun c =>
      { c with setNum := (c.setNum + 1) % 65536, l2cut := cut, opens := c.opens ++ [⟨z, [], false, none, true⟩] }
    s.pulseRise m z 0 t

/-- The exposure's next edge: TRIG falls, or the next member rises. -/
def State.camEdge (s : State) (m : Cam) : State :=
  match s.cam[m].exp with
  | some (z, i, true, t) =>
    let s := s.modCam m fun c => { c with fall := some t }
    if i + 1 < z.members then s.modCam m fun c => { c with exp := some (z, i + 1, false, t + (z.gap : Nat)) }
    else s.modCam m fun c =>
      { c with exp := none, opens := c.opens.map fun o => if o.set.setNum = z.setNum then { o with fell := some s.time.cnt } else o }
  | some (z, i, false, t) => s.pulseRise m z i t
  | none => s

/-- The kinds of events a pipeline has by itself, in the order in which they act at one instant. -/
inductive CamEv where
  | edge | miss (p : CamPulse) | host | periodic | prog
  deriving DecidableEq, Repr

/-- The earlier of two events; the first stands where they coincide. -/
def earlier (a b : Option (Int × CamEv)) : Option (Int × CamEv) :=
  match a, b with
  | some x, some y => if y.1 < x.1 then b else a
  | none, _ => b
  | _, none => a

/-- The pipeline's next event in the present stoke. -/
def State.camNext (s : State) (m : Cam) : Option (Int × CamEv) :=
  let c := s.cam[m]
  let e := c.exp.map fun x => (x.2.2.2, CamEv.edge)
  let p := c.pending.head?.map fun x => (x.rise + s.matchWin m, CamEv.miss x)
  let h : Option (Int × CamEv) := if c.reqDue then some (0, .host) else none
  let per : Option (Int × CamEv) :=
    if !c.perDone && s.mregF m Reg.CAM_TRIG_CFG 0 2 == 1 && s.time.running && s.time.cnt % max 1 (s.mregF m Reg.CAM_TRIG_CFG 16 16) == 0 then
      some ((s.mregF m Reg.CAM_TRIG_OFFSET 0 13 : Nat), .periodic) else none
  let pr : Option (Int × CamEv) := if s.mregF m Reg.CAM_TRIG_CFG 0 2 = 3 then c.progAt.map fun t => ((t : Int), CamEv.prog) else none
  earlier e (earlier p (earlier h (earlier per pr)))

/-- One event of the pipeline's own. -/
def State.camAct (s : State) (m : Cam) (t : Int) (e : CamEv) : State :=
  match e with
  | .edge => s.camEdge m
  | .miss p => s.pulseMiss m p
  | .host => (s.modCam m fun c => { c with reqDue := false }).camRequest m t
  | .periodic => (s.modCam m fun c => { c with perDone := true }).camRequest m t
  | .prog => (s.modCam m fun c => { c with progAt := none }).camRequest m t

/-- Every event of the pipeline's own before instant `t` of the present stoke, or at it, acts in order. -/
def State.camRunN (s : State) (m : Cam) (t : Int) : Nat → State
  | 0 => s
  | f + 1 =>
    match s.camNext m with
    | some (u, e) => if u ≤ t then State.camRunN (s.camAct m u e) m t f else s
    | none => s

/-- The pipeline runs to an instant; no more than 64 of its own events fit a stoke. -/
def State.camRun (s : State) (m : Cam) (t : Nat) : State := s.camRunN m t 64

/-- A request of the event matrix, where SRC selects it (R229). -/
def State.camEvent (s : State) (m : Cam) (t : Nat) : State :=
  let s := s.camRun m t
  if s.mregF m Reg.CAM_TRIG_CFG 0 2 = 2 then s.camRequest m t else s

/-! Frames (R227, R228, R232). -/

/-- The open sets that a frame matched to a pulse of set `n` closes: the earlier ones (R233). -/
def Camera.earlierOpens (c : Camera) (n : Nat) : List CamOpen :=
  c.opens.filter fun o => o.set.setNum != n && decide ((n + 65536 - o.set.setNum) % 65536 < 32768)

/-- A frame in progress that is matched to a pulse, or to none, with what the archive reserves for it. -/
def State.frameOpen (s : State) (m : Cam) (tag : Option CamPulse) : State :=
  let live := s.mreg m Reg.CAM_TAP
  let open_ : Option CamOpen := tag.bind fun p => s.cam[m].opens.find? fun o => o.set.setNum == p.setNum
  let on := match open_ with
    | some o => o.set.archived && (if s.lineScan m then s.cam[m].strip.isNone else decide (fld o.set.tap 0 2 < 2) || o.frames.isEmpty)
    | none => tag.isNone && bit live 2 && bit live 3 && !s.lineScan m
  let tap := match open_ with
    | some o => o.set.tap
    | none => live
  let r := s.archSlot m tap on
  r.2.modCam m fun c =>
    { c with fv := true, cur := some ⟨tag.map fun p => (p.setNum, p.member), s.time.cnt, s.mregF m Reg.CAM_THR1 0 24, s.mregF m Reg.CAM_THR2 0 24,
                                      s.mreg m Reg.CAM_SPAT, tap, s.reg (hostReg Reg.ARCH_ROUTE), r.1, false⟩ }

/-- A frame starts: missed pulses leave the list, and the oldest that rose before it is matched. The pipeline's own events of the
same instant come after it: a pulse that rose exactly MATCH_WIN before is still matched. -/
def State.frameStart (s : State) (m : Cam) (t : Nat) : State :=
  let s := s.camRunN m ((t : Int) - 1) 64
  if s.cam[m].st = .stopped then s.modCam m fun c => { c with fv := true }
  else if s.cam[m].fv then s
  else
    let s := s.evPulse (0x40 + m.val)
    let win := s.matchWin m
    let s := (s.cam[m].pending.filter fun p => decide (p.rise + win < (t : Int))).foldl (fun (s : State) p => s.pulseMiss m p) s
    match s.cam[m].pending.find? fun p => decide (p.rise < (t : Int)) with
    | none => (s.bump (camReg m Reg.CAM_UNTAGGED_CNT)).frameOpen m none
    | some p =>
      let s := s.modCam m fun c => { c with pending := c.pending.filter fun x => x != p }
      let s := if s.lineScan m then s else (s.cam[m].earlierOpens p.setNum).foldl (fun (s : State) o => s.setClose m o) s
      s.frameOpen m (some p)

/-- The frame in progress ends with the lines received. A frame whose set has closed belongs to none. -/
def State.frameTake (s : State) (m : Cam) (u : CamCur) (lines : List (List Nat)) (tmo : Bool) : State :=
  let w := s.camW m
  let h := if s.lineScan m then 1 else s.camH m
  let pv := s.mregF m Reg.CAM_PAD 0 12
  let lines := lines.map (pclkPixels (bit (s.mreg m Reg.CAM_MODE) 2))
  let fl := shapeFlags w h tmo lines
  let raw := shapeLines w (if bit (s.mreg m Reg.CAM_MODE) 1 then none else some pv) pv h none lines
  let s := s.bump (camReg m Reg.CAM_FRAME_CNT)
  let s : State := if fl % 2 = 1 ∨ (fl / 4) % 2 = 1 then s.bump (camReg m Reg.CAM_SHORT_CNT) else s
  let s : State := if (fl / 2) % 2 = 1 ∨ (fl / 8) % 2 = 1 then s.bump (camReg m Reg.CAM_LONG_CNT) else s
  let s : State := if tmo then s.bump (camReg m Reg.CAM_TMO_CNT) else s
  let s := s.modCam m fun c => { c with cur := if tmo then some { u with dead := true } else none, ends := c.ends + 1 }
  let f (i : Nat) : CamFrame := ⟨i, raw, fl, s.time.cnt, u.thr1, u.thr2, u.spat, s.cam[m].ends, u.slot⟩
  match u.tag with
  | none => if s.lineScan m then s else s.camProcess m ⟨none, [f 0], false, false, u.tap, u.route⟩ (false, false)
  | some (n, i) =>
    match s.cam[m].opens.find? fun o => o.set.setNum == n with
    | none => s.archBack u.slot
    | some o =>
      let o' : CamOpen := { o with frames := o.frames ++ [f i] }
      let s := s.modCam m fun c => { c with opens := c.opens.map fun x => if x.set.setNum = n then o' else x }
      if s.lineScan m then s.stripFlush m s.cam[m].opens.length
      else if i + 1 = o.set.members then s.setClose m o' else s

/-- FV, or LV in line-scan mode, falls. -/
def State.frameEnd (s : State) (m : Cam) (t : Nat) (lines : List (List Nat)) : State :=
  let s := s.camRun m t
  let s := s.modCam m fun c => { c with fv := false }
  match s.cam[m].cur with
  | none => s
  | some u => if u.dead then s.modCam m fun c => { c with cur := none } else s.frameTake m u lines false

/-- R228: a frame still active CAM_FRAME_TMO stokes after it rose ends at the boundary. -/
def State.tmoDue (s : State) (m : Cam) : Bool :=
  match s.cam[m].cur with
  | some u => !u.dead && decide (u.start + s.mregF m Reg.CAM_FRAME_TMO 0 16 ≤ s.time.cnt) && !s.lineScan m
  | none => false
/-- The frame that is due to be ended is ended with the lines received so far. -/
def State.frameTimeout (s : State) (m : Cam) (lines : List (List Nat)) : State :=
  if s.tmoDue m then match s.cam[m].cur with
    | some u => s.frameTake m u lines true
    | none => s
  else s

/-! Delivery (R239). -/

/-- The oldest closed set's record completes in the present stoke. -/
def State.statComplete (s : State) (m : Cam) : State :=
  match s.cam[m].done with
  | [] => s
  | r :: rest =>
    let r' : CamRec := { r with words := r.words.take 15 ++ [s.stoke32] }
    let s : State := if s.cam[m].fresh.isSome then s.bump (camReg m Reg.CAM_STAT_OVERWRITE_CNT) else s
    (s.modCam m fun c => { c with done := rest, fresh := some r' }).evPulse (0x60 + m.val)

/-- Records whose set closed two stokes ago complete at the latest in the stoke that ends. -/
def State.statForce (s : State) (m : Cam) : Nat → State
  | 0 => s
  | f + 1 =>
    match s.cam[m].done with
    | r :: _ => if r.close + 2 ≤ s.time.cnt then State.statForce (s.statComplete m) m f else s
    | [] => s

/-- A word of a record as binary32, by its format (R240). -/
def statF (i : Nat) (w : Word) : Word :=
  if i = 2 ∨ i = 3 then fOfQ w.toNat 16
  else if i = 9 then fOfInt w.toInt
  else if (4 ≤ i ∧ i ≤ 8) ∨ i = 11 then w
  else fOfInt w.toNat

/-- At the end of the stoke its record reaches the ports, the loop unit where it is usable (R177), and telemetry. -/
def State.statDeliver (s : State) (m : Cam) : State :=
  match s.cam[m].fresh with
  | none => s
  | some r =>
    let s := s.modCam m fun c => { c with fresh := none, stat := r.words, used := r.used, telDue := (s.camCh m).isSome }
    match s.camCh m with
    | none => s
    | some c =>
      let w13 := nthD r.words 13 0#32
      let cfg := s.creg c Reg.LOOP_CFG
      let ok := !r.strip && !bit w13 16 && (fld w13 17 7 == 0 || bit cfg 4)
      let i := fld cfg 8 4
      let w := nthD r.words i 0#32
      if ok then s.modLoop c fun l => { l with camNew := some (w, statF i w) } else s

/-! States (R244–R247). -/

/-- A START would be refused. -/
def State.camStartBad (s : State) (m : Cam) : Bool :=
  let w := s.camW m
  let h := s.camH m
  let wm := if s.lineScan m then 8192 else 256
  decide (2 ≤ s.hk.level) || w == 0 || decide (wm < w) || h == 0 || decide (256 < h) || decide (65536 < w * h)
    || [Reg.CAM_EXP_A, Reg.CAM_EXP_B, Reg.CAM_EXP_C, Reg.CAM_SET_GAP].any fun o => decide (s.mregF m o 0 24 < 8)

/-- START at a boundary. -/
def State.camStart (s : State) (m : Cam) : State :=
  if s.cam[m].st = .stopped then
    s.modCam m fun c => { c with st := .run, tseq := 0, setNum := 0, aseq := 0, pending := [], opens := [], exp := none, strip := none, cur := none }
  else s
/-- STOP at a boundary. -/
def State.camStop (s : State) (m : Cam) : State := s.modCam m fun c => if c.st = .run then { c with st := .stopping } else c
/-- What the archive has reserved for frames, sets and strips in progress. -/
def Camera.slots (c : Camera) : List (Option (Nat × Nat)) :=
  (match c.cur with | some u => if u.dead then [] else [u.slot] | none => []) ++ c.opens.flatMap (fun o => o.frames.map (·.slot))
    ++ (match c.strip with | some x => [x.head.slot] | none => [])
/-- ABORT at a boundary. -/
def State.camAbort (s : State) (m : Cam) : State :=
  (s.cam[m].slots.foldl State.archBack s).modCam m fun c => { c with st := .stopped, pending := [], opens := [], exp := none, strip := none, cur := none }
/-- STOPPING may end (R244). -/
def Camera.atRest (c : Camera) : Bool := c.st == .stopping && c.pending.isEmpty && c.opens.isEmpty && c.exp.isNone && !c.fv
/-- STOPPING ends at a boundary; a strip that is not full is no set and yields nothing. -/
def State.camStopped (s : State) (m : Cam) : State :=
  if s.cam[m].atRest then (s.cam[m].slots.foldl State.archBack s).modCam m fun c => { c with st := .stopped, strip := none } else s

/-- CAM_CTRL takes effect. -/
def State.camCtrl (s : State) (m : Cam) (v : Word) : State :=
  let s : State := if bit v 0 then s.camStart m else s
  let s : State := if bit v 1 then s.camStop m else s
  if bit v 2 then s.camAbort m else s

/-- The registers that only a STOPPED pipeline takes (R245). -/
def camLocked (o : Nat) : Bool :=
  o == Reg.CAM_BIND || decide (Reg.CAM_MODE ≤ o ∧ o ≤ Reg.CAM_DF_CFG) || decide (Reg.CAM_LIN ≤ o)
/-- R246: a binding names a channel bound to another pipeline. -/
def State.bindClash (s : State) (m : Cam) (v : Word) : Bool :=
  bit v 7 && all24.any fun (x : Cam) => x != m && (s.camCh x).any fun c => c.val == fld v 0 5
/-- A binding takes effect. -/
def State.camBind (s : State) (m : Cam) (v : Word) : State :=
  let old := s.camCh m
  let s := s.setReg (camReg m Reg.CAM_BIND) v
  let un (s : State) (c : Option Ch) : State := match c with | some c => s.loopUnbind c | none => s
  un (un s old) (s.camCh m)

/-- CAM_MODE: a change of polarity turns the input that frames follow over, and LINE_SCAN chooses that input, taken as inactive (R227). -/
def State.camModeWrite (s : State) (m : Cam) (v : Word) : State :=
  let old := s.mreg m Reg.CAM_MODE
  let k := if bit v 0 then 4 else 3
  (s.setReg (camReg m Reg.CAM_MODE) v).modCam m fun c => { c with fv := if bit v 0 != bit old 0 then false else c.fv != (bit v k != bit old k) }

/-- CAM_TRIG_AT committed at this boundary enters the holding stage; the one held comes to play. A bad value is a bad edge of the bound
channel (R160, R229). -/
def State.camShift (s : State) (m : Cam) : State :=
  let v := (s.mreg m Reg.CAM_TRIG_AT).toNat
  let s := s.setReg (camReg m Reg.CAM_TRIG_AT) 0xFFFFFFFF#32
  let s := match s.camCh m with
    | some c => if s.stokeCyc ≤ v ∧ v ≠ 0xFFFFFFFF then (s.bump (chReg c Reg.EDGE_BAD_CNT)).modLas c fun l => { l with badEdge := true } else s
    | none => s
  let len : Int := (s.stokeCyc : Nat)
  s.modCam m fun c =>
    { c with progAt := c.progHeld, progHeld := if v < s.stokeCyc then some v else none, perDone := false,
             exp := c.exp.map fun x => (x.1, x.2.1, x.2.2.1, x.2.2.2 - len), rise := c.rise.map (· - len), fall := c.fall.map (· - len), pending := c.pending.map fun p => { p with rise := p.rise - len },
             gen := if c.genDue then (c.gen + 1) % 256 else c.gen, genDue := false }

/-- Camera trace control (R242). -/
def State.camTrCtrl (s : State) (m : Cam) (v : Word) : State :=
  let set (s : State) (u : TraceU) : State := { s with camTr := s.camTr.set m.val u m.isLt }
  let s : State := if bit v 0 then set s (s.camTr[m].armed (s.mregF m Reg.CAM_TRC_CFG 0 16) 0) else s
  let s : State := if bit v 1 then s.camTrTrigger m else s
  if bit v 2 then set s s.camTr[m].abort else s
/-- D of a camera trace with an allocation and the present size. -/
def State.camTrD (s : State) (m : Cam) : Nat := depthOf (allocOf (s.mreg m Reg.CAM_TRC_ALLOC)).2 (4 + s.camW m * s.camH m)

/-- CAM_STATUS. -/
def State.camStatus (s : State) (m : Cam) : Nat :=
  let c := s.cam[m]
  (match c.st with | .stopped => 0 | .run => 1 | .stopping => 2) + bitAt (c.st == .stopped && decide (2 ≤ s.hk.level)) 2 + bitAt c.l2cut 3
    + bitAt (!c.opens.isEmpty || c.exp.isSome) 4 + min c.pending.length 8 * 256

/-- The pipeline's read-only registers (R249). -/
def State.camRead (s : State) (m : Cam) (o : Nat) : Option Word :=
  let c := s.cam[m]
  if o = Reg.CAM_STATUS then some (toW (s.camStatus m))
  else if o = Reg.CAM_TRC_STATUS then some (toW (s.camTr[m].status (s.camTrD m)))
  else if o = Reg.CAM_TRC_TRIG_IDX then some (toW s.camTr[m].trigIdx)
  else if 0x200 ≤ o ∧ o < 0x240 then some (nthD c.stat ((o - 0x200) / 4) 0#32)
  else if 0x240 ≤ o ∧ o < 0x24C then some (toW (nthD c.used ((o - 0x240) / 4) 0))
  else if o = Reg.CAM_EXP_GEN then some (toW c.gen)
  else if o = Reg.CAM_TSEQ_NEXT then some (toW c.tseq)
  else none

/-- The camera ports of a channel (R248); every one reads 0 for a channel without a pipeline (R246). -/
def State.camPort (s : State) (c : Ch) (p : Nat) : Option Word :=
  if 0x240 ≤ p ∧ p ≤ 0x254 then
    match s.camOf c with
    | none => some 0#32
    | some m =>
      if p < 0x250 then s.camRead m (0x200 + 4 * (p - 0x240))
      else if p = 0x250 then some (toW s.loop[c].camAge)
      else if p = 0x251 then some (toW (1 + (s.camStatus m % 4) * 2 + (s.camStatus m / 8 % 2) * 8 + (s.camStatus m / 4 % 2) * 16 + m.val * 256))
      else s.camRead m (0x240 + 4 * (p - 0x252))
  else none

end Sys2Proof.Machine
end

