-- ==== Sys2Proof/Machine/Illum.lean ====
section
/-! DEFINITION. Powder-bed illumination: chain frames, strobes, intensity, derating, diagnosis (R329–R340). -/

namespace Sys2Proof.Machine
open Sys2Proof

/-- Change a chain. -/
def State.modIll (s : State) (c : Fin 4) (f : IllU → IllU) : State := { s with ill := s.ill.set c.val (f s.ill[c]) c.isLt }
/-- A register of a chain. -/
def State.illR (s : State) (c : Fin 4) (o : Nat) : Word := s.reg (illReg (o + 0x100 * c.val))
/-- A field of a register of a chain. -/
def State.illF (s : State) (c : Fin 4) (o lo n : Nat) : Nat := fld (s.illR c o) lo n
/-- Drivers of a chain. -/
def State.nDrv (s : State) (c : Fin 4) : Nat := s.illF c Reg.ILL_CFG 0 6
/-- A chain clock in core cycles (R339). -/
def State.chainClk (s : State) (c : Fin 4) : Nat := 16 * s.illF c Reg.ILL_CFG 8 8
/-- STROBE is held low by the kill stage (R338). -/
def State.illDead (s : State) : Bool := s.damperHolds || s.hk.shut || s.boot.inReset
/-- A register of sensor b. -/
def luxReg (b : Fin 4) (o : Nat) : Nat := illReg (o + 0x20 * b.val)

/-! Frames (R329–R331, R333). -/

/-- G_b in force (R334). -/
def State.luxGain (s : State) (b : Fin 4) : Word := if bit (s.reg (luxReg b Reg.LUX_CFG)) 0 then s.reg (luxReg b Reg.LUX_GAIN) else fone
/-- The word of one output, and the band in which a limit holds it (R333). -/
def illWord (out : Word) (g : Q) (ceil : Nat) : Word × Nat :=
  if bit out 12 then
    let x := ((Q.ofInt (fld out 0 12 : Nat)).mul g).rne
    let lim := min ceil 4095
    (toW ((clampI 0 (lim : Int) x).toNat + 4096), if (lim : Int) < x then 2 ^ fld out 13 2 else 0)
  else (0#32, 0)
/-- The words of the frame that starts, output 0 first, and the bands held by a limit. -/
def State.illWords (s : State) (c : Fin 4) : List Word × Nat :=
  let g : List Q := all4.map fun (b : Fin 4) => qOfF (s.luxGain b)
  let ceil := s.ill[c].ceil
  let ws := (List.range (16 * s.nDrv c)).map fun i =>
    let o := s.reg (illReg (Reg.ILL_OUT + 0x800 * c.val + 4 * i))
    illWord o (nthD g (fld o 13 2) (Q.ofInt 1)) ceil
  (ws.map (·.1), ws.foldl (fun (a : Nat) w => a ||| w.2) 0)

/-- A frame is requested at an instant (R331). -/
def State.illFrame (s : State) (c : Fin 4) (t : Int) : State :=
  if s.nDrv c = 0 then s
  else if (s.ill[c].shift).isSome then s.modIll c fun u => { u with again := true }
  else
    let w := s.illWords c
    let e : Int := t + (256 * s.nDrv c * s.chainClk c : Nat)
    s.modIll c fun u => { u with shift := some (w.1, e, w.2) }

/-! Strobes and test pulses (R332, R337). -/

/-- TRIG of a pipeline is active, as far as it has run. -/
def State.trigOn (s : State) (m : Cam) : Bool :=
  match s.cam[m].exp with
  | some (_, _, a, _) => a
  | none => false
/-- The pipelines of ILL_CAM_MASK. -/
def State.illCams (s : State) (c : Fin 4) : List Cam := all24.filter fun (m : Cam) => bit (s.illR c Reg.ILL_CAM_MASK) m.val

/-- A pulse on STROBE ends at an instant. -/
def IllU.pulseEnd (u : IllU) (a t : Int) : IllU :=
  { u with openAt := none, testAt := none, closedAt := t, onMax := max u.onMax ((t - a) / 8).toNat }

/-- The strobe opens. -/
def State.strobeOpen (s : State) (c : Fin 4) (t : Int) : State :=
  let w : Int := (8 * s.illF c Reg.STB_WIDTH 0 20 : Nat)
  let s := (s.modIll c fun u => { u with pendAt := none, openAt := some (t, t + w) }).bump (illReg (Reg.STB_CNT + 0x100 * c.val))
  (s.at_ t.toNat).evPulse (0xC0 + c.val)

/-- The strobe closes: the sensors give their mean, a frame may start, a test pulse may be due. -/
def State.strobeClose (s : State) (c : Fin 4) (a t : Int) : State :=
  let cfg := s.illR c Reg.ILL_CFG
  let n := s.illF c Reg.DIAG_INTERVAL 0 16
  let s := s.modIll c fun u =>
    let k := u.strobes + 1
    let due := bit cfg 17 && (decide (n ≤ k) || u.testAgain)
    { (u.pulseEnd a t) with luxDue := some ((t - a) / 8).toNat, strobes := if n ≤ k then 0 else k, testWait := due, testAgain := false }
  if bit cfg 16 then s.illFrame c t else s

/-- The test pulse ends, cut by a TRIG or a request, or complete. -/
def State.testEnd (s : State) (c : Fin 4) (a t : Int) (cut again : Bool) : State :=
  let s := s.modIll c fun u => { (u.pulseEnd a t) with testAgain := again }
  if cut then s.bump (illReg (Reg.DIAG_CUT_CNT + 0x100 * c.val)) else s

/-- The instant from which a waiting test pulse may start. -/
def State.testFrom (s : State) (c : Fin 4) : Option Int :=
  let ms := s.illCams c
  if ms.any s.trigOn then none
  else some (ms.foldl (fun (a : Int) (m : Cam) => match s.cam[m].fall with
    | some f => max a ((f / 8 + 1) * 8)
    | none => a) (s.ill[c].closedAt + 8))

/-- The first masked TRIG rise inside a test pulse. -/
def State.testCut (s : State) (c : Fin 4) (a e : Int) : Option Int :=
  (s.illCams c).foldl (fun (x : Option Int) (m : Cam) => match s.cam[m].rise with
    | some r => if a ≤ r ∧ r < e then some (match x with
      | some y => min y r
      | none => r) else x
    | none => x) none

/-- One event of the chain's own at or before instant `t`. -/
def State.illNext (s : State) (c : Fin 4) (t : Int) : Option State :=
  let u := s.ill[c]
  match u.pendAt, u.openAt, u.testAt with
  | _, some (a, e), _ => if e ≤ t then some (s.strobeClose c a e) else none
  | _, _, some (a, e) =>
    match s.testCut c a e with
    | some r => some (s.testEnd c a r true true)
    | none => if e ≤ t then some (s.testEnd c a e false false) else none
  | some p, _, _ => if p ≤ t then some (s.strobeOpen c p) else none
  | none, none, none =>
    if u.testWait then
      match s.testFrom c with
      | some f =>
        let w : Int := (8 * s.illF c Reg.T_DIAG_MIN 0 16 : Nat)
        if f ≤ t then some (s.modIll c fun u => { u with testWait := false, testAt := some (f, f + w) }) else none
      | none => none
    else none

/-- The chain's own events up to an instant. -/
def State.illRunN (s : State) (c : Fin 4) (t : Int) : Nat → State
  | 0 => s
  | f + 1 => match s.illNext c t with
    | some s' => State.illRunN s' c t f
    | none => s

/-- The pipelines of the mask and the chain run to an instant of the present stoke. -/
def State.illRun (s : State) (c : Fin 4) (t : Nat) : State :=
  ((s.illCams c).foldl (fun (s : State) (m : Cam) => s.camRun m t) s).illRunN c t 64

/-- A strobe request at an instant (R332). -/
def State.strobeReq (s : State) (c : Fin 4) (t : Nat) : State :=
  let s := s.illRun c t
  let u := s.ill[c]
  if s.nDrv c = 0 ∨ s.illDead = true then s
  else if u.pendAt.isSome ∨ u.openAt.isSome then s.bump (illReg (Reg.STB_LOST_CNT + 0x100 * c.val))
  else
    let s := match u.testAt with
      | some (a, _) => s.testEnd c a t true false
      | none => s
    let d : Int := ((t + 8 * s.illF c Reg.STB_DELAY 0 16 : Nat) : Int)
    (s.modIll c fun u => { u with pendAt := some d, testWait := false, testAgain := u.testAgain || u.testWait }).illRun c t

/-- R338: the kill stage drives STROBE low; only a new request resumes. -/
def State.illKill (s : State) : State :=
  let t : Int := (s.now : Nat)
  all4.foldl (fun (s : State) (c : Fin 4) => s.modIll c fun u =>
    match u.openAt, u.testAt with
    | some (a, _), _ => { (u.pulseEnd a t) with pendAt := none }
    | _, some (a, _) => { (u.pulseEnd a t) with pendAt := none }
    | _, _ => { u with pendAt := none, testWait := false }) s

/-- The boundary: each chain runs to the end of the stoke, and instants count from the next. -/
def State.illShift (s : State) (c : Fin 4) : State :=
  let n := s.stokeCyc
  let s := s.illRun c (n - 1)
  let l : Int := (n : Nat)
  s.modIll c fun u =>
    { u with shift := u.shift.map fun x => (x.1, x.2.1 - l, x.2.2), pendAt := u.pendAt.map (· - l),
             openAt := u.openAt.map fun x => (x.1 - l, x.2 - l), testAt := u.testAt.map fun x => (x.1 - l, x.2 - l),
             closedAt := if u.closedAt < -80000000 then u.closedAt else u.closedAt - l }

/-! Intensity (R334, R335). -/

/-- The samples of a strobe that was open for `w` motion clocks: every 100 clocks, from LUX_SETTLE after the opening. -/
def luxSamples (settle w : Nat) : Nat := (w + 99 - settle) / 100

/-- The sensors that a chain's strobe is measured by take the mean of their samples; one list of samples per sensor. -/
def State.luxUpdate (s : State) (c : Fin 4) (xs : List (List Nat)) : State :=
  match s.ill[c].luxDue with
  | none => s
  | some w =>
    let s := s.modIll c fun u => { u with luxDue := none }
    let lim := all4.foldl (fun (a : Nat) (k : Fin 4) => a ||| s.ill[k].limited) 0
    all4.foldl (fun (s : State) (b : Fin 4) =>
      let cfg := s.reg (luxReg b Reg.LUX_CFG)
      let x := (nthD xs b.val []).take (luxSamples (fld cfg 8 8) w)
      if !bit cfg 0 ∨ fld cfg 1 2 ≠ c.val ∨ x.isEmpty = true then s
      else
        let meas := fdiv (fOfInt (x.foldl (· + ·) 0 : Nat)) (fOfInt (x.length : Nat))
        let tgt := fOfInt (fld (s.reg (luxReg b Reg.LUX_TGT)) 0 16 : Nat)
        let e := fdiv (fsub tgt meas) tgt
        let g := s.reg (luxReg b Reg.LUX_GAIN)
        let s := s.setReg (luxReg b Reg.LUX_MEAS) (toW (clampI 0 65535 (qOfF meas).rne).toNat)
        if lim.testBit b.val && flt 0#32 e then s
        else s.setReg (luxReg b Reg.LUX_GAIN)
          (fclamp (s.reg (luxReg b Reg.G_MIN)) (s.reg (luxReg b Reg.G_MAX)) (fadd g (fmul (s.reg (luxReg b Reg.LUX_K)) e)))) s

/-- R335: the ceiling of a chain after a housekeeping round. -/
def State.illCeil (s : State) (c : Fin 4) : State :=
  let i : Fin 22 := ⟨14 + s.illF c Reg.ILL_CFG 24 3 % 8, by omega⟩
  let t := s.hk.temps[i]
  let fl := s.illF c Reg.DR_FLOOR 0 12
  let a := qOfF (s.illR c Reg.DR_START)
  let b := qOfF (s.illR c Reg.DR_END)
  let x := Q.mk' t.value 64
  let v : Nat :=
    if !t.valid then fl
    else if !a.lt x then 4095
    else if !x.lt b then fl
    else
      let y := (Q.ofInt ((fl : Int) - 4095)).mul ((x.sub a).div (b.sub a))
      (clampI 0 4095 ((Q.ofInt 4095).add y |> fun (q : Q) => q.num.fdiv q.den)).toNat
  s.modIll c fun u => { u with ceil := v, tsBad := !t.valid }

/-! Diagnosis (R330, R336). -/

/-- The status of one output after an accepted frame; `old` is ILL_STAT, `w` the returned word, `on` the longest on-time. -/
def illStat (old w : Word) (on tmin : Nat) : Word :=
  let code :=
    if on = 0 then fld old 0 3
    else if bit w 1 then 3
    else if on < tmin then 4
    else if bit w 0 then 2
    else if bit w 2 then 1
    else 4
  toW (code + bitAt (bit w 3) 3 + fld w 0 16 * 65536)

/-- ILL_STATUS. -/
def State.illStatus (s : State) (c : Fin 4) : Nat :=
  let u := s.ill[c]
  let any (k : Nat) : Bool := (List.range 512).any fun i => fld (s.reg (illReg (Reg.ILL_STAT + 0x800 * c.val + 4 * i))) 0 3 == k
  bitAt u.shift.isSome 0 + bitAt u.openAt.isSome 1 + bitAt u.testAt.isSome 2 + bitAt u.chainErr 3 + bitAt u.tsBad 4
    + bitAt (any 2) 5 + bitAt (any 3) 6 + u.ceil * 65536

/-- One output is evaluated. -/
def State.illOutput (s : State) (c : Fin 4) (i : Nat) (w : Word) : State :=
  let u := s.ill[c]
  let a := illReg (Reg.ILL_STAT + 0x800 * c.val + 4 * i)
  let p := nthD u.prevWords i 0#32
  let on := if bit p 12 && fld p 0 12 != 0 then u.prevOn else 0
  let old := s.reg a
  let v := illStat old w on (s.illF c Reg.T_DIAG_MIN 0 16)
  let s := s.setReg a v
  if fld v 0 3 ≠ fld old 0 3 ∧ (fld v 0 3 = 2 ∨ fld v 0 3 = 3) then
    (s.logEvent 0xC6 c.val 1 i v.toNat).raiseEv 0xC6 c.val 0 (s.illStatus c)
  else s

/-- The instant of LATCH: 2 chain clocks after the last bit, or after STROBE became inactive where it was active then (R331). -/
def latchAt (bits closed gap : Int) : Int := if closed ≤ bits + gap then bits + gap else closed + gap

/-- The shifted frame is latched into the drivers, and the returned words, output 0 first, are checked (R330, R331, R336). -/
def State.chainLatch (s : State) (c : Fin 4) (ret : List Word) (t : Nat) : State :=
  let s := s.illRun c t
  let u := s.ill[c]
  match u.shift with
  | none => s
  | some (ws, e, lim) =>
    let gap : Int := (2 * s.chainClk c : Nat)
    if (t : Int) < latchAt e u.closedAt gap ∨ u.openAt.isSome = true ∨ u.testAt.isSome = true then s
    else
      let ret := (List.range ws.length).map fun i => nthD ret i 0#32
      let good := ret.all fun w => fld w 12 4 == 5
      let s := if good then
          (ret.zipIdx.foldl (fun (s : State) x => s.illOutput c x.2 x.1) s).modIll c fun u => { u with chainErr := false }
        else (s.modIll c fun u => { u with chainErr := true }).bump (illReg (Reg.CHAIN_ERR_CNT + 0x100 * c.val))
      let s := s.bump (illReg (Reg.ILL_FRAME_CNT + 0x100 * c.val))
      let again := u.again
      let s := s.modIll c fun u =>
        { u with shift := none, again := false, prevWords := u.latched, prevOn := u.onMax, latched := ws, limited := lim, onMax := 0 }
      if again then s.illFrame c t else s

/-! Registers (R339, R340). -/

/-- The rules that a write to the illumination block at offset `o` must meet. -/
def State.illWriteOk (s : State) (o : Nat) (v : Word) : Bool :=
  if o < 0x400 then
    let c : Fin 4 := ⟨o / 0x100 % 4, Nat.mod_lt _ (by decide)⟩
    let u := s.ill[c]
    if o % 0x100 = Reg.ILL_CFG then u.shift.isNone && u.pendAt.isNone && u.openAt.isNone && u.testAt.isNone
    else if o % 0x100 = Reg.DR_END then flt (s.illR c Reg.DR_START) v
    else true
  else if o < 0x480 then
    let b : Fin 4 := ⟨(o - 0x400) / 0x20 % 4, Nat.mod_lt _ (by decide)⟩
    if (o - 0x400) % 0x20 = 0x10 then fle (s.reg (luxReg b Reg.G_MIN)) v else true
  else true

/-- What a committed write does beside storing its value, at instant 0 of the stoke that begins. -/
def State.illWrote (s : State) (o : Nat) (v : Word) : State :=
  if o < 0x400 ∧ o % 0x100 = Reg.ILL_CTRL then
    let c : Fin 4 := ⟨o / 0x100 % 4, Nat.mod_lt _ (by decide)⟩
    let t := if s.time.running then 0 else s.now
    let s := if bit v 0 then s.illFrame c t else s
    if bit v 1 then s.strobeReq c t else s
  else if 0x400 ≤ o ∧ o < 0x480 ∧ (o - 0x400) % 0x20 = 0 ∧ bit v 0 = false then s.setReg (illReg (o + 0x18)) fone
  else s

/-- The registers that show state. -/
def State.illRead (s : State) (o : Nat) : Option Word :=
  if o < 0x400 ∧ o % 0x100 = Reg.ILL_STATUS then
    some (toW (s.illStatus ⟨o / 0x100 % 4, Nat.mod_lt _ (by decide)⟩))
  else if o = Reg.LUX_STATUS then some (toW (all4.foldl (fun (a : Nat) (k : Fin 4) => a ||| s.ill[k].limited) 0))
  else none

end Sys2Proof.Machine
end

