-- ==== Sys2Proof/Machine/Motion.lean ====
section
/-! DEFINITION. The motion axes: profile, states, stops, limits, homing, current regulation, load angle and faults (R287–R312). -/

namespace Sys2Proof.Machine
open Sys2Proof

/-- Change one axis with its encoder and compare unit. -/
def State.modMotor (s : State) (n : Ma) (f : Motor → Motor) : State := { s with ma := s.ma.set n.val (f s.ma[n]) n.isLt }
/-- Change one axis. -/
def State.modMa (s : State) (n : Ma) (f : MaU → MaU) : State := s.modMotor n fun x => { x with m := f x.m }
/-- A register of an axis. -/
def State.maR (s : State) (n : Ma) (o : Nat) : Word := s.reg (maReg n o)
/-- A field of a register of an axis. -/
def State.maF (s : State) (n : Ma) (o lo w : Nat) : Nat := fld (s.maR n o) lo w
/-- Motion clocks of a stoke. -/
def State.motC (s : State) : Nat := s.stokeCyc / 8

/-- The codes of MA_STATUS.STATE. -/
def MaSt.code : MaSt → Nat
  | .disabled => 0
  | .idle => 1
  | .moving => 2
  | .stopping => 3
  | .homing => 4
  | .fault => 5
/-- The codes of HOME_STATUS. -/
def HomePh.code : HomePh → Nat
  | .none => 0
  | .search => 1
  | .backoff => 2
  | .approach => 3
  | .set => 4

/-- A value in 48 bits, signed (R295). -/
def wrap48 (i : Int) : Int := sx 48 (i % 281474976710656).toNat
/-- The accumulator after `m` motion clocks of the present stoke (R295, R296). -/
def MaU.accAt (u : MaU) (m : Nat) : Int :=
  let k := match u.cut with
    | some c => min m c
    | none => m
  let x : Nat := min u.extra k
  wrap48 (u.acc + u.v * (k : Int) + (if u.pos then (x : Int) else -(x : Int)))
/-- Accumulator [47:16]. -/
def microOf (a : Int) : Int := a.fdiv 65536
/-- Bridge mode. -/
def State.maBridge (s : State) (n : Ma) : Bool := s.maF n Reg.MA_CFG 0 2 == 0
/-- The outputs of the axis are in the brake state. -/
def MaU.braked (u : MaU) : Bool := u.brake || u.st == .disabled

/-- MA_STATUS. -/
def State.maStatus (s : State) (n : Ma) : Nat :=
  let u := s.ma[n].m
  u.st.code + bitAt u.homed 3 + bitAt u.short 4 + bitAt u.raised 5 + bitAt u.overshoot 6 + bitAt s.safe.stop[n] 7 + bitAt u.brake 8
    + bitAt u.sat 9
/-- MA_FAULT. -/
def MaU.faultWord (u : MaU) : Nat := u.cause + u.all * 65536
/-- LIM_STATUS. -/
def MaU.limStatus (u : MaU) : Nat :=
  all3.foldl (fun (a : Nat) (i : Fin 3) =>
    a + bitAt u.lims[i].raw i.val + bitAt u.lims[i].filt (4 + i.val) + bitAt u.lims[i].latch (8 + i.val)) 0
/-- HOME_STATUS. -/
def MaU.homeStatus (u : MaU) : Nat := u.home.code + bitAt u.reversed 3 + bitAt u.failed 4
/-- LA (R293): it reads 0xFFFF while no estimate is formed. -/
def MaU.laWord (u : MaU) : Nat :=
  match u.la with
  | some w => (clampI 0 65535 (qOfF w).rne).toNat
  | none => 0xFFFF

/-! Stops and faults (R301, R307). -/

/-- The velocity becomes 0 at motion clock `m` of the present stoke. -/
def MaU.halt (u : MaU) (m : Nat) : MaU :=
  { u with cut := some (match u.cut with
      | some c => min c m
      | none => m),
           vq := 0, drive := .rest, landing := false, extra := u.extra }
/-- The axis moves, or its profile is about to move it. -/
def MaU.going (u : MaU) : Bool := u.drive != .rest
/-- A move is given up: SHORT, and homing ends. -/
def MaU.giveUp (u : MaU) : MaU := { u with short := u.short || u.going, home := .none, found := false, away := false }

/-- A ramp stop begins, toward `a` once the axis stands still; an axis at rest in a move or in homing is there (R300, R306). -/
def State.maRamp (s : State) (n : Ma) (a : After) : State :=
  let dec := (s.maR n Reg.DECEL).toNat
  s.modMa n fun u =>
    if u.going then { u.giveUp with drive := .stop a, st := .stopping, dec := dec, hold := false, decDue := false }
    else { u.giveUp with st := if a = .fault then .fault else if u.st = .moving ∨ u.st = .homing then .idle else u.st }

/-- A hard stop at clock `m`: the axis goes where its stop was to lead. -/
def State.maHard (s : State) (n : Ma) (m : Nat) (toFault : Bool) : State :=
  s.modMa n fun u =>
    let f : Bool := toFault || u.drive == Drive.stop After.fault || u.st == MaSt.fault
    { (u.giveUp.halt m) with st := if f then .fault else if u.st = .disabled then .disabled else .idle }

/-- The stop that a cause calls for (R307): 1 ramp, 2 hard, 3 brake. -/
def State.maAct (s : State) (n : Ma) (code : Nat) : Nat :=
  let c := s.maR n Reg.STOP_CFG
  match code with
  | 1 => fld c 4 2
  | 4 => fld c 8 2
  | 5 => 1
  | 6 => 2
  | 7 => fld c 10 2
  | 8 => 2
  | _ => 3

/-- A cause arises on an enabled axis at clock `m` (R307): it is recorded, announced and stops the axis. -/
def State.maFault (s : State) (n : Ma) (code m : Nat) : State :=
  let u := s.ma[n].m
  if u.st = .disabled ∨ u.due.contains code = true then s
  else
    let old := u.faultWord
    let cause := if u.cause = 0 then code else if u.due.isEmpty then u.cause else min u.cause code
    let all := u.all ||| 2 ^ (code - 1)
    let s : State := s.modMa n fun u => { u with cause := cause, all := all, due := code :: u.due, failed := u.failed || code == 5 }
    let s : State := match s.maAct n code with
      | 1 => if (s.ma[n].m).st = MaSt.fault then s else s.maRamp n .fault
      | 2 => s.maHard n m true
      | _ => (s.maHard n m true).modMa n fun u => { u with brake := true }
    let s := (s.logEvent (0xB0 + n.val) 0 1 old (s.ma[n].m).faultWord).raiseSrc (0xB0 + n.val)
    s.evPulse (0x20 + n.val)

/-- A stop request falls in the present stoke, at an instant (R301); before RUN a ramp stop is taken at once. -/
def State.maStop (s : State) (n : Ma) (hard : Bool) : State :=
  let s := s.modMa n fun u => { u with stopped := true }
  if hard then s.maHard n (s.now / 8 + 1) false
  else if s.time.running then s.modMa n fun u => { u with ramp := true }
  else s.maRamp n .idle

/-- A stop request of the event matrix (R301). -/
def State.maEvent (s : State) (n : Ma) : State := s.maStop n (s.maF n Reg.STOP_CFG 0 2 == 2)

/-- An axis enters the brake state through the kill stage (R310). -/
def State.maBrakeAll (s : State) : State :=
  all8.foldl (fun (s : State) (n : Ma) =>
    s.modMa n fun u => if u.st = .disabled then u else { (u.giveUp.halt (s.now / 8)) with brake := true }) s

/-- After the damper every axis that was enabled is in FAULT with cause BRAKE (R310). -/
def State.maReleaseAll (s : State) : State :=
  all8.foldl (fun (s : State) (n : Ma) =>
    if (s.ma[n].m).st = .disabled then s
    else
      let s := s.modMa n fun u => { u with due := [], cause := 0 }
      (s.maFault n 9 (s.now / 8)).modMa n fun u => { u with st := .fault }) s

/-! Limits (R303–R306). -/

/-- The input that gives the home edge: 0 LIMP, 1 LIMN, 2 HOME. -/
def State.homeSrc (s : State) (n : Ma) : Fin 3 := match s.maF n Reg.HOME_CFG 0 2 with
  | 1 => 0
  | 2 => 1
  | _ => 2
/-- Change one input. -/
def MaU.modLim (u : MaU) (i : Fin 3) (f : LimIn → LimIn) : MaU := { u with lims := u.lims.set i.val (f u.lims[i]) i.isLt }
/-- Motion in a direction is blocked by a latched limit (R304). -/
def MaU.blocked (u : MaU) (pos : Bool) : Bool := if pos then u.lims[0].latch else u.lims[1].latch
/-- Motion from standstill is barred by a latched limit. DESIGN CHOICE (log 82): a homing that a limit has reversed (R306) may travel back
toward that limit, or BACKOFF could never run. -/
def MaU.barred (u : MaU) (pos : Bool) : Bool := u.blocked pos && !(u.home != .none && u.reversed && pos != u.hdir)
/-- The axis travels, and in which direction. -/
def MaU.travels (u : MaU) (pos : Bool) : Bool := u.going && u.pos == pos && (u.v != 0 || u.extra != 0 || u.vq != 0)
/-- The ACT field of an input. -/
def State.limAct (s : State) (n : Ma) (i : Fin 3) : Nat := s.maF n Reg.LIM_CFG (2 * i.val) 2

/-- A limit that is not the source latches in homing (R306). -/
def State.homeOther (s : State) (n : Ma) (i : Fin 3) : State :=
  let u := s.ma[n].m
  let m := s.now / 8 + 1
  if u.home = .search ∧ u.reversed = false ∧ u.found = false then
    let s := s.modMa n fun u => { u with reversed := true }
    if s.limAct n i = 1 then s.modMa n fun u => { u with drive := .stop .home }
    else s.modMa n fun u => u.halt m
  else s.maFault n 5 m

/-- A filtered assertion of an input at the present instant. -/
def State.limAssert (s : State) (n : Ma) (i : Fin 3) : State :=
  let was := (s.ma[n].m).lims[i].latch
  let s := s.modMa n fun u => u.modLim i fun l => { l with filt := true, latch := true }
  let s := if was then s else s.evPulse (0x28 + n.val)
  let u := s.ma[n].m
  if u.home ≠ .none ∧ u.home ≠ .set then
    if i = s.homeSrc n then
      let x := u.accAt (s.now / 8)
      if u.home = .search then s.modMa n fun u => { u with found := true }
      else if u.home = .approach ∧ u.found = false then s.modMa n fun u => { u with found := true, latched := x }
      else s
    else if i = 2 ∨ was = true then s
    else s.homeOther n i
  else if was then s
  else
    let toward := if i = 0 then u.travels true else if i = 1 then u.travels false else u.going
    match toward, s.limAct n i with
    | true, 1 => s.maStop n false
    | true, 2 => s.maStop n true
    | _, _ => s

/-- The filtered level of an input becomes inactive at the present instant. -/
def State.limRelease (s : State) (n : Ma) (i : Fin 3) : State :=
  let t : Int := (s.now : Nat)
  let s := s.modMa n fun u => u.modLim i fun l => { l with raw := false, filt := false, since := t }
  let u := s.ma[n].m
  if u.home = .backoff ∧ i = s.homeSrc n ∧ u.found = false then
    let x := u.accAt (s.now / 8)
    s.modMa n fun u => { u with found := true, latched := x }
  else s

/-- R303: the latch of input i may be cleared: its filtered level has stayed inactive for FILT µs. -/
def State.limClearOk (s : State) (n : Ma) (i : Fin 3) : Bool :=
  let l := (s.ma[n].m).lims[i]
  !l.filt && decide (l.since + (800 * s.maF n Reg.LIM_CFG 16 10 : Nat) ≤ (s.now : Int))
/-- Every latch that a write of LIM_CLR names may be cleared. -/
def State.limClrOk (s : State) (n : Ma) (v : Word) : Bool := all3.all fun (i : Fin 3) => !bit v i.val || s.limClearOk n i
/-- A write of LIM_CLR. -/
def State.limClr (s : State) (n : Ma) (v : Word) : State :=
  all3.foldl (fun (s : State) (i : Fin 3) => if bit v i.val then s.modMa n fun u => u.modLim i fun l => { l with latch := false } else s) s

/-- Homing clears the latch of its source with origin HW (R305). -/
def State.homeClear (s : State) (n : Ma) : State :=
  let i := s.homeSrc n
  (s.modMa n fun u => u.modLim i fun l => { l with latch := false }).logPush .hw false (maReg n Reg.LIM_CLR) 1 0#32 (toW (2 ^ i.val))

/-! Commands (R297, R298, R300, R305). -/

/-- A move to T starts from standstill. -/
def State.maMove (s : State) (n : Ma) (t : Int) : State :=
  let dec := (s.maR n Reg.DECEL).toNat
  s.modMa n fun u => { u with drive := .move t, pos := decide (u.acc ≤ t), vq := 0, dec := dec, hold := false, decel := false, decDue := false }
/-- A velocity move starts from standstill. -/
def State.maJogAt (s : State) (n : Ma) (pos : Bool) (v : Nat) : State :=
  let dec := (s.maR n Reg.DECEL).toNat
  s.modMa n fun u => { u with drive := .jog v, pos := pos, vq := 0, dec := dec, hold := false, decel := false, decDue := false }

/-- Braking distance at a deceleration, plus one stoke (R296). -/
def sBr (vq dec c : Nat) : Nat := vq * vq * c / (2 * dec * 65536) + vq * c / 65536
/-- Distance to go in the direction of travel. -/
def MaU.togo (u : MaU) (t : Int) : Int := if u.pos then t - u.acc else u.acc - t

/-- A new target while the axis may be moving (R298). -/
def State.maRetarget (s : State) (n : Ma) (t : Int) : State :=
  let u := s.ma[n].m
  let dec := (s.maR n Reg.DECEL).toNat
  if u.vq = 0 then s.maMove n t
  else if (sBr u.vq dec s.motC : Int) ≤ u.togo t then
    s.modMa n fun u => { u with drive := .move t, dec := dec, hold := false, decDue := false }
  else s.modMa n fun u => { u with drive := .stop (.move t), dec := dec, hold := false, decDue := false }

/-- TARGET in accumulator units. -/
def State.maTarget (s : State) (n : Ma) : Int := (s.maR n Reg.TARGET).toInt * 65536

/-- A GO, JOG or HOME is refused and counted (R300). -/
def State.moveRefuse (s : State) (n : Ma) (org : Origin) (b : Nat) (count : Bool) : State :=
  let s := if count then s.bump (maReg n Reg.MOVE_REF_CNT) else s
  s.deny org (maReg n Reg.MA_CTRL) (toW (2 ^ b))

/-- Conditions that R300 sets on every move: state, SAFE_STOP, latched limit. -/
def State.moveOk (s : State) (n : Ma) (pos moving : Bool) : Bool :=
  let u := s.ma[n].m
  (u.st == .idle || (moving && u.st == .moving)) && !s.safe.stop[n] && !u.blocked pos

/-- A GO takes effect at its boundary (R297). -/
def State.maGo (s : State) (n : Ma) (org : Origin) : State :=
  let u := s.ma[n].m
  let t := s.maTarget n
  if !s.moveOk n (decide (u.acc ≤ t)) true then s.moveRefuse n org 4 true
  else if u.stopped then s.moveRefuse n org 4 false
  else (s.modMa n fun u => { u with st := .moving, short := false, raised := false, overshoot := false }).maRetarget n t

/-- A JOG takes effect at its boundary (R297). -/
def State.maJog (s : State) (n : Ma) (org : Origin) : State :=
  let u := s.ma[n].m
  let j := (s.maR n Reg.JOG_V).toInt
  let pos := decide (0 ≤ j)
  if !s.moveOk n pos true then s.moveRefuse n org 5 true
  else if u.stopped then s.moveRefuse n org 5 false
  else
    let s := s.modMa n fun u => { u with st := .moving, short := false, raised := false, overshoot := false }
    let dec := (s.maR n Reg.DECEL).toNat
    if u.vq = 0 then s.maJogAt n pos j.natAbs
    else if u.pos = pos then s.modMa n fun u => { u with drive := .jog j.natAbs, dec := dec, hold := false, decDue := false }
    else s.modMa n fun u => { u with drive := .stop (.jog pos j.natAbs), dec := dec, hold := false, decDue := false }

/-- SEARCH begins, or resumes in the other direction. -/
def State.homeSearch (s : State) (n : Ma) (pos : Bool) : State :=
  let v := s.maF n Reg.HOME_V1 0 24
  let lat := (s.ma[n].m).lims[s.homeSrc n].latch
  (s.maJogAt n pos v).modMa n fun u => { u with home := .search, hdir := pos, hstart := u.acc, found := lat, away := false }

/-- A HOME takes effect at its boundary (R305). -/
def State.maHome (s : State) (n : Ma) (org : Origin) : State :=
  let u := s.ma[n].m
  let pos := s.maF n Reg.HOME_CFG 2 1 == 1
  if !s.moveOk n pos false then s.moveRefuse n org 6 true
  else if u.stopped then s.moveRefuse n org 6 false
  else
    (s.modMa n fun u => { u with st := .homing, homed := false, reversed := false, failed := false, short := false, raised := false,
                                 overshoot := false }).homeSearch n pos

/-- The condition of a recorded cause persists (R307). -/
def State.maPersists (s : State) (n : Ma) : Bool :=
  let u := s.ma[n].m
  let on (c : Nat) : Bool := u.all.testBit (c - 1)
  (on 2 && u.oc) || (on 3 && u.uv && s.maBridge n) || (on 4 && u.devBad)
    || (on 7 && decide (s.maF n Reg.ENC_ERR_STOKES 0 8 ≤ s.ma[n].e.invalid) && s.maF n Reg.ENC_CFG 0 2 != 0)
    || (on 8 && u.nan) || (on 9 && s.damperHolds)

/-- A CLEAR: FAULT to IDLE with the cause gone. -/
def State.maClear (s : State) (n : Ma) (org : Origin) : State :=
  let u := s.ma[n].m
  if u.cause = 0 then s
  else if s.maPersists n then s.deny org (maReg n Reg.MA_CTRL) 0x80#32
  else if u.st = .fault then s.modMa n fun u => { u with st := .idle, cause := 0, all := 0, brake := false, devRun := 0, stall := 0 }
  else s.deny org (maReg n Reg.MA_CTRL) 0x80#32

/-- What a write of MA_CTRL does at its receipt: hard stops act at once, and a stop beats a move of its boundary (R301). -/
def State.maCtrlNow (s : State) (n : Ma) (v : Word) : State :=
  let s := if bit v 1 ∨ bit v 3 then s.maStop n true else s
  if bit v 2 then s.maStop n false else s

/-- What it does at its boundary, in this order: CLEAR, ENABLE, DISABLE, then the moves. -/
def State.maCtrlApply (s : State) (n : Ma) (org : Origin) (v : Word) : State :=
  let s := if org = .safe ∧ (bit v 2 ∨ bit v 3) then { s with safe := { s.safe with stop := s.safe.stop.set n.val true n.isLt } } else s
  let s := if bit v 7 then s.maClear n org else s
  let s := if bit v 0 ∧ (s.ma[n].m).st = .disabled then s.modMa n fun u => { u with st := .idle } else s
  let s := if bit v 1 then
      s.modMa n fun u =>
        { u with st := .disabled, drive := .rest, vq := 0, home := .none, cause := 0, all := 0, brake := false, step := StepU.start }
    else s
  let s := if bit v 4 then s.maGo n org else s
  let s := if bit v 5 then s.maJog n org else s
  if bit v 6 then s.maHome n org else s

/-- POS_SET takes effect (R312). -/
def State.posSet (s : State) (n : Ma) (v : Word) : State := s.modMa n fun u => { u with acc := v.toInt * 65536 }

/-- R311 and the relations of R312 that a write to an axis register at offset `o` must meet. -/
def State.maWriteOk (s : State) (n : Ma) (o : Nat) (v : Word) : Bool :=
  let off := (s.ma[n].m).st == .disabled
  if o = Reg.MA_CFG ∨ o = Reg.STEP_CFG ∨ o = Reg.LIM_CFG ∨ o = Reg.HOME_CFG ∨ o = Reg.R_COIL ∨ o = Reg.L_COIL ∨ o = Reg.CUR_SCALE
      ∨ o = Reg.VBR_SCALE then off
  else if o = Reg.POS_SET then off || (s.ma[n].m).st == .idle
  else if o = Reg.MA_I_MAX then decide (s.maF n Reg.I_RUN 0 16 ≤ fld v 0 16)
  else if o = Reg.I_START then decide (fld v 0 16 ≤ s.maF n Reg.MA_I_MAX 0 16)
  else if o = Reg.LIM_CLR then s.limClrOk n v
  else true

/-! The profile (R295–R302). -/

/-- The velocity ceiling of a move: VMAX, or HOME_V1 while homing backs off. -/
def State.maVmax (s : State) (n : Ma) : Nat :=
  if (s.ma[n].m).home = .none then s.maF n Reg.VMAX 0 24 else s.maF n Reg.HOME_V1 0 24

/-- R302: a write of DECEL takes effect on a move toward T. -/
def State.decelMove (s : State) (n : Ma) (t : Int) : State :=
  let u := s.ma[n].m
  let c := s.motC
  let a := (s.maR n Reg.DECEL).toNat
  let mx := (s.maR n Reg.DECEL_MAX).toNat
  let d := u.togo t
  if (sBr u.vq a c : Int) ≤ d then
    s.modMa n fun u => { u with dec := if u.raised then u.dec else a, hold := u.decel && decide (u.dec < a) && !u.raised }
  else
    let den := 2 * d.toNat * 65536
    let need := (u.vq * u.vq * c + den - 1) / max den 1
    if 0 < d ∧ need ≤ mx then
      let old := s.maStatus n
      let s := (s.modMa n fun u => { u with dec := max a need, hold := false, raised := true }).bump (maReg n Reg.DECEL_RAISE_CNT)
      s.logEvent (0xB0 + n.val) 0 0 old (s.maStatus n)
    else
      let old := s.maStatus n
      let s := (s.modMa n fun u => { u with dec := mx, hold := false, overshoot := true, drive := .stop (.move t) }).bump (maReg n Reg.OVERSHOOT_CNT)
      s.logEvent (0xB0 + n.val) 0 2 old (s.maStatus n)

/-- A committed write of DECEL acts on the profile (R302). -/
def State.decelApply (s : State) (n : Ma) : State :=
  let u := s.ma[n].m
  let s := if u.decDue then (match u.drive with
      | .move t => s.decelMove n t
      | .stop (.move t) => if u.overshoot then s else s.modMa n fun u => { u with dec := (s.maR n Reg.DECEL).toNat, drive := .stop (.move t) }
      | .rest => s
      | _ => s.modMa n fun u => { u with dec := (s.maR n Reg.DECEL).toNat }) else s
  s.modMa n fun u => { u with decDue := false }

/-- Homing goes on from standstill in a direction, or fails where a latched limit blocks it (R304; log 82). -/
def State.homeGo (s : State) (n : Ma) (pos : Bool) (f : State → State) : State := if (s.ma[n].m).barred pos then s.maFault n 5 0 else f s

/-- The next phase of homing begins once the axis stands still. -/
def State.homeNext (s : State) (n : Ma) : State :=
  let u := s.ma[n].m
  match u.home with
  | .search =>
    if u.found then
      let s := s.homeClear n
      let v := s.maF n Reg.HOME_V1 0 24
      let i := s.homeSrc n
      s.homeGo n (!u.hdir) fun s =>
        (s.maJogAt n (!u.hdir) v).modMa n fun u => { u with home := .backoff, found := !u.lims[i].filt, latched := u.acc, away := false }
    else if u.blocked (!u.hdir) then s.maFault n 5 0
    else s.homeSearch n (!u.hdir)
  | .approach => s.modMa n fun u => { u with home := .set, drive := .rest }
  | _ => s

/-- One boundary of homing (R305). -/
def State.homeStep (s : State) (n : Ma) : State :=
  let u := s.ma[n].m
  let dec := (s.maR n Reg.DECEL).toNat
  let stop (s : State) : State := s.modMa n fun u => { u with drive := .stop .home, dec := dec }
  match u.home with
  | .search =>
    match u.drive with
    | .rest => s.homeNext n
    | .jog _ =>
      if u.found then stop s
      else if (s.maR n Reg.HOME_RANGE).toNat * 65536 ≤ (u.acc - u.hstart).natAbs then s.maFault n 5 0
      else s
    | _ => s
  | .backoff =>
    if u.away then
      match u.drive with
      | .rest =>
        let s := s.homeClear n
        let v := s.maF n Reg.HOME_V2 0 24
        s.homeGo n u.hdir fun s => (s.maJogAt n u.hdir v).modMa n fun u => { u with home := .approach, found := false }
      | _ => s
    else if u.found then
      let b : Int := ((s.maR n Reg.HOME_BACKOFF).toNat * 65536 : Nat)
      (s.maRetarget n (if u.hdir then u.latched - b else u.latched + b)).modMa n fun u => { u with away := true }
    else s
  | .approach =>
    match u.drive with
    | .jog _ => if u.found then stop s else s
    | .rest => s.homeNext n
    | _ => s
  | .set =>
    let p := (s.maR n Reg.HOME_POS).toInt * 65536
    s.modMa n fun u => { u with acc := wrap48 (u.acc - u.latched + p), homed := true, home := .none, found := false, st := .idle, drive := .rest }
  | .none => s

/-- A ramp stop reaches standstill at this boundary (R301). -/
def MaU.standsStill (u : MaU) : Bool :=
  match u.drive with
  | .stop _ => decide ((u.vq - u.dec) / 65536 = 0)
  | _ => false
/-- A motion that was to follow is not begun toward a latched limit (R304): the axis is IDLE, its move ended by a stop. DESIGN CHOICE
(log 82): in homing, homing fails. -/
def State.maTurn (s : State) (n : Ma) (pos : Bool) (f : State → State) : State :=
  let u := s.ma[n].m
  if !u.barred pos then f s
  else if u.home = .none then s.modMa n fun u => { u with st := .idle, short := true }
  else s.maFault n 5 0

/-- What follows it. -/
def State.maStandstill (s : State) (n : Ma) : State :=
  let u := s.ma[n].m
  if u.standsStill then
    let s := s.modMa n fun u => { u with vq := 0, drive := .rest }
    match u.drive with
    | .stop .idle => s.modMa n fun u => { u with st := .idle }
    | .stop .fault => s.modMa n fun u => { u with st := .fault }
    | .stop (.move t) => s.maTurn n (decide (u.acc ≤ t)) fun s => s.maMove n t
    | .stop (.jog p v) => s.maTurn n p fun s => s.maJogAt n p v
    | _ => s
  else s

/-- The landing stoke has ended on the target (R296). -/
def State.maLanded (s : State) (n : Ma) : State :=
  if (s.ma[n].m).landing then
    s.modMa n fun u => { u with landing := false, drive := .rest, vq := 0, v := 0, extra := 0, st := if u.st = .moving then .idle else u.st }
  else s

/-- R296: the velocity of the stoke that follows. -/
def State.maProfile (s : State) (n : Ma) : State :=
  let acl := (s.maR n Reg.ACCEL).toNat
  let vmax := s.maVmax n
  let c := s.motC
  s.modMa n fun u =>
    let sg (v : Nat) : Int := if u.pos then (v : Int) else -(v : Int)
    match u.drive with
    | .rest => { u with vq := 0, v := 0, extra := 0, landing := false, decel := false }
    | .jog j =>
      let q := if u.vq < j * 65536 then min (u.vq + acl) (j * 65536) else max (u.vq - u.dec) (j * 65536)
      { u with vq := q, v := sg (q / 65536), extra := 0, landing := false, decel := decide (q < u.vq) }
    | .stop _ => let q := u.vq - u.dec; { u with vq := q, v := sg (q / 65536), extra := 0, landing := false, decel := true }
    | .move t =>
      let d := (u.togo t).toNat
      let br := decide (d ≤ sBr u.vq u.dec c)
      let q := if br then max (u.vq - u.dec) 65536
        else if u.hold then u.vq else if u.vq < vmax * 65536 then min (u.vq + acl) (vmax * 65536) else u.vq
      let v := q / 65536
      if d ≤ v * c then { u with vq := 0, v := sg (d / c), extra := d % c, landing := true, hold := false, decel := br }
      else { u with vq := q, v := sg v, extra := 0, landing := false, hold := u.hold && !br, decel := br }

/-! Current regulation and load angle (R288–R294). -/

/-- The mean of a stoke's samples in binary32, scaled (R288). -/
def meanF (xs : List Int) (scale : Word) : Word := fmul (fdiv (fOfInt (xs.foldl (· + ·) 0)) (fOfInt (xs.length : Nat))) scale

/-- R288: the motion clock of the first sample of the present stoke, and the number of its samples. -/
def State.sampleFrom (s : State) : Nat := (125 - s.time.cnt * s.motC % 125) % 125
def State.sampleCnt (s : State) : Nat := (s.motC + 124 - s.sampleFrom) / 125

/-- R292: I_mag in the present stoke. -/
def State.maImag (s : State) (n : Ma) (u : MaU) : Word :=
  let iMax := s.maF n Reg.MA_I_MAX 0 16
  let hold := s.maF n Reg.I_HOLD 0 16
  let cap (w : Word) : Word := if flt (fOfInt (iMax : Nat)) w then fOfInt (iMax : Nat) else w
  if u.v = 0 ∧ u.extra = 0 then
    if u.st = .fault ∨ (s.maR n Reg.HOLD_STOKES).toNat ≤ u.zeros + 1 then cap (fOfInt (hold : Nat))
    else cap (u.iLast.getD (fOfInt (hold : Nat)))
  else if u.v.natAbs < s.maF n Reg.LA_V_MIN 0 24 then cap (fOfInt (s.maF n Reg.I_START 0 16 : Nat))
  else
    let tab (i : Nat) : Nat := s.maF n (Reg.LA_TAB + 4 * (i / 4)) (8 * (i % 4)) 8
    let la := min u.laWord 15360
    let i := la * 15 / 15360
    let r := la * 15 % 15360
    let f : Q := (Q.ofInt (tab i : Nat)).add ((Q.ofInt ((tab (min (i + 1) 15) : Int) - (tab i : Int))).scale r 15360)
    let run := s.maF n Reg.I_RUN 0 16
    cap ((Q.ofInt (run : Nat)).add ((f.mul (Q.ofInt ((iMax : Int) - (run : Int)))).scale 1 255)).toF

/-- R291: cosine and sine of the electrical angle in the present stoke. -/
def State.maAngle (s : State) (n : Ma) (u : MaU) : Word × Word :=
  let x : Int := (microOf u.acc) * 131072 + 3 * (s.motC : Int) * u.v
  let ph := (x % 134217728).toNat
  let cs := cosSin60 (ph * 32)
  let f (i : Int) : Word := w32 (fmt32.round (i < 0) i.natAbs (-60))
  let sn := f cs.2
  (f cs.1, if bit (s.maR n Reg.MA_CFG) 2 then fneg sn else sn)

/-- R290: one coil; none where a term is not finite. -/
def State.coilStep (s : State) (n : Ma) (k : Coil) (vbr iref : Word) : Option Coil :=
  let e := fsub iref k.cur
  let ke := fmul (s.maR n Reg.CUR_KI) e
  let ia := if (k.hi && flt 0#32 ke) || (k.lo && flt ke 0#32) then k.ia else fadd k.ia ke
  let vc := fadd (fadd (fmul (s.maR n Reg.CUR_KP) e) ia) (fmul (s.maR n Reg.R_COIL) iref)
  let q := fdiv vc vbr
  let mx := s.maR n Reg.DUTY_MAX
  let d := fclamp (fneg mx) mx q
  if [vbr, e, ke, ia, vc, q].all fFinite then
    some { k with ia := ia, d := d, hi := fcmp d mx == some .eq, lo := fcmp d (fneg mx) == some .eq }
  else none

/-- The duties of the half-bridges of one coil (R290). -/
def dutyOf (d : Word) : List Word := [fdiv (fadd fone d) 0x40000000#32, fdiv (fsub fone d) 0x40000000#32]

/-- R290: the regulation of one axis in the present stoke. -/
def State.maRegulate (s : State) (n : Ma) : State :=
  let u := s.ma[n].m
  let im := s.maImag n u
  let s := s.modMa n fun u =>
    if u.v = 0 ∧ u.extra = 0 then { u with zeros := u.zeros + 1 } else { u with zeros := 0, iLast := some im }
  if !s.maBridge n || u.braked then s.modMa n fun u => { u with sat := false }
  else
    let cs := s.maAngle n u
    match s.coilStep n u.a u.vbr (fmul im cs.1), s.coilStep n u.b u.vbr (fmul im cs.2) with
    | some a, some b =>
      s.modMa n fun u => { u with a := a, b := b, duty := dutyOf a.d ++ dutyOf b.d, nan := false, sat := a.hi || a.lo || b.hi || b.lo }
    | _, _ => (s.modMa n fun u => { u with nan := true }).maFault n 8 (s.motC)

/-- The angle of a vector in units of 2^−16 turn times 2^140; the zero vector has none (log entry 14). -/
def angleOf (x y : Q) (open_ : Nat) : Int :=
  if x.num = 0 ∧ y.num = 0 then ((open_ % 65536 : Nat) : Int) * 2 ^ 140
  else atan2Fix (y.num * x.den) (x.num * y.den) * 65536 * 2 ^ 140 / (2 * pi140)

/-- R293: the load angle of the present stoke, from the decimates of the last. -/
def State.maLoad (s : State) (n : Ma) : State :=
  let u := s.ma[n].m
  if !s.maBridge n ∨ u.st = .disabled ∨ u.v.natAbs < s.maF n Reg.LA_V_MIN 0 24 then s.modMa n fun u => { u with la := none }
  else
    let inv := bit (s.maR n Reg.MA_CFG) 2
    let v := if inv then -u.v else u.v
    let w := (Q.mk' (twoPi140 * v * 100) (2 ^ 166)).toF
    let wl := fmul w (s.maR n Reg.L_COIL)
    let r := s.maR n Reg.R_COIL
    let ea := fsub (fsub (fmul u.a.d u.vbr) (fmul r u.a.cur)) (fmul wl (fneg u.b.cur))
    let eb := fsub (fsub (fmul u.b.d u.vbr) (fmul r u.b.cur)) (fmul wl u.a.cur)
    let f := s.freshNat
    let x := angleOf (qOfF u.a.cur) (qOfF u.b.cur) f.1 - angleOf (qOfF ea) (qOfF eb) f.1
    let turn : Int := 65536 * 2 ^ 140
    let y := (x + turn / 2) % turn - turn / 2
    let del := (Q.mk' (16384 * 2 ^ 140 - (y.natAbs : Int)) (2 ^ 140)).toF
    let la := u.la.getD 0#32
    let la' := fadd la (fmul (s.maR n Reg.LA_ALPHA) (fsub (fclamp 0#32 (fOfInt 16384) del) la))
    f.2.modMa n fun u => { u with la := some la' }

/-- R308: one stoke of stall detection. -/
def State.maStall (s : State) (n : Ma) : State :=
  let u := s.ma[n].m
  if u.la.isNone then s
  else if u.laWord ≤ s.maF n Reg.LA_STALL 0 16 then s.modMa n fun u => { u with stall := 0 }
  else if u.stall + 1 < s.maF n Reg.STALL_STOKES 0 16 then s.modMa n fun u => { u with stall := u.stall + 1 }
  else ((s.modMa n fun u => { u with stall := 0 }).bump (maReg n Reg.STALL_CNT)).maFault n 1 s.motC

/-- A sample exceeds I_OC in magnitude (R294). -/
def State.ocSample (s : State) (n : Ma) (x : Int) : Bool :=
  flt (fOfInt (s.maF n Reg.I_OC 0 16 : Nat)) (fabs (fmul (fOfInt x) (s.maR n Reg.CUR_SCALE)))
/-- A sample of a coil at the present instant: overcurrent brakes the axis at once (R294). -/
def State.maSample (s : State) (n : Ma) (x : Int) : State :=
  if s.maBridge n && s.ocSample n x then (s.modMa n fun u => { u with oc := true }).maFault n 2 (s.now / 8 + 1) else s

/-- The samples of the stoke that ends: as many as R288 puts into it. DESIGN CHOICE (log 82): of fewer the decimate is the mean, and without
any it stays. -/
def State.maSamples (s : State) (i : MaIn) : MaIn := ⟨i.ia.take s.sampleCnt, i.ib.take s.sampleCnt, i.vbr.take s.sampleCnt⟩

/-- The first sample of the stoke in which a coil exceeds I_OC brakes the axis at its motion clock (R294). -/
def State.maOver (s : State) (n : Ma) (i : MaIn) : State :=
  let at_ (xs : List Int) : Option Nat := xs.findIdx? fun x => s.ocSample n x
  let first := match at_ i.ia, at_ i.ib with
    | some a, some b => some (min a b)
    | some a, none => some a
    | none, b => b
  let s := if i.ia.isEmpty ∧ i.ib.isEmpty then s else s.modMa n fun u => { u with oc := first.isSome }
  match first with
  | some k => if s.maBridge n then s.maFault n 2 (s.sampleFrom + 125 * k + 1) else s
  | none => s

/-- The decimates of the stoke that ends, with the bridge voltage's check (R288, R294). -/
def State.maDecimate (s : State) (n : Ma) (i : MaIn) : State :=
  if i.vbr.isEmpty ∨ i.ia.isEmpty ∨ i.ib.isEmpty then s
  else
    let cs := s.maR n Reg.CUR_SCALE
    let v := meanF (i.vbr.map fun (x : Nat) => (x : Int)) (s.maR n Reg.VBR_SCALE)
    let uv := flt v (fOfInt (s.maF n Reg.VBR_MIN 0 16 : Nat))
    let s := s.modMa n fun u => { u with a := { u.a with cur := meanF i.ia cs }, b := { u.b with cur := meanF i.ib cs }, vbr := v, uv := uv }
    if uv && s.maBridge n then s.maFault n 3 s.motC else s

/-- R289: the duties that play at a motion clock of the present stoke: those committed last once a peak or valley has passed. -/
def State.maDutyAt (s : State) (n : Ma) (m : Nat) : List Word :=
  let t := s.time.cnt * s.motC
  if (t + 999) / 1000 * 1000 ≤ t + m then (s.ma[n].m).duty else (s.ma[n].m).dutyOld

/-! STEP/DIR (R299). -/

/-- A crossing at clock k: a pulse, with a change of DIR `setup` clocks before it, delayed where the axis has turned too late for that. -/
def StepU.cross (x : StepU) (want : Bool) (setup : Nat) (k : Int) : StepU :=
  match x.due with
  | none => { x with last := some k, pulses := x.pulses ++ [k] }
  | some since =>
    let t := max (k - (setup : Int)) since
    { last := some k, pulses := x.pulses ++ [t + (setup : Int)], dir := want, dirAt := t, due := none }

/-- The outputs over `f` clocks from clock `m`; they end at the first crossing that would come too close, at the clock answered. -/
def MaU.stepRun (u : MaU) (div lim setup : Nat) (want : Bool) : Nat → Nat → StepU → StepU × Option Nat
  | 0, _, x => (x, none)
  | f + 1, m, x =>
    let p := (microOf (u.accAt m)).fdiv (div : Int)
    let q := (microOf (u.accAt (m + 1))).fdiv (div : Int)
    let k : Int := ((m + 1 : Nat) : Int)
    if p = q then MaU.stepRun u div lim setup want f (m + 1) x
    else
      let close : Bool := match x.last with
        | some l => decide (k - l < (lim : Int))
        | none => false
      if close || decide (1 < (q - p).natAbs) then ({ x with last := some k }, some (m + 1))
      else MaU.stepRun u div lim setup want f (m + 1) (x.cross want setup k)

/-- The STEP and DIR outputs up to motion clock `m` of the present stoke, and the clock of crossings too close. DIR follows the sign of v. -/
def State.maSteps (s : State) (n : Ma) (m : Nat) : StepU × Option Nat :=
  let u := s.ma[n].m
  let c := s.maR n Reg.STEP_CFG
  let want := u.pos != bit (s.maR n Reg.MA_CFG) 2
  if s.maBridge n ∨ u.st = .disabled ∨ (u.v = 0 ∧ u.extra = 0) then (u.step, none)
  else u.stepRun (fld c 16 9) (2 * fld c 0 8 + fld c 8 8) (fld c 8 8) want m 0
    { u.step with due := if want = u.step.dir then none else some (u.step.due.getD 0) }

/-- The outputs over the stoke that ends, and the fault of crossings too close. -/
def State.maStepDir (s : State) (n : Ma) : State :=
  let r := s.maSteps n s.motC
  let s := s.modMa n fun u => { u with step := r.1 }
  match r.2 with
  | some m => s.maFault n 6 (m + 1)
  | none => s

/-- The outputs in clocks of the next stoke, without the pulses that have ended. -/
def StepU.shift (x : StepU) (c : Int) : StepU :=
  { x with last := x.last.map (· - c), pulses := (x.pulses.map (· - c)).filter (-256 ≤ ·), dirAt := max (x.dirAt - c) (-1000), due := x.due.map (· - c) }

/-- The levels of STEP and DIR at motion clock `m` of the present stoke: low in bridge mode, in the brake state and when DISABLED. -/
def State.stepPins (s : State) (n : Ma) (m : Nat) : Bool × Bool :=
  let x := (s.maSteps n (min s.motC (m + 256))).1
  let w : Int := (s.maF n Reg.STEP_CFG 0 8 : Nat)
  if s.maBridge n || (s.ma[n].m).braked then (false, false)
  else (x.pulses.any (fun k => decide (k ≤ (m : Int)) && decide ((m : Int) < k + w)), if x.dirAt ≤ (m : Int) then x.dir else !x.dir)

/-- R287, R289, R310: the duties of the four half-bridges at motion clock `m`; all low in the brake state and in STEP/DIR mode. -/
def State.bridgeDuty (s : State) (n : Ma) (m : Nat) : List Word :=
  if !s.maBridge n || (s.ma[n].m).braked then List.replicate 4 0#32 else s.maDutyAt n m

/-! The boundary. -/

/-- The stoke that ends: overcurrent, load angle, regulation, stall, STEP/DIR, then the position it reached, and the new decimates. -/
def State.maEnd (s : State) (n : Ma) (i : MaIn) : State :=
  let i := s.maSamples i
  let c := s.motC
  let old := s.maDutyAt n c
  let s := s.maOver n i
  let s := if (s.ma[n].m).st = .disabled then s.modMa n fun u => { u with sat := false } else ((s.maLoad n).maRegulate n).maStall n
  let s := s.maStepDir n
  let sh : Int := (s.stokeCyc : Nat)
  let s := s.modMa n fun u =>
    { u with acc := u.accAt c, cut := none, extra := if u.landing then u.extra else 0, vLast := u.v, dutyOld := old,
             step := u.step.shift (c : Int),
             lims := all3.foldl (fun (a : Vector LimIn 3) (i : Fin 3) =>
               a.set i.val { a[i] with since := if a[i].since < -80000000 then a[i].since else a[i].since - sh } i.isLt) u.lims }
  (s.maDecimate n i).maLanded n

/-- LIM_CFG: an input whose polarity changes turns over, and its filtered level with it; the pin has not moved, so no transition is counted.
DESIGN CHOICE (log 82): the spec gives no instant for it. -/
def State.limPol (s : State) (n : Ma) (v : Word) : State :=
  let x := s.maF n Reg.LIM_CFG 6 3 ^^^ fld v 6 3
  let s := s.setReg (maReg n Reg.LIM_CFG) v
  all3.foldl (fun (s : State) (i : Fin 3) =>
    if x.testBit i.val then
      let old := (s.ma[n].m).lims[i].filt
      let s := s.modMa n fun u => u.modLim i fun l => { l with raw := !l.raw }
      let raw := (s.ma[n].m).lims[i].raw
      let s := if old then s.limRelease n i else s.limAssert n i
      s.modMa n fun u => u.modLim i fun l => { l with raw := raw }
    else s) s

/-- Stops committed at the boundary, before the commands that commit with them. -/
def State.maStops (s : State) (n : Ma) : State :=
  let u := s.ma[n].m
  let s := if u.ramp ∧ u.st ≠ .disabled ∧ u.st ≠ .fault ∧ u.st ≠ .stopping then s.maRamp n .idle else s
  s.modMa n fun u => { u with ramp := false }

/-- The stoke that begins, after the commands have committed. -/
def State.maBegin (s : State) (n : Ma) : State :=
  let s := (((s.decelApply n).maStandstill n).homeStep n).maProfile n
  s.modMa n fun u => { u with stopped := false, due := [] }

/-- The registers of an axis that show its state (R312). -/
def State.maRead (s : State) (n : Ma) (o : Nat) : Option Word :=
  let u := s.ma[n].m
  if o = Reg.MA_STATUS then some (toW (s.maStatus n))
  else if o = Reg.MA_FAULT then some (toW u.faultWord)
  else if o = Reg.MA_POS then some (intW (microOf u.acc))
  else if o = Reg.MA_POS_FRAC then some (toW (u.acc % 65536).toNat)
  else if o = Reg.MA_VEL then some (intW u.vLast)
  else if o = Reg.MA_LA then some (toW u.laWord)
  else if o = Reg.LIM_STATUS then some (toW u.limStatus)
  else if o = Reg.HOME_STATUS then some (toW u.homeStatus)
  else if o = Reg.DEV then some u.dev
  else none

end Sys2Proof.Machine
end

