-- ==== Sys2Proof/Machine/Damper.lean ====
section
/-! DEFINITION. The kill stage and the engagement of the damper (R13, R310, R338, R441). -/

namespace Sys2Proof.Machine
open Sys2Proof

/-- The kill stage reaches every output: gates, converter codes, bridges, strobes. -/
def State.killStage (s : State) : State := (if s.killed then s else s.killOn).maBrakeAll.illKill

/-- The main-die clocks stop. DMP_STOKE tells the last stoke committed, where there is one. -/
def State.freeze (s : State) : State :=
  let s := s.bankStop
  { s with
    damper := { s.damper with frozen := true, stopAtBoundary := false,
                              stoke := if s.time.running && s.time.cnt != 0 then lo32 (s.time.cnt - 1) else s.damper.stoke },
    evt := { s.evt with acts := [] } }

/-- Event source 0x0F0 pulses if a motion clock remains before the stop; within 40 ns of an immediate stop the spec leaves that open. -/
def State.damperPulse (s : State) : State :=
  if s.damper.mode || !s.time.running then
    let (b, s) := s.freshBool
    if b then s.evPulse 0x0F0 else s
  else if nextMotion s.now < s.stokeCyc then s.evPulse 0x0F0 else s

/-- The damper is engaged, by its pin or by command, while it is not: the kill stage acts, and the clocks stop now, or at the
boundary of the stoke in progress. -/
def State.damperEngage (s : State) (pin : Bool) : State :=
  let mark (s : State) : State := { s with damper := { s.damper with pinLow := s.damper.pinLow || pin, cmd := s.damper.cmd || !pin } }
  if s.damperOn || s.boot.inReset then mark s
  else if s.damperHolds then (mark s).bump (dbgReg Reg.DMP_CNT)
  else
    let s := mark s.killStage
    let m := bit (s.reg (dbgReg Reg.DMP_CFG)) 0
    let s := s.bump (dbgReg Reg.DMP_CNT)
    let s : State := { s with damper := { s.damper with mode := m, secAt := s.bankSec } }
    let s := s.damperPulse
    if m || !s.time.running then s.freeze else { s with damper := { s.damper with stopAtBoundary := true } }

/-- DMP_CTRL, or the TAP's FRZ_CTRL. -/
def State.dmpCtrl (s : State) (v : Word) : State :=
  let s := if bit v 0 then s.damperEngage false else s
  if bit v 1 then { s with damper := { s.damper with cmd := false } } else s

end Sys2Proof.Machine
end

