-- ==== Sys2Proof/Machine/Ember.lean ====
section
/-! DEFINITION. The ember map: cells, decay, deposits, queries (R200–R211). -/

namespace Sys2Proof.Machine
open Sys2Proof

/-! Cells (R200, R201). -/

/-- A cell's energy, exactly: a significand and a power of two. -/
def cellVal (e : Nat) : Nat × Int :=
  let x := e / 2048 % 32
  let m := e % 2048
  if x = 0 then (m, -30) else (2048 + m, (x : Int) - 31)
/-- A cell's energy as binary32, in which every cell value is exact. -/
def cellF (e : Nat) : Word := let v := cellVal e; w32 (fmt32.round false v.1 v.2)

/-- A binary32 energy in the cell format: to nearest, ties to even, saturating at 0xFFFF; nothing below 0. -/
def toCell (w : Word) : Nat :=
  match f32 w with
  | .fin false m e =>
    if m = 0 then 0
    else
      let p : Int := (Nat.log2 m : Int) + e
      let q : Int := if p < -19 then -30 else p - 11
      let n := if q ≤ e then m <<< (e - q).toNat else (rneShift m (q - e).toNat).1
      let c : Nat := if p < -19 then n else (p + 20).toNat * 2048 + (n - 2048)
      min c 65535
  | .inf false => 65535
  | _ => 0

/-- The stamp unit of a stoke. -/
def stampUnit (k : Nat) : Nat := k / 64 % 65536
/-- The age of a stamp in units. -/
def ageOf (u t : Nat) : Nat := (u + 65536 - t % 65536) % 65536

/-! Decay (R202). -/

/-- exp(−n/d) in units of 2^−140: the alternating series, term after term. -/
def expSeries (n d : Nat) : Nat → Nat → Int → Int → Int
  | 0, _, _, acc => acc
  | f + 1, k, t, acc => expSeries n d f (k + 1) (-(t * n / (d * (k + 1)))) (acc + t)

/-- exp(−n/d) in units of 2^−140, for n/d at most 17. -/
def expFix (n d : Nat) : Int := expSeries n d 110 0 (2 ^ 140) 0

/-- A finite nonnegative word in units of 2^−140. -/
def fixOfF (w : Word) : Option Int :=
  match f32 w with
  | .fin false m e => some (if 0 ≤ e + 140 then m <<< (e + 140).toNat else m >>> (-(e + 140)).toNat : Nat)
  | _ => none

/-- d(a) as binary32: 1 for age 0, 0 where the exact value is below 2^−24, else any word within 2^−16 of the exact value. -/
def decay (a cyc tau : Nat) : Word :=
  if a = 0 then fone
  else
    let n := 2 * a * cyc
    let d := 25 * max tau 1
    if 17 * d < n then fzero
    else
      let x := expFix n d
      if x < 2 ^ 116 then fzero
      else
        let w := Config.decay a cyc tau
        match fixOfF w with
        | some v => if (v - x).natAbs * 65536 ≤ x.toNat then w else fOfQ x 140
        | none => fOfQ x 140

/-- d(a) under the registers. -/
def State.emDecay (s : State) (a : Nat) : Word := decay a s.stokeCyc (s.reg (emReg Reg.EM_TAU)).toNat

/-! The map (R200, R209). -/

/-- The map is enabled and not clearing. -/
def State.emOn (s : State) : Bool := bit (s.reg (emReg Reg.EM_CFG)) 0 && !s.em.clearing
/-- BAR2 offset of a cell. -/
def cellAt (i j : Nat) : Nat := 4 * (2048 * j + i)
/-- The cell that holds a coordinate given in units of 1/512 field unit. -/
def cellIdx (v org : Int) (pitch : Nat) : Int := (v - 512 * org).fdiv (512 * max pitch 1)
/-- The centre cell of a plate point in units of 1/512 field unit, inside the map or not. -/
def State.emCell (s : State) (x y : Int) : Int × Int :=
  let p := (s.reg (emReg Reg.EM_PITCH)).toNat
  (cellIdx x (s.reg (emReg Reg.EM_ORIGIN_X)).toInt p, cellIdx y (s.reg (emReg Reg.EM_ORIGIN_Y)).toInt p)
/-- A cell index within the map. -/
def inMap (i j : Int) : Bool := decide (0 ≤ i) && decide (i < 2048) && decide (0 ≤ j) && decide (j < 2048)

/-- R204: one share of a deposit reaches its cell. -/
def State.emShare (s : State) (u : Nat) (i j : Int) (q : Word) : State :=
  if !inMap i j then s
  else
    let a := cellAt i.toNat j.toNat
    let ue := s.isBad a
    let s : State := if ue then (s.countUe a).bump (emReg Reg.EM_UE_CNT) else s
    let w := s.word a
    let e := if ue then fzero else cellF (fld w 0 16)
    let t := fld w 16 16
    let age := ageOf u t
    let r := if age < 32768 then (fadd (fmul e (s.emDecay age)) q, u) else (fadd e (fmul q (s.emDecay (ageOf t u))), t)
    s.put a (bytesLE (toW (toCell r.1 + r.2 * 65536)))

/-- The nine offsets of the kernel in row order. -/
def kernel : List (Int × Int) := [(-1, -1), (0, -1), (1, -1), (-1, 0), (0, 0), (1, 0), (-1, 1), (0, 1), (1, 1)]

/-- One deposit is applied (R204). -/
def State.emApply (s : State) (d : Deposit) : State :=
  kernel.foldl (fun (s : State) (k : Int × Int) =>
    let w := if k.1 = 0 ∧ k.2 = 0 then Reg.EM_KW_C else if k.1 = 0 ∨ k.2 = 0 then Reg.EM_KW_E else Reg.EM_KW_K
    let q := fmul d.q (fOfQ (s.regF (emReg w) 0 17 : Nat) 16)
    s.emShare (stampUnit d.m) (d.i + k.1) (d.j + k.2) q) s

/-- The order of R204: pin stoke, then gang-wide channel. -/
def Deposit.before (a b : Deposit) : Bool := decide (a.m < b.m) || (a.m == b.m && decide (a.g ≤ b.g))
/-- Insert a deposit in order. -/
def insertDep (d : Deposit) : List Deposit → List Deposit
  | [] => [d]
  | x :: r => if d.before x then d :: x :: r else x :: insertDep d r
/-- Deposits in order. -/
def sortDeps : List Deposit → List Deposit
  | [] => []
  | d :: r => insertDep d (sortDeps r)

/-- Every deposit that is due at this boundary is applied. -/
def State.emApplyDue (s : State) : State :=
  let l := s.em.due
  let s := { s with em := { s.em with due := [] } }
  if s.emOn then (sortDeps l).foldl State.emApply s else s

/-! Deposits of the device's own channels (R203). -/

/-- Change a channel's part. -/
def State.modEm (s : State) (c : Ch) (f : EmCh → EmCh) : State :=
  { s with em := { s.em with ch := s.em.ch.set c.val (f s.em.ch[c]) c.isLt } }

/-- Q of the pin stoke that ends, when the port's gate was high for `n` core cycles. -/
def State.emQ (s : State) (c : Ch) (n : Nat) : Word :=
  let l := s.las[c]
  let g := s.em.ch[c].gain
  let ns (k : Nat) : Word := (Q.mk' (5 * (k : Int)) 4000000000).toF
  if bit (s.reg (emReg Reg.EM_CFG)) 1 then fmul (fmul (fmul (fOfInt l.monMean) (s.creg c Reg.MON_W_SCALE)) (ns s.stokeCyc)) g
  else fmul (fmul (fmul (fOfInt l.code) (s.reg (emReg (Reg.EM_W_PER_CODE + 4 * c.val)))) (ns n)) g

/-- R203: the deposit of pin stoke `m`, which ends, is formed: sent, and due at the next boundary, or discarded. OUTSIDE speaks of the
last deposit, so a stoke without one leaves it (R210). -/
def State.emForm (s : State) (c : Ch) (m : Nat) : State :=
  let u := s.em.ch[c]
  let n := s.las[c].onLast
  let formed (q : Word) (out : Bool) (s : State) : State := s.modEm c fun u => { u with last := q, lastStoke := toW m, outside := out }
  if !s.emOn || u.dis || n == 0 then formed fzero u.outside s
  else
    let q := s.emQ c n
    let a := nthD u.pts 2 (0, 0)
    let b := nthD u.pts 1 (0, 0)
    let ij := s.emCell (a.1 + b.1) (a.2 + b.2)
    let out := !inMap ij.1 ij.2
    let bad := !fFinite q || flt q fzero
    if out || bad then formed q true (s.bump (emReg (if out then Reg.EM_OUTSIDE_CNT else Reg.EM_DISCARD_CNT)))
    else
      let d : Deposit := ⟨m, 24 * s.devNum + c.val, q, ij.1.toNat, ij.2.toNat⟩
      let s := formed q false s
      { s with em := { s.em with own := s.em.own ++ [d] } }

/-- The controls committed at this boundary belong to the pin stoke after the next; the others move on (R203, R210). -/
def State.emShift (s : State) (c : Ch) : State :=
  let d := bit (s.reg (empReg c Reg.EMP_DEP_CTRL)) 0
  let g := s.reg (empReg c Reg.EMP_DEP_GAIN)
  s.modEm c fun u => { u with dis := u.disNext, gain := u.gainNext, disNext := d, gainNext := g, bad := u.badNext, badNext := false }

/-- A gain outside 0.0–4.0 is discarded and flagged (R210). -/
def State.emGain (s : State) (c : Ch) (v : Word) : State :=
  if fle fzero v && fle v 0x40800000#32 then s.setReg (empReg c Reg.EMP_DEP_GAIN) v else s.modEm c fun u => { u with badNext := true }

/-! Queries (R82, R206). -/

/-- The weight class of a squared distance. -/
def qClass (d : Nat) : Nat := if d = 0 then 0 else if d = 1 then 1 else if d = 2 then 2 else if d = 4 then 3 else if d = 5 then 4 else 5

/-- The 25 offsets, dy outermost. -/
def ring25 : List (Int × Int) := ([-2, -1, 0, 1, 2] : List Int).flatMap fun y => ([-2, -1, 0, 1, 2] : List Int).map fun x => (x, y)

/-- What one cell adds, and whether it was uncorrectable. -/
def State.emTerm (s : State) (i j : Int) (k : Int × Int) : Option (Word × Bool) :=
  if !inMap (i + k.1) (j + k.2) then none
  else
    let a := cellAt (i + k.1).toNat (j + k.2).toNat
    if s.isBad a then some (fzero, true)
    else
      let w := s.word a
      let qw := fOfQ (s.regF (emReg (Reg.EM_QW0 + 4 * qClass (k.1 * k.1 + k.2 * k.2).toNat)) 0 18 : Nat) 16
      some (fmul (fmul qw (cellF (fld w 0 16))) (s.emDecay (ageOf (stampUnit s.time.cnt) (fld w 16 16))), false)

/-- S of a query at a plate point in field units, and Z and V; the second part is the state with its counts of errors. -/
def State.emQuery (s : State) (x y : Int) : (Word × Bool × Bool) × State :=
  let ij := s.emCell (512 * x) (512 * y)
  if !s.emOn || !inMap ij.1 ij.2 then ((fzero, true, false), s)
  else
    let sum := ring25.foldl (fun (a : Word × Bool) k =>
      match s.emTerm ij.1 ij.2 k with
      | none => a
      | some t => (if t.2 then a.1 else fadd a.1 t.1, a.2 || t.2)) (fzero, false)
    let s := ring25.foldl (fun (s' : State) (k : Int × Int) =>
      match s.emTerm ij.1 ij.2 k with
      | some (_, true) => (s'.countUe (cellAt (ij.1 + k.1).toNat (ij.2 + k.2).toNat)).bump (emReg Reg.EM_UE_CNT)
      | _ => s') s
    ((sum.1, false, sum.2), s)

/-! Configuration (R208, R209). -/

/-- The values that the map's digest covers. -/
def State.emDigest (s : State) : List Nat :=
  let r (o : Nat) : Nat := (s.reg (emReg o)).toNat
  [bitAt (bit (s.reg (emReg Reg.EM_CFG)) 0) 0, r Reg.EM_PITCH, r Reg.EM_ORIGIN_X, r Reg.EM_ORIGIN_Y, r Reg.EM_TAU, r Reg.EM_KW_C, r Reg.EM_KW_E,
   r Reg.EM_KW_K] ++ (List.range 6).map fun i => r (Reg.EM_QW0 + 4 * i)

/-- The kernel's weights add up to one. -/
def State.emKernelOk (s : State) : Bool :=
  s.regF (emReg Reg.EM_KW_C) 0 17 + 4 * s.regF (emReg Reg.EM_KW_E) 0 17 + 4 * s.regF (emReg Reg.EM_KW_K) 0 17 == 65536
/-- A write of EM_CFG is accepted (R209). -/
def State.emCfgOk (s : State) (v : Word) : Bool :=
  bit v 0 == bit (s.reg (emReg Reg.EM_CFG)) 0 || (!s.anyLayer && (!bit v 0 || s.emKernelOk))
/-- The registers locked while EN is 1. -/
def emLocked (o : Nat) : Bool := decide (4 ≤ o ∧ o ≤ 0x34)
/-- A clear begins. -/
def State.emClear (s : State) : State := { s with em := { s.em with clearing := true } }
/-- A write of EM_CFG takes effect: setting EN clears the map first; a clear that runs goes on to its end. -/
def State.emCfg (s : State) (v : Word) : State :=
  let was := bit (s.reg (emReg Reg.EM_CFG)) 0
  let s := s.setReg (emReg Reg.EM_CFG) v
  if bit v 0 && !was then s.emClear else s
/-- The clear ends: every cell reads 0 (R209). -/
def State.emClearDone (s : State) : State :=
  if s.em.clearing then
    { s with sram := s.sram.filter fun x => decide (0x1000000 ≤ x.1), bad := s.bad.filter fun x => decide (0x1000000 ≤ x),
             em := { s.em with clearing := false } }
  else s

/-- EM_STATUS. -/
def State.emStatus (s : State) : Nat :=
  let mm := all4.foldl (fun (a : Nat) (d : Fin 4) => a + bitAt (s.gm.dev[d].heard && !s.gm.dev[d].emSame) d.val) 0
  bitAt s.emOn 0 + bitAt s.em.clearing 1 + bitAt (decide (mm ≠ 0)) 2 + fld (s.reg (emReg Reg.EM_STATUS)) 3 2 * 8 + mm * 256

/-- The ember registers and ports that are read-only views (R210, R211). -/
def State.emRead (s : State) (c : Ch) (o : Nat) : Option Word :=
  let u := s.em.ch[c]
  if o = Reg.EM_DEP_LAST then some u.last
  else if o = Reg.EM_DEP_STOKE then some u.lastStoke
  else if o = Reg.EM_PSTATE then some (toW (s.emStatus % 8 + bitAt u.outside 3 + bitAt u.bad 4))
  else if o = Reg.EM_PITCH_RD then some (s.reg (emReg Reg.EM_PITCH))
  else if o = Reg.EM_ORG_X then some (s.reg (emReg Reg.EM_ORIGIN_X))
  else if o = Reg.EM_ORG_Y then some (s.reg (emReg Reg.EM_ORIGIN_Y))
  else none

/-- A word of the map that a scrub finds with an age of 32,768 units or more is rewritten at the present unit (R201). -/
def State.emScrub (s : State) (a : Nat) : State :=
  let w := s.word a
  let u := stampUnit s.time.cnt
  let age := ageOf u (fld w 16 16)
  if age < 32768 then s
  else s.put a (bytesLE (toW (toCell (fmul (cellF (fld w 0 16)) (s.emDecay age)) + u * 65536)))

end Sys2Proof.Machine
end

