-- ==== Sys2Proof/Machine/Guard.lean ====
section
/-! DEFINITION. The draught guard: zones, trails, the backstop, plans, overlap zones, and what gang frames carry (R208, R212–R224). -/

namespace Sys2Proof.Machine
open Sys2Proof

/-! Zones (R212). -/

/-- f of the flow direction: cosine and sine as binary64, in units of 2^−140. -/
def flowVec (phi : Nat) : Int × Int :=
  let q : Nat := (phi + 2 ^ 29) / 2 ^ 30
  let r := trigSeries (twoPi140 * ((phi : Int) - (q : Int) * 2 ^ 30) / 2 ^ 32) 40 0 trigOne 0 0
  let cs : Int × Int := match q % 4 with
    | 0 => r
    | 1 => (-r.2, r.1)
    | 2 => (-r.1, -r.2)
    | _ => (r.2, -r.1)
  (fixOfD (dScale cs.1 (-140)), fixOfD (dScale cs.2 (-140)))

/-- A segment with its ends over a common denominator, in 1/256 field unit. -/
structure Seg where
  x0 : Int
  y0 : Int
  x1 : Int
  y1 : Int
  den : Nat
  deriving DecidableEq, Repr

/-- A path as a segment. -/
def pathSeg (p : GPath) : Seg := ⟨p.x0, p.y0, p.x1, p.y1, 1⟩

/-- The least and greatest of a list of integers that begins with `a`. -/
def minMax (a : Int) (l : List Int) : Int × Int := l.foldl (fun (m : Int × Int) x => (min m.1 x, max m.2 x)) (a, a)
/-- Two closed ranges meet. -/
def rangesMeet (a b : Int × Int) : Bool := decide (a.1 ≤ b.2) && decide (b.1 ≤ a.2)

/-- The four vertices and the box [lo, hi] × [−w, w] are not separated by the normal of an edge. -/
def notSeparated (v : List (Int × Int)) (lo hi w : Int) (n : Int × Int) : Bool :=
  let pr (p : Int × Int) : Int := p.1 * n.1 + p.2 * n.2
  let box := [(lo, -w), (lo, w), (hi, -w), (hi, w)].map pr
  rangesMeet (minMax (pr (v.headD (0, 0))) (v.map pr)) (minMax (pr (lo, -w)) box)

/-- A path meets the zone of a segment: exactly, with f and g in binary64. Lengths are in 1/256 field unit. -/
def inZone (f : Int × Int) (l w m e : Nat) (p : Seg) (q : GPath) : Bool :=
  let n := f.1 * f.1 + f.2 * f.2
  let one : Int := 2 ^ 140
  let pt (qx qy px py : Int) : Int × Int :=
    let dx := qx * p.den - px
    let dy := qy * p.den - py
    ((dx * f.1 + dy * f.2) * one, (dy * f.1 - dx * f.2) * one)
  let v := [pt q.x0 q.y0 p.x0 p.y0, pt q.x1 q.y1 p.x0 p.y0, pt q.x0 q.y0 p.x1 p.y1, pt q.x1 q.y1 p.x1 p.y1]
  let k : Int := n * p.den
  let lo : Int := -((m + e : Nat) : Int) * k
  let hi : Int := ((l + m + e : Nat) : Int) * k
  let bm : Int := ((w + m + e : Nat) : Int) * k
  let a := nthD v 0 (0, 0)
  let edge (b : Int × Int) : Int × Int := (-(b.2 - a.2), b.1 - a.1)
  notSeparated v lo hi bm (1, 0) && notSeparated v lo hi bm (0, 1) && notSeparated v lo hi bm (edge (nthD v 1 (0, 0)))
    && notSeparated v lo hi bm (edge (nthD v 2 (0, 0)))

/-- A path of the guard lies in the zone of a segment, under the registers. -/
def State.gdIn (s : State) (e : Nat) (p : Seg) (q : GPath) : Bool :=
  inZone (flowVec (s.reg (emReg Reg.GD_FLOW)).toNat) (256 * s.regF (emReg Reg.GD_L) 0 20) (256 * s.regF (emReg Reg.GD_W) 0 20)
    (256 * s.regF (emReg Reg.GD_MARGIN) 0 16) e p q
/-- T_plume. -/
def State.tPlume (s : State) : Nat := s.regF (emReg Reg.GD_TPLUME) 0 13

/-! Trails (R213). -/

/-- The segment of a trail. -/
def Trail.seg (t : Trail) : Seg :=
  match t.axis with
  | none => let p := nthD t.pts 0 (0, 0); ⟨p.1, p.2, p.1, p.2, 1⟩
  | some (ax, ay, dx, dy) =>
    let n := dx * dx + dy * dy
    ⟨ax * n + t.lo * dx, ay * n + t.lo * dy, ax * n + t.hi * dx, ay * n + t.hi * dy, n.toNat⟩

/-- The least tolerance, a whole number of units, at which a point is within it of the trail's axis or point. -/
def Trail.need (t : Trail) (p : Int × Int) : Nat :=
  let r : Int × Int := match t.axis with
    | none => let o := nthD t.pts 0 (0, 0); ((p.1 - o.1) * (p.1 - o.1) + (p.2 - o.2) * (p.2 - o.2), 1)
    | some (ax, ay, dx, dy) => let c := (p.1 - ax) * dy - (p.2 - ay) * dx; (c * c, dx * dx + dy * dy)
  let k := isqrt (r.1 / r.2).toNat
  if (k * k : Int) * r.2 < r.1 then k + 1 else k

/-- The trail takes a path into its segment. -/
def Trail.grow (t : Trail) (p : GPath) : Trail :=
  let a := (p.x0, p.y0)
  let b := (p.x1, p.y1)
  match t.axis with
  | some (ax, ay, dx, dy) =>
    let pr (q : Int × Int) : Int := (q.1 - ax) * dx + (q.2 - ay) * dy
    { t with lo := min t.lo (min (pr a) (pr b)), hi := max t.hi (max (pr a) (pr b)) }
  | none =>
    if a = b then { t with pts := t.pts ++ [a] }
    else
      let d := (b.1 - a.1, b.2 - a.2)
      let pr (q : Int × Int) : Int := (q.1 - a.1) * d.1 + (q.2 - a.2) * d.2
      let r := minMax 0 ((b :: t.pts).map pr)
      { t with axis := some (a.1, a.2, d.1, d.2), lo := r.1, hi := r.2, pts := [] }

/-- A new trail of one pin stoke. -/
def Trail.fresh (g m e : Nat) (p : GPath) : Trail :=
  (⟨g, none, [], 0, 0, e, m, m, 1, true⟩ : Trail).grow p

/-- The newest trail of a channel takes a path and grows until it covers it (R213). -/
def Trail.merge (t : Trail) (m : Nat) (p : GPath) : Trail :=
  let u := t.grow p
  let old := t.pts.foldl (fun (a : Nat) q => max a (u.need q)) 0
  { u with e := max (max u.e old) (max (t.need (p.x0, p.y0)) (t.need (p.x1, p.y1))), b1 := m, n := t.n + 1, isOpen := true }

/-- Change the newest trail of a channel. -/
def modNewest (g : Nat) (f : Trail → Trail) : List Trail → List Trail
  | [] => []
  | t :: r => if t.g = g then f t :: r else t :: modNewest g f r

/-- A trail can take a path of pin stoke `m` without growing wider than its tolerance. -/
def State.trailFits (s : State) (t : Trail) (m : Nat) (p : GPath) : Bool :=
  t.b1 + 1 == m && decide (t.n < s.regF (emReg Reg.GD_TRAIL_MAX) 0 8) && decide (t.need (p.x0, p.y0) ≤ t.e)
    && decide (t.need (p.x1, p.y1) ≤ t.e)
/-- GD_TRAIL_TOL. -/
def State.trailTol (s : State) : Nat := 256 * s.regF (emReg Reg.GD_TRAIL_TOL) 0 12
/-- The trails of the guard are replaced. -/
def State.setTrails (s : State) (l : List Trail) : State := { s with gd := { s.gd with trails := l } }
/-- Channel `g` holds as many trails as it may. -/
def State.trailsFull (s : State) (g : Nat) : Bool := decide (32 ≤ (s.gd.trails.filter fun t => t.g == g).length)
/-- A 33rd trail would be needed: the newest takes the path instead (R213). -/
def State.trailMerge (s : State) (g : Nat) (f : Trail → Trail) : State :=
  let s := s.setTrails (modNewest g f s.gd.trails)
  if g / 24 = s.devNum then s.bump (emReg (Reg.GD_MERGE_CNT + 4 * (g % 24))) else s

/-- The path of a pin stoke older than the newest known one is taken in beside the trails that stand (R221). -/
def State.gdLate (s : State) (g m : Nat) (p : GPath) (em : Bool) : State :=
  if !em then s
  else if s.gd.trails.any fun t => t.g == g && !t.isOpen && s.trailFits t m p then
    s.setTrails (s.gd.trails.map fun t =>
      if t.g == g && !t.isOpen && s.trailFits t m p then { t.grow p with b1 := m, n := t.n + 1 } else t)
  else if s.trailsFull g then
    s.trailMerge g fun t => { t.merge m p with b0 := min t.b0 m, b1 := max t.b1 m, isOpen := t.isOpen }
  else s.setTrails (s.gd.trails ++ [{ Trail.fresh g m s.trailTol p with isOpen := false }])

/-- The path of the newest pin stoke of a channel opens a trail, joins the open one, or closes it (R213). -/
def State.gdNewest (s : State) (g m : Nat) (p : GPath) (em : Bool) : State :=
  let s := { s with gd := { s.gd with newest := (g, m, p, em) :: s.gd.newest.filter fun x => x.1 != g } }
  let shut (l : List Trail) : List Trail := modNewest g (fun t => { t with isOpen := false }) l
  if !em then s.setTrails (shut s.gd.trails)
  else if s.gd.trails.any fun t => t.g == g && t.isOpen && s.trailFits t m p then
    s.setTrails (modNewest g (fun t => { t.grow p with b1 := m, n := t.n + 1 }) s.gd.trails)
  else if s.trailsFull g then s.trailMerge g fun t => t.merge m p
  else s.setTrails (Trail.fresh g m s.trailTol p :: shut s.gd.trails)

/-- One pin stoke of one gang-wide channel enters the guard: its path, and whether it emits. -/
def State.gdPath (s : State) (g m : Nat) (p : GPath) (em : Bool) : State :=
  if s.gd.newest.any fun x => x.1 == g && decide (m < x.2.1) then s.gdLate g m p em else s.gdNewest g m p em

/-! Members (R208, R221). -/

/-- The device of a gang-wide channel. -/
def devOf (g : Nat) : Fin 4 := ⟨g / 24 % 4, Nat.mod_lt _ (by decide)⟩
/-- A member that has been heard, of whose frame of stoke `k` nothing has come. -/
def State.memberMissing (s : State) (d : Fin 4) (k : Nat) : Bool := s.gm.dev[d].heard && decide (s.gm.dev[d].last < k)
/-- The gang-wide channel belongs to a member whose frame for the previous stoke is missing. -/
def State.gdMissing (s : State) (g : Nat) : Bool :=
  let d := devOf g
  d.val != s.devNum && s.gm.dev[d].heard && decide (s.gm.dev[d].last + 1 < s.time.cnt)
/-- A remote channel that emitted in its newest known pin stoke is taken to emit on (R214, R221). -/
def State.gdCarries (s : State) (g m : Nat) : Bool :=
  devOf g != ⟨s.devNum % 4, Nat.mod_lt _ (by decide)⟩ &&
    match s.gd.newest.find? (fun x => x.1 == g) with
    | some (_, k, _, em) => em && (decide (m ≤ k + 1) || s.gdMissing g)
    | none => false
/-- The last pin stoke of a trail, with what the guard takes for granted up to pin stoke `m`. -/
def State.trailEnd (s : State) (t : Trail) (m : Nat) : Nat := if t.isOpen && s.gdCarries t.g m then max t.b1 m else t.b1
/-- The zone of a trail is active in pin stoke `m`. -/
def State.trailActive (s : State) (t : Trail) (m : Nat) : Bool :=
  decide (t.b0 ≤ m) && (decide (m ≤ s.trailEnd t m + s.tPlume) || s.gdMissing t.g)

/-- GD_STATUS. -/
def State.gdStatus (s : State) : Nat :=
  bitAt s.gd.incomplete 0 + bitAt s.gd.mismatch 1 + fld (s.reg (emReg Reg.GD_STATUS)) 2 1 * 4
    + all4.foldl (fun (a : Nat) (d : Fin 4) => a + bitAt (s.gm.dev[d].heard && (decide (s.gm.dev[d].last + 1 < s.time.cnt) || !s.gm.dev[d].gdSame)) (d.val + 4)) 0

/-! The backstop (R215, R216, R224). -/

/-- The path of a local channel in the next pin stoke, before the point after it is known. -/
def State.nextPath (s : State) (c : Ch) : GPath :=
  let u := s.em.ch[c]
  let a := nthD u.pts 1 (0, 0)
  let b := nthD u.pts 0 (0, 0)
  ⟨a.1, a.2, b.1, b.2⟩

/-- The gang-wide channels in whose zones the path of a local channel lies in pin stoke `m`. -/
def State.zoneOf (s : State) (c : Ch) (m : Nat) : List Nat :=
  let g := 24 * s.devNum + c.val
  ((s.gd.trails.filter fun t => t.g != g && s.trailActive t m && s.gdIn t.e t.seg (s.nextPath c)).map (·.g))

/-- A path meets a rectangle given in field units: the path is clipped against both pairs of sides. -/
def pathMeetsRect (p : GPath) (xmin ymin xmax ymax : Int) : Bool :=
  let lox := 256 * xmin
  let hix := 256 * xmax
  let loy := 256 * ymin
  let hiy := 256 * ymax
  let dx := p.x1 - p.x0
  let dy := p.y1 - p.y0
  let side (x y : Int) : Int := dx * (y - p.y0) - dy * (x - p.x0)
  decide (lox ≤ hix) && decide (loy ≤ hiy) && rangesMeet (min p.x0 p.x1, max p.x0 p.x1) (lox, hix)
    && rangesMeet (min p.y0 p.y1, max p.y0 p.y1) (loy, hiy)
    && (let r := minMax (side lox loy) [side lox hiy, side hix loy, side hix hiy]; decide (r.1 ≤ 0) && decide (0 ≤ r.2))

/-- Overlap zone z forbids the channel and its next path enters it (R224). -/
def State.ozHit (s : State) (z : Fin 16) (c : Ch) : Bool :=
  let r (o : Nat) : Word := s.reg (emReg (o + 32 * z.val))
  let g := 24 * s.devNum + c.val
  bit (r Reg.OZ_CFG) 0 && !bit (r (Reg.OZ_MASK0 + 4 * (g / 32))) (g % 32)
    && pathMeetsRect (s.nextPath c) (r Reg.OZ_XMIN).toInt (r Reg.OZ_YMIN).toInt (r Reg.OZ_XMAX).toInt (r Reg.OZ_YMAX).toInt

/-- One overlap zone against one emitting channel: counted, and the first stoke of a run logged. -/
def State.ozStep (s : State) (c : Ch) (z : Fin 16) (em : Bool) : State :=
  let hit := em && s.ozHit z c
  let was := (s.gd.ozRun[z]).getLsbD c.val
  let m := BitVec.ofNat 24 (2 ^ c.val)
  let s := { s with gd := { s.gd with ozRun := s.gd.ozRun.set z.val (if hit then s.gd.ozRun[z] ||| m else s.gd.ozRun[z] &&& ~~~m) z.isLt } }
  let s : State := if hit then s.bump (emReg (Reg.OZ_VIOL_CNT + 4 * z.val)) else s
  if hit && !was then s.logEvent 0xC4 z.val 3 (24 * s.devNum + c.val) 0 else s

/-- GD_VIOL. -/
def Viol.word (v : Viol) : Nat := bitAt v.mask 0 + bitAt v.zone 1 + (if v.mask then v.culprit else 0xFF) * 256

/-- R215, R216: the backstop decides about the next pin stoke `m` of a local channel, at the boundary that begins it. -/
def State.backstop (s : State) (c : Ch) (m : Nat) : State :=
  let em := s.em.ch[c].emNext
  let zs := all16.filter fun (z : Fin 16) => em && s.ozHit z c && bit (s.reg (emReg (Reg.OZ_CFG + 32 * z.val))) 1
  let s := all16.foldl (fun (s : State) (z : Fin 16) => s.ozStep c z em) s
  let on := bit (s.reg (emReg Reg.GD_CFG)) 0
  let gs := if em && on then s.zoneOf c m else []
  let own := 24 * s.devNum + c.val
  let zone := on && !zs.isEmpty
  let mask := !gs.isEmpty || zone
  let culprit := gs.foldl min (if zone then own else 255)
  let old := s.gd.viol[c]
  let v : Viol := ⟨mask, zone, if mask then culprit else 255, if mask then old.run + 1 else 0⟩
  let s := { s with gd := { s.gd with viol := s.gd.viol.set c.val v c.isLt } }
  if mask then
    let s := (s.bump (emReg (Reg.GD_VIOL_CNT + 4 * c.val))).modLas c fun l => { l with mNext := true }
    if old.run = 0 then (s.logEvent 0xC4 own 1 (bitAt (zone && gs.isEmpty) 0) culprit).raiseEv 0xC4 own (bitAt (zone && gs.isEmpty) 0) s.gdStatus else s
  else if old.run ≠ 0 then s.logEvent 0xC4 own 2 0 old.run
  else s

/-! Plans (R217–R220). -/

/-- A descriptor's words: X0, Y0, X1, Y1, N, OFFSET or START, 0, ID. -/
def descWord (l : List Word) (i : Nat) : Word := nthD l i 0#32
/-- The plate path of a descriptor under the channel's applied trim, its ends in whole field units (R139). -/
def State.descPath (s : State) (c : Ch) (l : List Word) : GPath :=
  let a := wholePoint (s.trimXY c (descWord l 0).toInt (descWord l 1).toInt)
  let b := wholePoint (s.trimXY c (descWord l 2).toInt (descWord l 3).toInt)
  ⟨a.1, a.2, b.1, b.2⟩
/-- N of a descriptor is in its range. -/
def descOk (l : List Word) : Bool := decide (1 ≤ (descWord l 4).toNat) && decide ((descWord l 4).toNat ≤ 65535)
/-- A 32-bit stoke number near a stoke, in full. -/
def stokeNear (k : Nat) (w : Word) : Nat := ((k : Int) + (w - toW k).toInt).toNat

/-- The stokes a candidate may not start in, as closed ranges of the first pin stoke (R218). -/
def State.gdBlocks (s : State) (g : Nat) (q : GPath) (n : Nat) : List (Int × Int) :=
  let t := s.tPlume
  let k := s.time.cnt
  let tr := (s.gd.trails.filter fun x => x.g != g && s.gdIn x.e x.seg q).map fun x =>
    ((x.b0 : Int) - n + 1, if s.gdMissing x.g then (2 ^ 70 : Int) else (s.trailEnd x (k + 1) + t : Int))
  let p2 := (s.gd.plans.filter fun x => x.g != g && s.gdIn 0 (pathSeg x.path) q).map fun x =>
    ((x.start : Int) - n + 1, ((x.start + x.n - 1 + t : Nat) : Int))
  let p3 := (s.gd.plans.filter fun x => x.g != g && s.gdIn 0 (pathSeg q) x.path).map fun x =>
    ((x.start : Int) - n + 1 - t, ((x.start + x.n - 1 : Nat) : Int))
  tr ++ p2 ++ p3

/-- The least start at or above `a` outside every range: one range after another moves it on. -/
def clearStart (l : List (Int × Int)) : Nat → Int → Int
  | 0, a => a
  | f + 1, a =>
    match l.find? (fun r => decide (r.1 ≤ a) && decide (a ≤ r.2)) with
    | none => a
    | some r => clearStart l f (r.2 + 1)

/-- R83, R218: the answer of GDQ: the wait, or none. -/
def State.gdQuery (s : State) (c : Ch) (l : List Word) : Option Nat :=
  if !bit (s.reg (emReg Reg.GD_CFG)) 0 then some 0
  else if !descOk l || s.gd.incomplete || s.gd.mismatch then none
  else
    let q := s.descPath c l
    let n := (descWord l 4).toNat
    let base : Int := s.time.cnt + 2 + (descWord l 5).toNat
    let bl := s.gdBlocks (24 * s.devNum + c.val) q n
    let a := clearStart bl (bl.length + 1) (base + s.regF (emReg Reg.GD_LEAD) 0 4)
    if a - base ≤ (s.regF (emReg Reg.GD_HORIZON) 0 16 : Nat) then some (a - base).toNat else none

/-- Two closed ranges of stokes meet. -/
def stokesMeet (a0 a1 b0 b1 : Nat) : Bool := decide (a0 ≤ b1) && decide (b0 ≤ a1)
/-- Plan x conflicts with plan y, by conflict 2 or 3 of R218. -/
def State.planClash (s : State) (x y : Plan) : Bool :=
  let t := s.tPlume
  let e (p : Plan) : Nat := p.start + p.n - 1
  x.g != y.g && ((stokesMeet x.start (e x) y.start (e y + t) && s.gdIn 0 (pathSeg y.path) x.path)
    || (stokesMeet y.start (e y) x.start (e x + t) && s.gdIn 0 (pathSeg x.path) y.path))
/-- The rank of R220: a plan of higher rank comes first. -/
def Plan.above (y x : Plan) : Bool :=
  decide (y.at_ < x.at_) || (y.at_ == x.at_ && (decide (y.g < x.g) || (y.g == x.g && decide (y.slot.val < x.slot.val))))

/-- A plan enters, replacing what its slot held. -/
def State.planPut (s : State) (p : Plan) : State :=
  { s with gd := { s.gd with plans := p :: s.gd.plans.filter fun x => !(x.g == p.g && x.slot == p.slot) } }
/-- A slot's plan is withdrawn. -/
def State.planDrop (s : State) (g : Nat) (slot : Fin 2) : State :=
  { s with gd := { s.gd with plans := s.gd.plans.filter fun x => !(x.g == g && x.slot == slot) } }

/-- The words of a slot's descriptor registers. -/
def State.planWords (s : State) (c : Ch) (slot : Fin 2) : List Word :=
  (List.range 8).map fun i => s.reg (empReg c (Reg.PLAN + 32 * slot.val + 4 * i))

/-- R219: one slot's part of a PLAN_PUB committed at the boundary that ends stoke `p`. -/
def State.planPub (s : State) (c : Ch) (slot : Fin 2) (pub wd : Bool) (p : Nat) : State :=
  let g := 24 * s.devNum + c.val
  let ref (b : Bool) (s : State) : State :=
    let r := s.gd.refused[c]
    { s with gd := { s.gd with refused := s.gd.refused.set c.val (if slot = 0 then (b, r.2) else (r.1, b)) c.isLt } }
  if pub then
    let l := s.planWords c slot
    if !descOk l then ref true s
    else
      let q := s.descPath c l
      let st := stokeNear p (descWord l 5)
      let n := (descWord l 4).toNat
      let s := (ref false s).planPut ⟨g, slot, q, st, n, p, descWord l 7, false, false⟩
      { s with gd := { s.gd with sent := s.gd.sent ++ [⟨c, slot, true, q, st, n, descWord l 7⟩] } }
  else if wd then
    let s := s.planDrop g slot
    { s with gd := { s.gd with sent := s.gd.sent ++ [⟨c, slot, false, ⟨0, 0, 0, 0⟩, 0, 0, 0#32⟩] } }
  else s

/-- PLAN_PUB commits. -/
def State.planPubWrite (s : State) (c : Ch) (v : Word) (p : Nat) : State :=
  (s.planPub c 0 (bit v 0) (bit v 4) p).planPub c 1 (bit v 1) (bit v 5) p

/-- Every plan of a channel is withdrawn: it enters fault (R219), or the member realigns (R47). -/
def State.planWithdraw (s : State) (c : Ch) : State := (s.planPub c 0 false true s.time.cnt).planPub c 1 false true s.time.cnt

/-- R220: the plans committed at the end of stoke k − 2 are settled at the boundary that ends stoke k. -/
def State.planSettle (s : State) (k : Nat) : State :=
  let all := s.gd.plans
  let f (x : Plan) : Plan :=
    if x.at_ + 2 = k ∧ x.settled = false ∧ x.contested = false then
      if all.any fun y => y.above x && s.planClash x y then { x with contested := true } else { x with settled := true }
    else x
  { s with gd := { s.gd with plans := all.map f } }

/-- R219: plans whose last pin stoke and plume have passed by the stoke that ends expire, but for those of a missing member. -/
def State.planExpire (s : State) (k : Nat) : State :=
  { s with gd := { s.gd with plans := s.gd.plans.filter fun x => s.gdMissing x.g || decide (k < x.start + x.n - 1 + s.tPlume) } }
/-- R213: trails whose plume has passed by the stoke that ends are removed, but for those of a missing member. -/
def State.trailRemove (s : State) (k : Nat) : State :=
  { s with gd := { s.gd with trails := s.gd.trails.filter fun x => s.gdMissing x.g || decide (k < s.trailEnd x (k + 1) + s.tPlume) } }

/-! Gang frames (R208, R214, R221, R383). -/

/-- The values that the guard's digest covers. -/
def State.gdDigest (s : State) : List Nat :=
  let r (o : Nat) : Nat := (s.reg (emReg o)).toNat
  [r Reg.GD_CFG, r Reg.GD_FLOW, r Reg.GD_L, r Reg.GD_W, r Reg.GD_TPLUME, r Reg.GD_MARGIN, r Reg.GD_TRAIL_MAX, r Reg.GD_TRAIL_TOL]
/-- The guard registers locked while a channel is in layer (R221). -/
def gdLocked (o : Nat) : Bool := o == 0x1000 || decide (0x1004 ≤ o ∧ o ≤ 0x1014) || o == 0x1020 || o == 0x1024

/-- Change what is known of a member. -/
def State.modMember (s : State) (d : Fin 4) (f : Member → Member) : State :=
  { s with gm := { s.gm with dev := s.gm.dev.set d.val (f s.gm.dev[d]) d.isLt } }

/-- EM_STATUS.CFG_MISMATCH begins: it is logged. -/
def State.emMismatch (s : State) (d : Fin 4) (same : Bool) : State :=
  let old := s.emStatus
  let was := s.gm.dev[d].emSame
  let s := s.modMember d fun m => { m with emSame := same }
  if was && !same then s.logEvent 0xC5 d.val 1 old s.emStatus else s

/-- The deposits of a frame: due at this boundary, or applied at once where the frame is late (R208, R209). -/
def State.frameDeps (s : State) (f : GangFrame) (late : Bool) : State :=
  let l := f.chans.filterMap fun x => x.dep.map fun d =>
    ((⟨f.stoke - 1, 24 * f.dev.val + x.ch.val, d.1, d.2.1.toNat, d.2.2.toNat⟩ : Deposit), inMap d.2.1 d.2.2)
  let ok := (l.filter (·.2)).map (·.1)
  if f.compat then s
  else if f.emCfg ≠ s.emDigest ∨ s.emOn = false then s.addCnt (emReg Reg.EM_DISCARD_CNT) l.length
  else
    let s := { s with em := { s.em with due := s.em.due ++ ok } }
    if late && !ok.isEmpty then
      (s.addCnt (emReg Reg.EM_LATE_CNT) ok.length).setBits (emReg Reg.EM_STATUS) 8#32
    else s

/-- The guard's part of a frame: paths for the pin stoke after the frame's, and plans committed at its beginning. -/
def State.frameGuard (s : State) (f : GangFrame) (k : Nat) : State :=
  let s := f.chans.foldl (fun (s : State) x => s.gdPath (24 * f.dev.val + x.ch.val) (f.stoke + 1) x.path x.emits) s
  f.plans.foldl (fun (s : State) (p : FramePlan) =>
    if p.pub then s.planPut ⟨24 * f.dev.val + p.ch.val, p.slot, p.path, stokeNear k (toW p.start), p.n, f.stoke - 1, p.id, false, false⟩
    else s.planDrop (24 * f.dev.val + p.ch.val) p.slot) s

/-- Trails of a member that returns after a gap close in the stoke of its return (R221). -/
def State.frameResume (s : State) (d : Fin 4) (k : Nat) : State :=
  { s with gd := { s.gd with trails := s.gd.trails.map fun t => if devOf t.g = d ∧ t.isOpen = true then { t with isOpen := false, b1 := max t.b1 k } else t } }

/-- One frame is merged at the boundary that ends stoke `k`. -/
def State.frameMerge (s : State) (k : Nat) (f : GangFrame) : State :=
  let d := f.dev
  let m := s.gm.dev[d]
  let late := decide (f.stoke < k)
  if m.heard ∧ f.stoke ≤ m.last ∧ !m.missing.contains f.stoke then s
  else
    let gap := m.heard && decide (m.last + 1 < f.stoke)
    let s := s.frameDeps f late
    let s : State := if f.compat then s else s.emMismatch d (f.emCfg == s.emDigest)
    let s := s.modMember d fun m => { m with heard := true, last := max m.last f.stoke, missing := m.missing.filter (· != f.stoke),
                                             gdSame := f.compat || f.gdCfg == s.gdDigest, compat := f.compat }
    let s : State := if gap then s.frameResume d k else s
    let s := s.frameGuard f k
    f.chans.foldl (fun (s : State) (x : FrameCh) => match x.arr with
      | some a => s.syncLearn (24 * d.val + x.ch.val) a.1 a.2
      | none => s) s

/-- The frames that came before the reserved window are merged; the others wait for the next boundary (R383). -/
def State.framesMerge (s : State) (k : Nat) : State :=
  let l := s.gm.frames
  let s := { s with gm := { s.gm with frames := (l.filter fun x => !x.2).map fun x => (x.1, true) } }
  (l.filter (·.2)).foldl (fun (s : State) (x : GangFrame × Bool) => s.frameMerge k x.1) s

/-- Frames of a member that have been missing for 64 stokes at the end of stoke `k` are lost (R208). -/
def State.frameLost (s : State) (k : Nat) (d : Fin 4) : State :=
  let l := s.gm.dev[d].missing
  let s := s.modMember d fun m => { m with missing := l.filter fun f => decide (k < f + 64) }
  (l.filter fun f => decide (f + 64 ≤ k)).foldl (fun (s : State) (f : Nat) =>
    let s := (s.bump (emReg Reg.EM_GAP_CNT)).setBits (emReg Reg.EM_STATUS) 16#32
    let n := s.freshWord
    n.2.logEvent 0xC5 d.val 2 (f % 4294967296) n.1.toNat) s

/-- Frames that are missing at the boundary that ends stoke `k`, and those lost after 64 stokes (R208). -/
def State.frameMiss (s : State) (k : Nat) (d : Fin 4) : State :=
  let m := s.gm.dev[d]
  if !m.heard || m.compat then s
  else
    (s.modMember d fun m => { m with missing := if m.last < k then k :: m.missing else m.missing }).frameLost k d

/-- The guard becomes incomplete or mismatched, or ceases to be: logged (R221). -/
def State.gdStates (s : State) (k : Nat) : State :=
  let inc := all4.any fun (d : Fin 4) => s.memberMissing d k
  let mm := all4.any fun (d : Fin 4) => s.gm.dev[d].heard && !s.gm.dev[d].gdSame
  let was := (s.gd.incomplete, s.gd.mismatch)
  let old := s.gdStatus
  let s := { s with gd := { s.gd with incomplete := inc, mismatch := mm } }
  let s : State := if inc then s.setBits (emReg Reg.GD_STATUS) 4#32 else s
  if (inc, mm) = was then s else s.logEvent 0xC4 0 4 old s.gdStatus

/-- PLAN_STATE. -/
def State.planState (s : State) (c : Ch) : Nat :=
  let g := 24 * s.devNum + c.val
  let r := s.gd.refused[c]
  let one (slot : Fin 2) (rf : Bool) : Nat :=
    match s.gd.plans.find? (fun x => x.g == g && x.slot == slot) with
    | some p => 1 + bitAt p.settled 1 + bitAt p.contested 2 + bitAt rf 3
    | none => bitAt rf 3
  one 0 r.1 + one 1 r.2 * 256

/-- The guard ports that are read-only (R222). -/
def State.gdRead (s : State) (c : Ch) (o : Nat) : Option Word :=
  if o = Reg.PLAN_STATE then some (toW (s.planState c))
  else if o = Reg.GD_VIOL then some (toW (s.gd.viol[c]).word)
  else if o = Reg.GD_PSTATE then some (toW (bitAt (bit (s.reg (emReg Reg.GD_CFG)) 0) 0 + bitAt s.gd.incomplete 1 + bitAt s.gd.mismatch 2))
  else none

/-! The boundary. -/

/-- The played level through one stoke's edges: on at some moment, and at the end. -/
def edgeLevels (e : Edges) (lv ok : Bool) : Bool × Bool :=
  let on := e.on.isSome && e.layer && ok && e.on != e.off
  match e.on, e.off with
  | some a, some b => (lv || on, decide (b < a) && on)
  | none, some b => (lv && b != 0, false)
  | _, none => (lv || on, lv || on)

/-- A latching mask that the boundary already knows of will be in force in the stoke after the one that begins (R163). -/
def State.lasWillLatch (s : State) (c : Ch) : Bool :=
  let l := s.las[c]
  l.lNext || l.fNext || l.fNow || l.cut || l.arm != .armed || !s.ch[c].running || s.killed

/-- At the end of a boundary: the point of the pin stoke after the next, and whether it will emit, become known (R213, R214). -/
def State.gdLocal (s : State) (c : Ch) (k : Nat) : State :=
  let l := s.las[c]
  let later := !s.lasWillLatch c
  let e1 := edgeLevels l.play l.level (!s.lasLatched c)
  let e2 := edgeLevels l.held (e1.2 && later) later
  let p := s.platePoint c
  let u := s.em.ch[c]
  let a := nthD u.pts 0 p
  let r := ((s.areg c 0 Reg.SV_SET).toInt, (s.areg c 1 Reg.SV_SET).toInt)
  let s := s.modEm c fun u => { u with pts := (p :: u.pts).take 4, raw := (r :: u.raw).take 4, emNext := e2.1 }
  s.gdPath (24 * s.devNum + c.val) (k + 2) ⟨a.1, a.2, p.1, p.2⟩ e2.1

/-- The gang frame of the stoke that begins, as its member forms it. -/
def State.gangFrame (s : State) (k : Nat) : GangFrame :=
  { dev := ⟨s.devNum % 4, Nat.mod_lt _ (by decide)⟩, stoke := k, compat := false, emCfg := s.emDigest, gdCfg := s.gdDigest,
    chans := all24.map fun (c : Ch) =>
      let g := 24 * s.devNum + c.val
      { ch := c
        dep := (s.em.own.find? fun d => d.g == g).map fun d => (d.q, (d.i : Int), (d.j : Int))
        path := (let u := s.em.ch[c]; let a := nthD u.pts 1 (0, 0); let b := nthD u.pts 0 (0, 0); ⟨a.1, a.2, b.1, b.2⟩)
        emits := s.em.ch[c].emNext
        arr := if s.sync[c].waiting && s.sync[c].arr + 1 == k then some (s.sync[c].arrId, s.sync[c].arr) else none }
    plans := s.gd.sent }

end Sys2Proof.Machine
end

