-- ==== Sys2Proof/Machine/Calib.lean ====
section
/-! DEFINITION. Live calibration: samples, rounds, decisions, ramps (R250–R269). -/

namespace Sys2Proof.Machine
open Sys2Proof

/-! The estimators: number 0–4 of a channel, 5 of a pipeline. -/

/-- One estimator. -/
def State.est (s : State) (n : Fin 6) (i : Fin 24) : Est := if h : n.val < 5 then s.cal[i].est[n.val] else s.camEst[i]
/-- Change a channel's calibration. -/
def State.modCal (s : State) (c : Ch) (f : CalCh → CalCh) : State := { s with cal := s.cal.set c.val (f s.cal[c]) c.isLt }
/-- Change one estimator. -/
def State.modEst (s : State) (n : Fin 6) (i : Fin 24) (f : Est → Est) : State :=
  if h : n.val < 5 then s.modCal i fun u => { u with est := u.est.set n.val (f u.est[n.val]) h }
  else { s with camEst := s.camEst.set i.val (f s.camEst[i]) i.isLt }
/-- The base of an estimator's registers. -/
def estBase (n : Fin 6) (i : Fin 24) : Nat := if n = 5 then camReg i 0x300 else chReg i (0xE000 + 0x80 * n.val)
/-- A parameter as it stood at the entry into COLLECT. -/
def Est.p (e : Est) (o : Nat) : Word := nthD e.par (o / 4) 0#32
/-- A parameter in force: as it stood at the last entry into COLLECT (R255), or the register's where the estimator has not been in COLLECT
since it was enabled. -/
def State.estPar (s : State) (n : Fin 6) (i : Fin 24) (o : Nat) : Word :=
  if (s.est n i).par = [] then s.reg (estBase n i + o) else (s.est n i).p o
/-- The servo axis of estimators 1–3. -/
def estAxis (n : Fin 6) : Ax := ⟨(n.val + 2) % 3, Nat.mod_lt _ (by decide)⟩

/-- The addresses of the targets that an estimator feeds. -/
def estTargets (n : Fin 6) (i : Fin 24) : List Nat :=
  if n = 0 then [chReg i Reg.DARK_E_TGT, chReg i Reg.DARK_B_TGT]
  else if n = 4 then [chReg i Reg.TRIM_DX_TGT, chReg i Reg.TRIM_DY_TGT, chReg i Reg.TRIM_ROT_TGT, chReg i Reg.TRIM_SCALE_TGT]
  else if n = 5 then [camReg i Reg.CAMD_TGT]
  else [axReg i (estAxis n) Reg.SV_PD_OFFSET_TGT, axReg i (estAxis n) Reg.SV_PD_GAIN_TGT]
/-- The targets are binary32: both dark offsets, and the detector gain. -/
def estIsF (n : Fin 6) (k : Nat) : Bool := n == 0 || (n != 4 && n != 5 && k == 1)
/-- The exact value of a target register. -/
def estVal (n : Fin 6) (k : Nat) (w : Word) : Q := if estIsF n k then qOfF w else if n = 5 then Q.ofInt w.toNat else Q.ofInt w.toInt

/-- STATE of R251. -/
def EstState.code : EstState → Nat
  | .off => 0
  | .idle => 1
  | .collect => 2
  | .evaluate => 3
  | .ramp => 4
/-- STALE. -/
def Est.stale (e : Est) : Bool := e.st == .collect || e.st == .evaluate
/-- EST_STATUS. -/
def Est.status (e : Est) : Nat :=
  e.st.code + bitAt e.stale 3 + bitAt (e.st == .ramp) 4 + bitAt e.stuck 5 + e.last * 64 + e.cause * 256 + min e.rejRun 255 * 65536

/-! Samples. -/

/-- The gate of every local channel was low throughout the stoke that ends. -/
def State.allQuiet (s : State) : Bool := all24.all fun (c : Ch) => s.las[c].onLast == 0
/-- The stoke that ends is a stoke of a dark run, with QUIET as given. -/
def State.darkStoke (s : State) (c : Ch) (quiet : Bool) : Bool := s.las[c].onLast == 0 && (!quiet || s.allQuiet)

/-- A sample of the round. -/
def State.estAdd (s : State) (n : Fin 6) (i : Fin 24) (x : List Q) : State := s.modEst n i fun e => { e with xs := x :: e.xs }

/-- R256, R257: the dark run of a channel takes the stoke that ends, with its photodiode means. A pause keeps the run's held samples. -/
def State.darkSample (s : State) (c : Ch) (pe pb : PdStat) : State :=
  let e := s.est 0 c
  if !s.darkStoke c (bit (s.estPar 0 c 0) 2) then s.modCal c fun u => { u with run := 0, held := [] }
  else
    let i := s.cal[c].run + 1
    let cfg := e.p 0x50
    let s := s.modCal c fun u => { u with run := i }
    if e.st ≠ .collect then s.modCal c fun u => { u with held := [] }
    else if s.ch[c].running = false ∨ s.inFault c = true then s
    else
      let h := s.cal[c].held ++ (if fld cfg 0 4 < i ∧ pe.valid = true ∧ pb.valid = true then [[Q.ofInt pe.mean, Q.ofInt pb.mean]] else [])
      if i < fld cfg 8 8 then s.modCal c fun u => { u with held := h }
      else (h.foldl (fun (s : State) x => s.estAdd 0 c x) s).modCal c fun u => { u with held := [] }

/-- R259: an axis may yield a sample at the boundary that ends its stoke. `ran` says that it was in RUN during the stoke, `ok` that the stoke
carries no invalid flag of R176 (R256). -/
def State.revSample (s : State) (c : Ch) (a : Ax) (ran ok : Bool) : State :=
  let n : Fin 6 := ⟨a.val + 1, by omega⟩
  let x := s.sv[c].ax[a]
  let v := x.vPrev
  let zero := fcmp v fzero == some .eq
  let neg := flt v fzero
  let last := s.cal[c].lastV[a]
  let s : State := if zero ∨ ran = false then s else s.modCal c fun u => { u with lastV := u.lastV.set a.val (some neg) a.isLt }
  let e := s.est n c
  if e.st = .collect ∧ ran = true ∧ zero = false ∧ last = some (!neg) ∧ fle (fabs x.ePrev) (fOfInt (fld (e.p 0x40) 0 20)) = true
      ∧ ok = true then
    let h := fadd (fadd (fmul (s.areg c a Reg.SV_KP) x.ePrev) x.i) x.dd
    if fFinite h && fFinite x.y then
      s.estAdd n c [((qOfF h).sub (qOfF (e.p 0x4C))).div (qOfF (e.p 0x48)), qOfF x.y]
    else s.estAdd n c []
  else s

/-! Crossings (R261, R262). -/

/-- A rational as binary64, nearest. -/
def dOfQ (q : Q) : D64 := q.toD
/-- The exact value of a finite binary64. -/
def qOfD (x : D64) : Q :=
  match f64 x with
  | .fin s m e =>
    let v : Int := if s then -(m : Int) else m
    if 0 ≤ e then ⟨v * 2 ^ e.toNat, 1⟩ else Q.mk' v (2 ^ (-e).toNat)
  | _ => ⟨0, 1⟩

/-- The fraction of a path at which it crosses a seam, whose ends are in 1/256 field unit. -/
def crossAt (p : GPath) (x0 y0 x1 y1 : Int) : Option Q :=
  let dx := x1 - x0
  let dy := y1 - y0
  let px := p.x1 - p.x0
  let py := p.y1 - p.y0
  let cr := px * dy - py * dx
  let l := (x0 - p.x0) * dy - (y0 - p.y0) * dx
  let m := (x0 - p.x0) * py - (y0 - p.y0) * px
  let sg := cr.sign
  if cr = 0 then none
  else if 0 ≤ l * sg ∧ l * sg < cr * sg ∧ 0 ≤ m * sg ∧ m * sg ≤ cr * sg then some (Q.mk' (l * sg) cr.natAbs) else none

/-- The first crossing of a path among the enabled seams: its fraction and the seam (R261). -/
def State.firstCross (s : State) (c : Ch) (p : GPath) : Option (Q × Nat) :=
  (List.range 32).foldl (fun (a : Option (Q × Nat)) i =>
    let r (o : Nat) : Word := s.creg c (Reg.SEAM_X0 + 32 * i + o)
    let cfg := r 0x10
    if bit cfg 0 && fld cfg 8 7 != 24 * s.devNum + c.val then
      match crossAt p (256 * (r 0).toInt) (256 * (r 4).toInt) (256 * (r 8).toInt) (256 * (r 12).toInt), a with
      | some q, none => some (q, i)
      | some q, some b => if q.lt b.1 then some (q, i) else a
      | none, _ => a
    else a) none

/-- A counter of estimator 4. -/
def State.xBump (s : State) (c : Ch) (o : Nat) : State := s.bump (chReg c o)

/-- R261: the path of the pin stoke that ends is tested, and a crossing begins to wait for its window. -/
def State.xingFind (s : State) (c : Ch) (k : Nat) : State :=
  let e := s.est 4 c
  let u := s.em.ch[c]
  if e.st ≠ .collect ∨ s.las[c].lit = false ∨ s.ch[c].running = false ∨ s.inFault c = true then s
  else
    let a := nthD u.pts 2 (0, 0)
    let b := nthD u.pts 1 (0, 0)
    match s.firstCross c ⟨a.1, a.2, b.1, b.2⟩ with
    | none => s
    | some (la, i) =>
      let r (o : Nat) : Int := (s.creg c (Reg.SEAM_X0 + 32 * i + o)).toInt
      let dx := r 8 - r 0
      let dy := r 12 - r 4
      let px := b.1 - a.1
      let py := b.2 - a.2
      let dot := dx * py - dy * px
      let len := qSqrt (Q.ofInt (dx * dx + dy * dy))
      if dot * dot < 65536 * (dx * dx + dy * dy) then s.xBump c Reg.XING_MISS_CNT
      else
        let sg := dot.sign
        let cyc := s.stokeCyc
        let te := ((Q.ofInt (k * cyc : Nat)).add (la.scale cyc 1)).add (Q.ofInt (fld (e.p 0x44) 0 20 : Nat))
        let mid := (te.scale 1 250).rne.toNat
        let w := fld (e.p 0x40) 8 7
        let r0 := nthD u.raw 2 (0, 0)
        let r1 := nthD u.raw 1 (0, 0)
        let at_ (v0 v1 : Int) : Q := (Q.ofInt v0).add (la.mul (Q.ofInt (v1 - v0)))
        let x : Xing := ⟨dOfQ ((Q.ofInt (-dy * sg)).div len), dOfQ ((Q.ofInt (dx * sg)).div len),
                         dOfQ ((Q.mk' (dot * sg) 256).div len), at_ r0.1 r1.1, at_ r0.2 r1.2, te, mid⟩
        if s.cal[c].pend.any fun y => decide (y.mid ≤ mid + 2 * w) && decide (mid ≤ y.mid + 2 * w) then s.xBump c Reg.XING_MISS_CNT
        else s.modCal c fun v => { v with pend := v.pend ++ [x] }

/-- The PD_E samples of the stoke that ends, with whether the stoke was emitting with PD_E valid, are kept for windows to come. -/
def State.pdKeep (s : State) (c : Ch) (k : Nat) (xs : List (Nat × Bool)) (ok : Bool) : State :=
  let i0 := (k * s.stokeCyc + 249) / 250
  let l := (xs.zipIdx.map fun x => (i0 + x.2, x.1.1)).reverse
  s.modCal c fun u => { u with pd := (l ++ u.pd).take 320, ok := ((k, ok) :: u.ok).take 16 }

/-- The samples of a window, oldest first, if every one is at hand and every stoke that it touches was emitting with PD_E valid. -/
def State.xingWindow (s : State) (c : Ch) (x : Xing) (w : Nat) : Option (List (Nat × Nat)) :=
  let u := s.cal[c]
  let l := (u.pd.filter fun y => decide (x.mid ≤ y.1 + w) && decide (y.1 ≤ x.mid + w)).reverse
  let k0 := (x.mid - w) * 250 / s.stokeCyc
  let k1 := (x.mid + w) * 250 / s.stokeCyc
  let good := (List.range (k1 + 1 - k0)).all fun d => u.ok.contains (k0 + d, true)
  if l.length = 2 * w + 1 ∧ good = true ∧ w ≤ x.mid then some l else none

/-- R262: the crossing is evaluated once its window has arrived. -/
def State.xingEval (s : State) (c : Ch) (x : Xing) : State :=
  let e := s.est 4 c
  let w := fld (e.p 0x40) 8 7
  let s := s.modCal c fun u => { u with pend := u.pend.filter fun y => y != x }
  match s.xingWindow c x w with
  | none => s.xBump c Reg.XING_MISS_CNT
  | some l =>
    let ends := l.take 4 ++ l.drop (2 * w - 3)
    let b := Q.mk' (ends.foldl (fun a y => a + y.2) 0 : Nat) 8
    let thr := qOfF (e.p 0x48)
    let ws := l.map fun y => let d := ((Q.ofInt (y.2 : Nat)).sub b).abs; (if thr.lt d then d else ⟨0, 1⟩, y.1)
    let sw := ws.foldl (fun (a : Q) y => a.add y.1) ⟨0, 1⟩
    if sw.lt (qOfF (e.p 0x4C)) ∨ sw.num = 0 then s.xBump c Reg.XING_MISS_CNT
    else
      let t0 := (ws.foldl (fun (a : Q) y => a.add (y.1.scale (250 * y.2) 1)) ⟨0, 1⟩).div sw
      let delta := ((qOfD x.vn).mul (x.te.sub t0)).scale 1 s.stokeCyc
      if (Q.ofInt (fld (e.p 0x50) 0 16 : Nat)).lt delta.abs then s.xBump c Reg.XING_OUTLIER_CNT
      else if 1024 ≤ e.xs.length then s
      else (s.xBump c Reg.XING_CNT).estAdd 4 c [qOfD x.mx, qOfD x.my, x.px, x.py, delta]

/-- The crossings whose last sample has arrived by the end of stoke k. -/
def State.xingDue (s : State) (c : Ch) (k : Nat) : List Xing :=
  s.cal[c].pend.filter fun x => decide ((x.mid + fld ((s.est 4 c).p 0x40) 8 7) * 250 < (k + 1) * s.stokeCyc)
/-- They are evaluated in COLLECT; a round that has left it takes no observation more. -/
def State.xingStep (s : State) (c : Ch) (k : Nat) : State :=
  if (s.est 4 c).st = .collect then (s.xingDue c k).foldl (fun (s : State) x => s.xingEval c x) s
  else s.modCal c fun u => { u with pend := [] }

/-- R264: the sets that closed in the stoke that ends yield their samples; the exposure windows in progress take the stoke. `ok` gives for each
channel that the stoke carries no invalid flag of R176 (R256). -/
def State.camDarkStep (s : State) (m : Cam) (ok : Ch → Bool) : State :=
  let l := s.cam[m].dark
  let s := s.modCam m fun c => { c with dark := [] }
  match s.camCh m with
  | none => s
  | some c =>
    let d := s.darkStoke c (bit (s.estPar 5 m 0) 2)
    let k := s.time.cnt
    let mark (o : CamOpen) : CamOpen := if o.fell.isNone ∨ o.fell = some k then { o with dark := o.dark && d } else o
    let strip (x : CamStrip) : CamStrip := { x with dark := x.dark && (!x.reach || d), reach := false }
    let s := s.modCam m fun u => { u with opens := u.opens.map mark, strip := u.strip.map strip }
    if (s.est 5 m).st = .collect ∧ s.cam[m].st = .run ∧ ok c = true then
      l.foldl (fun (s : State) x => if !x.2 || d then s.estAdd 5 m [x.1] else s) s
    else s

/-! Results (R253, R258, R260, R263, R264). -/

/-- What an evaluation gives: outputs as register words with their exact values, what the record shows as NEW, the spread, and the
first condition of the estimator's own that fails. -/
structure Result where
  outs : List (Option (Word × Q))
  new : List Word
  spread : Option Q
  own : Nat
  deriving DecidableEq, Repr

/-- Sum of one component over the samples. -/
def sumQ (xs : List (List Q)) (f : List Q → Q) : Q := xs.foldl (fun (a : Q) x => a.add (f x)) ⟨0, 1⟩
/-- Component k of a sample. -/
def nthQ (x : List Q) (k : Nat) : Q := nthD x k ⟨0, 1⟩
/-- Mean and population standard deviation of one component. -/
def meanDev (xs : List (List Q)) (k : Nat) : Q × Q :=
  let n := max xs.length 1
  let m := (sumQ xs fun x => nthQ x k).scale 1 n
  (m, qSqrt ((sumQ xs fun x => let d := (nthQ x k).sub m; d.mul d).scale 1 n))
/-- The larger of two values. -/
def qMax (a b : Q) : Q := if a.lt b then b else a

/-- A matrix without row 0 and column j. -/
def minorOf (m : List (List Q)) (j : Nat) : List (List Q) := m.tail.map fun r => r.eraseIdx j
/-- The determinant, by the first row; the fuel is the size. -/
def detQ : Nat → List (List Q) → Q
  | 0, _ => ⟨1, 1⟩
  | n + 1, m =>
    (List.range (n + 1)).foldl (fun (a : Q) j =>
      let t := (nthQ (m.headD []) j).mul (detQ n (minorOf m j))
      if j % 2 = 0 then a.add t else a.sub t) ⟨0, 1⟩
/-- The principal submatrix on the indices where a bit of `b` is set. -/
def principal (m : List (List Q)) (b : Nat) : List (List Q) :=
  let ix := (List.range m.length).filter b.testBit
  ix.map fun i => ix.map fun j => nthQ (nthD m i []) j
/-- No principal minor is negative: the matrix is positive semidefinite. -/
def isPsd (m : List (List Q)) : Bool := (List.range (2 ^ m.length)).all fun b => let p := principal m b; decide (0 ≤ (detQ p.length p).num)

/-- The dark offsets (R258), and the camera dark level (R264). -/
def darkResult (e : Est) (n : Fin 6) : Result :=
  let a := meanDev e.xs 0
  if n = 5 then
    let v := a.1.rne
    ⟨[some (toW (v.toNat % 16777216), Q.ofInt v)], [a.1.toF], some a.2, 0⟩
  else
    let b := meanDev e.xs 1
    ⟨[some (a.1.toF, qOfF a.1.toF), some (b.1.toF, qOfF b.1.toF)], [a.1.toF, b.1.toF], some (qMax a.2 b.2), 0⟩

/-- The span of one component. -/
def spanQ (xs : List (List Q)) (k : Nat) : Q :=
  match xs with
  | [] => ⟨0, 1⟩
  | x :: r =>
    let m := r.foldl (fun (a : Q × Q) y => let v := nthQ y k; (if v.lt a.1 then v else a.1, qMax a.2 v)) (nthQ x k, nthQ x k)
    m.2.sub m.1

/-- The detector fit (R260). -/
def detResult (e : Est) : Result :=
  let n := e.xs.length
  let x (v : List Q) := nthQ v 0
  let y (v : List Q) := nthQ v 1
  let sx := sumQ e.xs x
  let sy := sumQ e.xs y
  let den := ((sumQ e.xs fun v => (x v).mul (x v)).scale n 1).sub (sx.mul sx)
  let span := if (spanQ e.xs 1).lt (Q.ofInt (fld (e.p 0x44) 0 20 : Nat)) then 4 else 0
  let inf : Word := 0x7F800000#32
  if e.xs.any (·.isEmpty) ∨ den.num = 0 then ⟨[none, none], [0, 0, 0, 0], none, span⟩
  else
    let g := (((sumQ e.xs fun v => (x v).mul (y v)).scale n 1).sub (sx.mul sy)).div den
    let o := (sy.sub (g.mul sx)).scale 1 n
    let res := qSqrt ((sumQ e.xs fun v => let d := ((y v).sub (g.mul (x v))).sub o; d.mul d).scale 1 n)
    let gain := nthQ e.appl 1
    let off := ((nthQ e.appl 0).add (o.div gain)).rne
    let gn := if g.num = 0 then inf else (gain.div g).toF
    let outs := [if gain.num = 0 then none else some (intW off, Q.ofInt off), if fFinite gn then some (gn, qOfF gn) else none]
    ⟨outs, [if gain.num = 0 then inf else fOfInt off, gn, g.toF, o.toF], some res, span⟩

/-- The registration fit (R263). Unfitted outputs are not produced: they keep their targets. -/
def regResult (e : Est) : Result :=
  let n := e.xs.length
  let fit := fld (e.p 0x40) 0 2
  let dim := fit + 2
  let row (v : List Q) : List Q :=
    let mx := nthQ v 0
    let my := nthQ v 1
    let px := (nthQ v 2).scale 1 1048576
    let py := (nthQ v 3).scale 1 1048576
    [mx, my, (my.mul px).sub (mx.mul py), (mx.mul px).add (my.mul py)].take dim
  let ix := List.range dim
  let m := ix.map fun i => ix.map fun j => sumQ e.xs fun v => (nthQ (row v) i).mul (nthQ (row v) j)
  let b := ix.map fun i => sumQ e.xs fun v => (nthQ (row v) i).mul (nthQ v 4)
  let c := qOfF (e.p 0x54)
  let sh := ix.map fun i => ix.map fun j => let q := (nthQ (nthD m i []) j).scale 1 (max n 1); if i = j then q.sub c else q
  let own := if isPsd sh then 0 else 5
  let d := detQ dim m
  if d.num = 0 then ⟨[none], [0, 0, 0, 0], none, own⟩
  else
    let sol := ix.map fun k => (detQ dim (ix.map fun i => ix.map fun j => if j = k then nthQ b i else nthQ (nthD m i []) j)).div d
    let res := qSqrt ((sumQ e.xs fun v =>
      let r := (ix.foldl (fun (a : Q) i => a.add ((nthQ (row v) i).mul (nthQ sol i))) ⟨0, 1⟩).sub (nthQ v 4); r.mul r).scale 1 (max n 1))
    let old (k : Nat) : Int := (nthD e.old k 0#32).toInt
    let ch (k : Nat) : Int :=
      if k < 2 then ((nthQ sol k).scale 256 1).rne else if k < dim then ((nthQ sol k).scale 1000000000 1048576).rne else 0
    let v := (List.range 4).map fun k => old k - ch k
    ⟨(v.take dim).map fun x => some (intW x, Q.ofInt x), v.map fOfInt, some res, own⟩

/-- The result of an estimator. -/
def estResult (e : Est) (n : Fin 6) : Result :=
  if n = 4 then regResult e else if n = 0 ∨ n = 5 then darkResult e n else detResult e

/-- A quotient's distance from one is above a bound. -/
def gainStep (new old bound : Q) : Bool := if old.num = 0 then true else bound.lt ((new.div old).sub ⟨1, 1⟩).abs

/-- Output k is outside its result window; differs from its old target by more than its step window. -/
def outBad (e : Est) (n : Fin 6) (k : Nat) (v old : Q) : Bool × Bool :=
  let i (o w : Nat) : Q := Q.ofInt (fld (e.p o) 0 w : Nat)
  let d := (v.sub old).abs
  if n = 0 then (v.lt ⟨0, 1⟩ || (qOfF (e.p 0x54)).lt v, (qOfF (e.p 0x58)).lt d)
  else if n = 5 then (v.lt ⟨0, 1⟩ || (i 0x48 24).lt v, (i 0x4C 24).lt d)
  else if n = 4 then
    if k < 2 then ((i 0x58 24).scale 256 1 |>.lt v.abs, (i 0x5C 16).scale 256 1 |>.lt d)
    else if k = 2 then ((Q.ofInt 10000000).lt v.abs, (i 0x60 24).lt d)
    else ((Q.ofInt 1000000).lt v.abs, (i 0x64 24).lt d)
  else if k = 0 then ((i 0x50 20).lt v.abs, (i 0x54 20).lt d)
  else (v.lt ⟨1, 2⟩ || (Q.ofInt 2).lt v, gainStep v old (qOfF (e.p 0x58)))

/-- The first failing check in the order of R267; 0 accepts. `ecc` is an uncorrectable error in the working store (R255). -/
def estCause (e : Est) (n : Fin 6) (ecc : Bool) (r : Result) : Nat :=
  let pairs := (r.outs.zip e.old).zipIdx
  let bad (f : Bool × Bool → Bool) : Bool := pairs.any fun x => match x.1.1 with
    | some o => f (outBad e n x.2 o.2 (estVal n x.2 x.1.2))
    | none => false
  if r.outs.any (·.isNone) then 6
  else if ecc then 7
  else if r.own ≠ 0 then r.own
  else if match r.spread with | some q => (qOfF (e.p 0x18)).lt q | none => false then 3
  else if bad (·.1) then 1
  else if bad (·.2) then 2
  else 0

/-! Rounds (R251–R255). -/

/-- R268: a calibration record. -/
def State.calRecord (s : State) (n : Fin 6) (i : Fin 24) (kind cause rampN : Nat) (cnt : Nat) (spread : Word) (old new : List Word) : State :=
  let fit (l : List Word) : List Byte := ((l ++ List.replicate 4 0#32).take 4).flatMap bytesLE
  s.emitRole 9 0 fun _ =>
    [b8 kind, b8 n.val, b8 cause, b8 s.devNum, b8 i.val, 0#8] ++ b16 (min rampN 65535) ++ bytesLE s.stoke32 ++ b32 (s.tai.2 / 4)
      ++ bytesOfNatLE 8 s.tai.1 ++ b32 cnt ++ bytesLE spread ++ fit old ++ fit new

/-- The targets of an estimator as OLD slots. -/
def oldWords (n : Fin 6) (l : List Word) : List Word := l.zipIdx.map fun x => if estIsF n x.2 then x.1 else (estVal n x.2 x.1).toF

/-- The interrupt source and instance of an estimator's events (R471). -/
def estSrc (n : Fin 6) (i : Fin 24) : Nat × Nat := if n = 5 then (0x98 + i.val, 5) else (0x80 + i.val, n.val)

/-- A round begins. -/
def State.estCollect (s : State) (n : Fin 6) (i : Fin 24) : State :=
  let b := estBase n i
  let par := (List.range 28).map fun k => s.reg (b + 4 * k)
  let old := (estTargets n i).map s.reg
  let appl := if n.val = 1 ∨ n.val = 2 ∨ n.val = 3 then
      let x := s.sv[i].ax[estAxis n]
      [x.pdOff.value x.pdM x.pdN, x.pdGain.value x.pdM x.pdN]
    else []
  let s : State := if n = 0 then s.modCal i fun u => { u with held := [] } else if n = 4 then s.modCal i fun u => { u with pend := [] } else s
  s.modEst n i fun e => { e with st := .collect, xs := [], par := par, old := old, appl := appl, start := false }

/-- An abort is recorded and logged (R255, R269). -/
def State.estAborted (s : State) (n : Fin 6) (i : Fin 24) : State :=
  let e := s.est n i
  let s := s.modEst n i fun e => { e with last := 3 }
  let s := s.logEvent (estSrc n i).1 (estSrc n i).2 0x11 0 (s.est n i).status
  s.calRecord n i 3 0 0 e.xs.length 0#32 (oldWords n e.old) []

/-- The count condition (R258, R260, R263, R264). -/
def estReady (e : Est) (n : Fin 6) : Bool :=
  let k := fld (e.p 0x0C) 0 16
  let c := e.xs.length
  if n.val = 1 ∨ n.val = 2 ∨ n.val = 3 then
    decide (k ≤ c) && (!(spanQ e.xs 1).lt (Q.ofInt (fld (e.p 0x44) 0 20 : Nat)) || decide (4 * k ≤ c))
  else decide (k ≤ c)

/-- The targets of an accepted result are written, with their ramps to start (R253, R269). -/
def State.estWrite (s : State) (n : Fin 6) (i : Fin 24) (r : Result) : State :=
  let s := ((estTargets n i).zip r.outs).foldl (fun (s : State) x => match x.2 with
    | some o => s.hwWriteK 0x11 x.1 o.1
    | none => s) s
  if n = 4 then s.modSv i fun v => { v with trimDirty := true }
  else if n = 0 ∨ n = 5 then s.modEst n i fun e => { e with dirty := true }
  else s.modAx i (estAxis n) fun x => { x with pdDirty := true }

/-- N of the ramp that an acceptance starts. -/
def State.estRampN (s : State) (n : Fin 6) (i : Fin 24) : Nat :=
  if n = 4 then (s.trimStart i).sv[i].n
  else if n = 0 ∨ n = 5 then fld ((s.est n i).p 0x14) 0 16
  else ((s.pdStart i (estAxis n)).sv[i].ax[estAxis n]).pdN

/-- The decision of R253, at the boundary that ends the EVALUATE stoke. A host write of a target that an acceptance does not write restarts the
round (R255). -/
def State.estDecide (s : State) (n : Fin 6) (i : Fin 24) : State :=
  let e := s.est n i
  let r := estResult e n
  let (ecc, s) := s.ueMet 5
  let k := estCause e n ecc r
  let sp := match r.spread with | some q => q.toF | none => 0#32
  let s := s.modEst n i fun e => { e with spread := sp }
  let nx := e.xs.length
  let fed := ((estTargets n i).zip r.outs).filterMap fun x => if x.2.isSome then some x.1 else none
  if k = 0 ∧ e.retarget.any (fun a => !fed.contains a) = true then (s.estAborted n i).estCollect n i
  else if k = 0 then
    let s := s.estWrite n i r
    let t := s.tai
    let s := s.modEst n i fun e =>
      { e with st := .ramp, last := 1, rejRun := 0, stuck := false, cal := min (e.cal + 1) 4294967295, lastSec := t.1, lastNs := t.2 / 4, xs := [] }
    s.calRecord n i 1 0 (s.estRampN n i) nx sp (oldWords n e.old) r.new
  else
    let s := s.bump (estBase n i + 0x24)
    let s := s.modEst n i fun e => { e with last := 2, cause := k, rejRun := min (e.rejRun + 1) 255 }
    let s := s.calRecord n i 2 k 0 nx sp (oldWords n e.old) r.new
    let lim := fld (e.p 0) 8 8
    let s := s.logEvent (estSrc n i).1 (estSrc n i).2 0x10 k (s.est n i).status
    if lim ≤ (s.est n i).rejRun then
      let s := s.modEst n i fun e => { e with st := .idle, stuck := true, wait := 0, xs := [] }
      match (if n = 5 then s.camCh i else some i) with
      | some c => s.chCause c 4
      | none => s
    else s.estCollect n i

/-- The ramp of estimators 1–4 is at its end. -/
def State.svRampEnd (s : State) (n : Fin 6) (i : Fin 24) : Bool :=
  if n = 4 then decide (s.sv[i].n ≤ s.sv[i].m) else let x := s.sv[i].ax[estAxis n]; decide (x.pdN ≤ x.pdM)
/-- A target of the estimator has changed at this boundary: a ramp is about to start. -/
def State.estDirty (s : State) (n : Fin 6) (i : Fin 24) : Bool :=
  if n = 0 ∨ n = 5 then (s.est n i).dirty else if n = 4 then s.sv[i].trimDirty else s.sv[i].ax[estAxis n].pdDirty
/-- The applied values equal the targets: RAMP ends (R251). -/
def State.estRampDone (s : State) (n : Fin 6) (i : Fin 24) : Bool :=
  !s.estDirty n i && if n = 0 ∨ n = 5 then let e := s.est n i; decide (e.n ≤ e.m) else s.svRampEnd n i

/-- R254: the ramp of estimators 0 and 5 takes its next stoke, or starts where a target has changed. -/
def State.estRamp (s : State) (n : Fin 6) (i : Fin 24) : State :=
  let e := s.est n i
  if e.dirty then
    let t := (estTargets n i).zipIdx.map fun x => estVal n x.2 (s.reg x.1)
    let len := fld (s.estPar n i 0x14) 0 16
    let run := s.time.running
    s.modEst n i fun e =>
      { e with r0 := ⟨e.r0.value e.m e.n, nthQ t 0⟩, r1 := ⟨e.r1.value e.m e.n, nthQ t 1⟩, m := if run then 1 else 0,
               n := if run then max len 1 else 0, dirty := false }
  else s.modEst n i fun e => { e with m := if e.m < e.n then e.m + 1 else e.m }

/-- One estimator at a boundary (R251, R255). -/
def State.estStep (s : State) (n : Fin 6) (i : Fin 24) : State :=
  let cfg := s.reg (estBase n i)
  let e := s.est n i
  let clear (s : State) : State := s.modEst n i fun e => { e with start := false, abort := false, retarget := [] }
  let s : State :=
    if !bit cfg 0 then s.modEst n i fun e => { e with st := .off, xs := [], par := [] }
    else if e.abort && e.stale then (s.estAborted n i).modEst n i fun e => { e with st := .idle, wait := 0, xs := [] }
    else match e.st with
      | .off => s.modEst n i fun e => { e with st := .idle, wait := 0 }
      | .idle =>
        if e.start || (!bit (s.estPar n i 0) 1 && decide ((s.estPar n i 0x10).toNat ≤ e.wait + 1)) then s.estCollect n i
        else s.modEst n i fun e => { e with wait := e.wait + 1 }
      | .collect =>
        if e.retarget ≠ [] then (s.estAborted n i).estCollect n i
        else if estReady e n then s.modEst n i fun e => { e with st := .evaluate } else s
      | .evaluate => s.estDecide n i
      | .ramp => if s.estRampDone n i then s.modEst n i fun e => { e with st := .idle, wait := 0 } else s
  clear s

/-- The estimator read-only registers, by offset from the base (R266). -/
def State.estRead (s : State) (n : Fin 6) (i : Fin 24) (o : Nat) : Option Word :=
  let e := s.est n i
  match o with
  | 0x08 => some (toW e.status)
  | 0x1C => some (toW e.xs.length)
  | 0x20 => some (toW e.cal)
  | 0x28 => some (lo32 e.lastSec)
  | 0x2C => some (hi32 e.lastSec)
  | 0x30 => some (toW e.lastNs)
  | 0x34 => some e.spread
  | 0x44 => if n = 5 then some (toW (e.r0.value e.m e.n).rne.toNat) else none
  | 0x48 => if n = 0 then some (e.r0.value e.m e.n).toF else none
  | 0x4C => if n = 0 then some (e.r1.value e.m e.n).toF else none
  | _ => none

/-- D_E and D_B applied in the present stoke. -/
def State.darkE (s : State) (c : Ch) : Word := let e := s.est 0 c; (e.r0.value e.m e.n).toF
/-- D_B applied in the present stoke. -/
def State.darkB (s : State) (c : Ch) : Word := let e := s.est 0 c; (e.r1.value e.m e.n).toF

/-- The calibration ports (R265). -/
def State.calPort (s : State) (c : Ch) (p : Nat) : Option Word :=
  let bits (f : Est → Bool) : Nat :=
    (List.range 5).foldl (fun (a : Nat) k => a + bitAt (f (s.est ⟨k % 6, Nat.mod_lt _ (by decide)⟩ c)) k) 0
      + (match s.camOf c with | some m => bitAt (f (s.est 5 m)) 5 | none => 0)
  match p with
  | 0x2E0 => some (toW (bits Est.stale + bits (fun e => e.st == .ramp) * 256 + bits (·.stuck) * 65536))
  | 0x2E1 => some (s.darkE c)
  | 0x2E2 => some (s.darkB c)
  | 0x2E3 => some (match s.camOf c with | some m => toW (s.camDark m).toNat | none => 0#32)
  | 0x2E4 => some (toW (all6.foldl (fun (a : Nat) (k : Fin 6) => if k = 5 then a else a + (s.est k c).cal) 0))
  | _ => none

end Sys2Proof.Machine
end

