-- ==== Sys2Proof/Machine/Image.lean ====
section
/-! DEFINITION. Images: the header, the section table, the signature block and the loader's checks in their order (R98, R102–R105, R434, R437, R472). -/

namespace Sys2Proof.Machine
open Sys2Proof

/-- A section: type, table index, destination, offset and bytes (R103). -/
structure Sec where
  ty : Nat
  idx : Nat
  rsv : Nat
  dest : Nat
  len : Nat
  off : Nat
  data : List Byte
  deriving DecidableEq, Repr

/-- `n` little-endian bytes of an image as a number. -/
def imgF (bs : List Byte) (o n : Nat) : Nat := natLE ((bs.drop o).take n)

/-- One entry of the section table. -/
def secAt (bs : List Byte) (i : Nat) : Sec :=
  let o := 0x80 + 16 * i
  let len := imgF bs (o + 8) 4
  let off := imgF bs (o + 12) 4
  ⟨imgF bs o 1, imgF bs (o + 1) 1, imgF bs (o + 2) 2, imgF bs (o + 4) 4, len, off, (bs.drop off).take len⟩

/-- The sections of an image. -/
def imgSecs (bs : List Byte) : List Sec := (List.range (imgF bs 0x0E 2)).map (secAt bs)

/-- The signature block is present. -/
def imgSigned (bs : List Byte) : Bool := imgF bs 0x2B 1 % 2 == 1
/-- The bytes before the signature block (R104). -/
def imgEnd (bs : List Byte) : Nat := if imgSigned bs then bs.length - 128 else bs.length
/-- The image hash (R104). -/
def imgHash (bs : List Byte) : List Byte := sha256 (bs.take (imgEnd bs))

/-- No two of the half-open ranges meet. -/
def disjoint : List (Nat × Nat) → Bool
  | [] => true
  | (a, b) :: r => r.all (fun p => decide (b ≤ p.1) || decide (p.2 ≤ a) || a == b || p.1 == p.2) && disjoint r

/-- Check 0x01: the header's identity and length. -/
def imgHeadOk (bs : List Byte) (kinds : List Nat) (len : Nat) : Bool :=
  decide (0x80 ≤ bs.length) && imgF bs 0 4 == 0x4B495554 && imgF bs 4 2 == 1 && imgF bs 6 2 == 0x80 && imgF bs 8 4 == len
    && kinds.contains (imgF bs 0x0C 2)

/-- Check 0x03: every reserved field is 0, in the header, the section table and the signature block. DESIGN CHOICE (log 75): the two
fields that R103 fixes at 0 for a type, INDEX of CODE and CONST and DEST of LUT, count as reserved ones. -/
def imgRsvOk (bs : List Byte) : Bool :=
  let kind := imgF bs 0x0C 2
  (((bs.drop 0x48).take 56).all (· == 0#8)) && imgF bs 0x2B 1 / 2 == 0 && imgF bs 0x2A 1 / 16 == 0 && imgF bs 0x36 2 == 0
    && (kind != 3 || (imgF bs 0x10 6 == 0 && imgF bs 0x18 4 == 0 && imgF bs 0x24 6 == 0))
    && ((List.range (min (imgF bs 0x0E 2) 32)).all fun i =>
      decide (bs.length < 0x90 + 16 * i) || (let s := secAt bs i; s.rsv == 0 && (s.ty == 3 || s.idx == 0) && (s.ty != 3 || s.dest == 0)))
    && (!imgSigned bs || decide (bs.length < 0x100) || ((bs.drop (imgEnd bs + 0x68)).all (· == 0#8)))

/-- The section types of each KIND (R103, R106, R434). -/
def kindTypes (kind : Nat) : List Nat := if kind = 1 then [1, 2, 3] else if kind = 2 then [3] else [4, 5]

/-- The three DMEM areas (R98). -/
def imgAreas (bs : List Byte) : List (Nat × Nat) :=
  [(imgF bs 0x18 2, imgF bs 0x18 2 + 4 * imgF bs 0x1A 2), (imgF bs 0x1C 4, imgF bs 0x1C 4 + imgF bs 0x20 4),
   (imgF bs 0x40 4, imgF bs 0x40 4 + imgF bs 0x44 4)]

/-- Check 0x02: sections and areas (R98, R102, R103, R437). DESIGN CHOICE (log 75): the spec gives no code for a TYPE foreign to the
KIND, or for a section that lies over the header or the table; both are 0x02. -/
def imgSecsOk (bs : List Byte) : Bool :=
  let kind := imgF bs 0x0C 2
  let n := imgF bs 0x0E 2
  let end_ := imgEnd bs
  let ss := imgSecs bs
  let cw := imgF bs 0x16 2
  let one (s : Sec) : Bool :=
    (kindTypes kind).contains s.ty && s.off % 4 == 0 && decide (0x80 + 16 * n ≤ s.off) && decide (s.off + s.len ≤ end_)
      && (s.ty != 1 || (s.len % 4 == 0 && decide (s.dest + s.len / 4 ≤ cw)))
      && (s.ty != 2 || (decide (imgF bs 0x1C 4 ≤ s.dest) && decide (s.dest + s.len ≤ imgF bs 0x1C 4 + imgF bs 0x20 4)))
      && (s.ty != 3 || (s.len % 4 == 0 && decide (s.len ≤ 4096) && decide (s.idx ≤ 7)))
      && (s.ty != 5 || s.len % 8 == 0)
  let dests (t : Nat) : List (Nat × Nat) := (ss.filter (·.ty == t)).map fun s =>
    if t = 3 then (s.idx, s.idx + 1) else (s.dest, s.dest + (if t = 1 then s.len / 4 else s.len))
  decide (1 ≤ n ∧ n ≤ 32) && (!imgSigned bs || decide (128 ≤ bs.length)) && decide (0x80 + 16 * n ≤ end_)
    && (kind != 3 || decide (bs.length ≤ 4194304)) && ss.all one && disjoint (ss.map fun s => (s.off, s.off + s.len))
    && disjoint (dests 1) && disjoint (dests 2) && disjoint (dests 3)
    && (kind != 1 || (decide (1 ≤ cw ∧ cw ≤ 8192) && decide (imgF bs 0x10 2 < cw)
      && (imgF bs 0x12 2 == 0xFFFF || decide (imgF bs 0x12 2 < cw)) && (imgF bs 0x14 2 == 0xFFFF || decide (imgF bs 0x14 2 < cw))
      && imgF bs 0x18 2 % 4 == 0 && decide (imgF bs 0x1A 2 ≤ 256) && (imgAreas bs).all (fun a => decide (a.2 ≤ 65536))
      && disjoint (imgAreas bs)))

/-- Checks 0x04, 0x06, 0x05 and 0x08: secure mode, key slot, signature, stepping (R104, R105, R438). -/
def State.imgAdmit (s : State) (bs : List Byte) : Nat :=
  let e := imgEnd bs
  let g (o n : Nat) : List Byte := (bs.drop (e + o)).take n
  let step : Nat := if s.fuse.stepLetter * 256 + s.fuse.stepDigit < imgF bs 0x34 2 then 8 else 0
  if !imgSigned bs then (if s.fuse.secure then 4 else step)
  else
    let slot := natLE (g 6 2)
    if h : slot < 4 then
      match s.fuse.keys[slot]'h with
      | none => 6
      | some k =>
        if s.fuse.revoked[slot]'h || keyHash k != g 8 32 then 6
        else if natLE (g 0 4) ≠ 0x47495354 ∨ natLE (g 4 2) ≠ 1 then 5
        else if ecdsaOk (imgHash bs) k (natBE (g 0x28 32)) (natBE (g 0x48 32)) then step else 5
    else 6

/-- The checks common to every image, in the order of R472; 0 is no refusal. -/
def State.imgCheck (s : State) (bs : List Byte) (kinds : List Nat) (len : Nat) : Nat :=
  if !imgHeadOk bs kinds len then 1 else if !imgRsvOk bs then 3 else if !imgSecsOk bs then 2 else s.imgAdmit bs

/-- R97: check 0x07 of a stoke program. -/
def State.imgWcetOk (s : State) (bs : List Byte) : Bool :=
  imgF bs 0x0C 2 != 1 || (decide (imgF bs 0x26 2 ≤ s.budget) && (imgF bs 0x2A 1).testBit s.rate && decide (imgF bs 0x28 2 ≤ 200))

/-- What is kept of an image's header. -/
def imgMeta (bs : List Byte) : ImgMeta :=
  { hash := imgHash bs, entryStoke := imgF bs 0x10 2, entryLayer := imgF bs 0x12 2, entryFault := imgF bs 0x14 2,
    mirrorBase := imgF bs 0x18 2, mirrorWords := imgF bs 0x1A 2, constBase := imgF bs 0x1C 4, constLen := imgF bs 0x20 4,
    scratchBase := imgF bs 0x40 4, scratchLen := imgF bs 0x44 4, wcetStoke := imgF bs 0x24 2, wcetLayer := imgF bs 0x26 2,
    layoutId := imgF bs 0x2C 4, unsigned := !imgSigned bs, hasLut := (imgSecs bs).any (·.ty == 3),
    consts := ((imgSecs bs).filter (·.ty == 2)).map fun s => (s.dest, s.len) }

/-- The eight tables of an image's LUT sections; a table without a section has LEN 0 (R106). -/
def imgTabs (bs : List Byte) : List (List Word) :=
  (List.range 8).map fun t => match (imgSecs bs).find? (fun s => s.ty == 3 && s.idx == t) with
    | some s => wordsLE s.data
    | none => []

/-- The three areas of an image in use. -/
def ImgMeta.areas (m : ImgMeta) : List (Nat × Nat) :=
  [(m.mirrorBase, m.mirrorBase + 4 * m.mirrorWords), (m.constBase, m.constBase + m.constLen), (m.scratchBase, m.scratchBase + m.scratchLen)]

/-- R106: MIRROR_BASE, MIRROR_WORDS and LAYOUT_ID agree. -/
def ImgMeta.sameLayout (a b : ImgMeta) : Bool :=
  a.mirrorBase == b.mirrorBase && a.mirrorWords == b.mirrorWords && a.layoutId == b.layoutId

end Sys2Proof.Machine
end

