-- ==== Sys2Proof/Machine/Prog.lean ====
section
/-! DEFINITION. The program loader, bank switches, table sets and the mirror window (R98, R99, R105–R107). -/

namespace Sys2Proof.Machine
open Sys2Proof

/-! The mirror window (R98, R99). -/

/-- BAR2 offset of a channel's mirror window, by its active image, in the DMEM that its program works on. -/
def State.mirrorAt (s : State) (c : Ch) : Option (Nat × Nat) :=
  s.ch[c].active.map fun m => (s.dmemOf c + m.mirrorBase, 4 * m.mirrorWords)

/-- The window as it stands. -/
def State.mirrorBytes (s : State) (c : Ch) : List Byte :=
  match s.mirrorAt c with
  | some (a, n) => s.bytes a n
  | none => []

/-- The window is committed. -/
def State.mirrorCommit (s : State) (c : Ch) : State := let b := s.mirrorBytes c; s.modCh c fun x => { x with mirrorSave := b }

/-- Write bytes into the window, filled up or cut to its length. -/
def State.mirrorWrite (s : State) (c : Ch) (bs : List Byte) : State :=
  match s.mirrorAt c with
  | some (a, n) => s.put a ((bs ++ bz n).take n)
  | none => s

/-- The window returns to its last committed contents (R33, R87, R93, R95). -/
def State.mirrorRestore (s : State) (c : Ch) : State := s.mirrorWrite c s.ch[c].mirrorSave
/-- The window is cleared to 0. -/
def State.mirrorClear (s : State) (c : Ch) : State := (s.mirrorWrite c []).mirrorCommit c

/-! The loader (R106). -/

/-- A LOAD, SWITCH or REFUSE entry of a channel's program: hash, and a refusal's code (R105, R405). -/
def State.logImage (s : State) (kind obj : Nat) (hash : List Byte) (code : Option Nat) : State :=
  let s := s.logRun kind obj hash
  match code with
  | some k => s.logPush .hw false obj 0x3F (toW k) 0#32
  | none => s

/-- A refusal of a channel's image. -/
def State.progRefuse (s : State) (c : Ch) (code : Nat) (hash : List Byte) : State :=
  (s.modCh c fun x => { x with load := .refused, refuseCode := code }).logImage 0x0A (chReg c Reg.PROG_CTRL) hash (some code)

/-- PROG_SRC. -/
def State.progSrc (s : State) (c : Ch) : Nat := (s.reg (chReg c Reg.PROG_SRC_LO)).toNat + 4294967296 * (s.reg (chReg c Reg.PROG_SRC_HI)).toNat

/-- The loader fetches for the request at the head of its queue. -/
def State.loadFetch (s : State) : State :=
  match s.loadQ with
  | (_, a, n) :: _ => s.out (.hostRead a n)
  | [] => s

/-- A LOAD takes effect, at its write (R472): queued, or refused while one for the channel is in progress (0x0B). -/
def State.progLoad (s : State) (c : Ch) : State :=
  if s.loadQ.any (·.1 == c) then s.progRefuse c 0x0B (bz 32)
  else
    let first := s.loadQ.isEmpty
    let s := { s with loadQ := s.loadQ ++ [(c, s.progSrc c, (s.reg (chReg c Reg.PROG_LEN)).toNat)] }
    let s := s.modCh c fun x => { x with load := .loading, refuseCode := 0 }
    if first then s.loadFetch else s

/-- A pair has been taken out for a planned swap (R283). -/
def State.pairOut (s : State) (c : Ch) : Bool := (s.cl[clusterOf c].pairs[inCluster c]).st == .out

/-- The ranges meet. -/
def meets (a n lo hi : Nat) : Bool := decide (n ≠ 0) && decide (lo < hi) && decide (a < hi) && decide (lo < a + n)

/-- R472, step 11: a CONST section would overwrite an area of the running image (R106). -/
def State.constClash (s : State) (c : Ch) (m : ImgMeta) : Bool :=
  match s.ch[c].active with
  | some act => s.ch[c].running && !s.pairOut c && m.consts.any fun k => act.areas.any fun a => meets k.1 k.2 a.1 a.2
  | none => false

/-- R472, step 12: another channel's tables wait in the spare set. -/
def State.spareClash (s : State) (c : Ch) (m : ImgMeta) : Bool :=
  m.hasLut && match s.spare with
    | some p => p.owner != c
    | none => false

/-- The first refusal of an image read for a channel, in the order of R472. -/
def State.progCheck (s : State) (c : Ch) (bs : List Byte) (len : Nat) : Nat :=
  let k := s.imgCheck bs [1, 2] len
  if k ≠ 0 then k
  else if !s.imgWcetOk bs then 7
  else
    let m := imgMeta bs
    if imgF bs 0x0C 2 = 1 ∧ s.constClash c m then 9 else if s.spareClash c m then 0x0C else 0

/-- The channel's pending image is gone from the inactive bank (R106, R284). -/
def State.dropPending (s : State) (c : Ch) : State :=
  s.modCh c fun x => if x.waiting then { x with inactive := none, waiting := false } else x

/-- The channel's own pending tables are gone from the spare set (R106). -/
def State.dropTables (s : State) (c : Ch) : State :=
  match s.spare with
  | some p => if p.owner = c then { s with spare := none } else s
  | none => s

/-- The LUT sections of an image are written into the spare table set. -/
def State.lutStore (s : State) (bs : List Byte) : State :=
  (imgSecs bs).foldl (fun (s : State) (x : Sec) => if x.ty = 3 then s.put (lutSetAt 24 + 4096 * (x.idx % 8)) x.data else s) s

/-- A verified image is written: code into the bank that is not active, CONST into DMEM, tables into the spare set. It replaces the
channel's own pending tables and pending image (R106; DEDUCED of a LUT set too, log 76). -/
def State.progInstall (s : State) (c : Ch) (bs : List Byte) : State :=
  let m := imgMeta bs
  let s := (s.dropPending c).dropTables c
  if imgF bs 0x0C 2 = 2 then ({ s with spare := some ⟨c, imgTabs bs, true, m.hash⟩ }).lutStore bs
  else
    let im := imemBase (ownEng c) (!s.ch[c].bankB)
    let s := s.put im (bz (4 * imgF bs 0x16 2))
    let s := (imgSecs bs).foldl (fun (s : State) (x : Sec) =>
      if x.ty = 1 then s.put (im + 4 * x.dest) x.data
      else if x.ty = 2 then s.put (dmemBase (ownEng c) + x.dest) x.data else s) s
    let s := s.modCh c fun x => { x with inactive := some m, waiting := true }
    if m.hasLut then ({ s with spare := some ⟨c, imgTabs bs, false, m.hash⟩ }).lutStore bs else s

/-- The fetch of the request at the head has ended: `none` is a host read error. The next request is fetched. -/
def State.loadDone (s : State) (data : Option (List Byte)) : State :=
  match s.loadQ with
  | [] => s
  | (c, _, len) :: r =>
    let s := { s with loadQ := r }
    let s := match data with
      | none => s.progRefuse c 0x0A (bz 32)
      | some bs =>
        let k := s.progCheck c bs len
        if k ≠ 0 then s.progRefuse c k (imgHash bs)
        else ((s.progInstall c bs).modCh c fun x => { x with load := .loaded, refuseCode := 0 }).logImage 8 (chReg c Reg.PROG_CTRL)
          (imgHash bs) none
    s.loadFetch

/-! Switches (R106). -/

/-- A SWITCH that R106 refuses: no verified image, or another layout under a running program. -/
def State.switchBad (s : State) (c : Ch) : Bool :=
  match s.ch[c].inactive, s.ch[c].active with
  | none, _ => true
  | some n, some a => s.ch[c].running && !n.sameLayout a
  | some _, none => false

/-- The hash of the pending image, or of none. -/
def State.pendingHash (s : State) (c : Ch) : List Byte := match s.ch[c].inactive with
  | some m => m.hash
  | none => bz 32

/-- The pending tables of a channel become active where its image brought them. DESIGN CHOICE (log 76): the tables that they replace
are not kept in the spare set, which is free from then on (R106); a switch back, or a LUT_SWAP with nothing pending, exchanges none. -/
def State.tabSwap (s : State) (c : Ch) (lutSet : Bool) : State :=
  match s.spare with
  | some p => if p.owner = c ∧ p.lutSet = lutSet then
      { ((s.modCh c fun x => { x with luts := p.tabs }).exchange (lutSetAt c.val) (lutSetAt 24) 0x8000) with spare := none } else s
  | none => s

/-- The banks are exchanged, with the table sets where the new image carries LUT sections. -/
def State.bankSwap (s : State) (c : Ch) : State :=
  match s.ch[c].inactive with
  | none => s
  | some m =>
    let next : LoadState := if s.loadQ.any (·.1 == c) then .loading else .idle
    let s := s.modCh c fun x => { x with bankB := !x.bankB, active := some m, inactive := x.active, waiting := false, load := next }
    let s := if m.hasLut then s.tabSwap c false else s
    s.logImage 9 (chReg c Reg.PROG_CTRL) m.hash none

/-- A SWITCH takes effect. DESIGN CHOICE (log 76): NEW_BANK is set for a running channel alone, also where a RUN takes effect at the
same boundary. -/
def State.progSwitch (s : State) (c : Ch) : State :=
  if s.switchBad c then s.progRefuse c 0x09 (s.pendingHash c)
  else (s.bankSwap c).modCh c fun x => { x with newBank := x.newBank || x.running }

/-- A LUT_SWAP takes effect: the tables of a LUT-set image replace all eight. -/
def State.lutSwap (s : State) (c : Ch) : State :=
  match s.spare with
  | some p => if p.owner = c ∧ p.lutSet then (s.tabSwap c true).logImage 9 (chReg c Reg.PROG_CTRL) p.hash none else s
  | none => s

/-! Views (R107). -/

/-- PROG_STATUS.STATE. -/
def LoadState.code : LoadState → Nat
  | .idle => 0
  | .loading => 1
  | .loaded => 2
  | .refused => 3

/-- A SWITCH waits for the boundary. -/
def State.switchPending (s : State) (c : Ch) : Bool := s.staged.any fun w => w.addr == chReg c Reg.PROG_CTRL && bit w.val 1

/-- PROG_STATUS. -/
def State.progStatus (s : State) (c : Ch) : Nat :=
  let x := s.ch[c]
  x.load.code + x.refuseCode * 256 + bitAt (if x.bankB then x.inactive.isSome else x.active.isSome) 16
    + bitAt (if x.bankB then x.active.isSome else x.inactive.isSome) 17 + bitAt x.running 18 + bitAt (s.switchPending c) 19
    + bitAt (match x.active with | some m => m.unsigned | none => false) 20

/-- CH_STATE and LAYER_STATUS (R101). -/
def State.chState (s : State) (c : Ch) : Nat :=
  let x := s.ch[c]
  bitAt x.inLayer 0 + bitAt x.refused 1 + bitAt x.resumed 2 + bitAt x.replay 3 + bitAt (s.covered c) 4 + bitAt x.newBank 5
    + bitAt (s.las[c].arm == .armed) 6 + bitAt x.cleared 7 + x.refCause * 256 + bitAt x.restamped 15

/-- The program and engine registers that are read-only views. -/
def State.progRead (s : State) (c : Ch) (o : Nat) : Option Word :=
  let x := s.ch[c]
  let hashW (m : Option ImgMeta) (i : Nat) : Word := match m with
    | some m => nthD (wordsLE m.hash) i 0#32
    | none => 0#32
  if o = Reg.PROG_STATUS then some (toW (s.progStatus c))
  else if 0x20 ≤ o ∧ o < 0x40 then some (hashW x.active ((o - 0x20) / 4))
  else if 0x40 ≤ o ∧ o < 0x60 then some (hashW x.inactive ((o - 0x40) / 4))
  else if o = Reg.MIRROR_CFG then some (match x.active with | some m => toW (m.mirrorBase + m.mirrorWords * 65536) | none => 0#32)
  else if o = Reg.WCET_ACTIVE then some (match x.active with | some m => toW (m.wcetStoke + m.wcetLayer * 65536) | none => 0#32)
  else if o = Reg.LAYER_STATUS then some (toW (s.chState c))
  else if o = Reg.LAYER_CNT then some x.layerNum
  else if o = Reg.FAULT_STATUS then some (toW (x.fault + bitAt x.fRan 8 + bitAt x.fTrap 9 + bitAt x.fOvr 10))
  else if o = Reg.ENG_STATUS then
    some (toW (bitAt (x.fault != 0) 0 + bitAt (x.fault != 0 && x.faultTrap) 1 + bitAt (s.covered c) 2 + bitAt x.bankB 3 + bitAt x.overran 4))
  else none

/-- The vector registers that are read-only views (R118). -/
def State.vecRead (s : State) (c : Ch) (o : Nat) : Option Word :=
  let v := s.vec[c]
  if o = Reg.VEC_STATUS then some (toW (s.vecStatus c))
  else if Reg.TA_VIEW + 0x80 ≤ o ∧ o < Reg.TA_VIEW + 0x9C then s.taPort c (0x40 + (o - Reg.TA_VIEW) / 4) s.time.cnt
  else if o = Reg.VEC_ERR_IDX then some (toW v.errIdx)
  else if o = Reg.VEC_STREAM_IDX then some (toW v.stream)
  else if o = Reg.VEC_IN_BYTES then some (satU32 v.inBytes)
  else if o = Reg.VEC_OUT_BYTES then some (satU32 v.outBytes)
  else none

end Sys2Proof.Machine
end

