-- ==== Sys2Proof/Machine/Cluster.lean ====
section
/-! DEFINITION. Redundancy: the mirror, takeover, return, the reserve's standby cycle and planned swaps (R270–R286). -/

namespace Sys2Proof.Machine
open Sys2Proof

/-- The channel at a place of a cluster. -/
def chanOf (k : Cl) (i : Fin 6) : Ch := ⟨6 * k.val + i.val, by omega⟩
/-- Change one pair. -/
def Cluster.modPair (k : Cluster) (i : Fin 6) (f : Pair → Pair) : Cluster := { k with pairs := k.pairs.set i.val (f k.pairs[i]) i.isLt }

/-- The codes of CL_STATUS.RES_STATE. -/
def ResState.code : ResState → Nat
  | .standby => 0
  | .prep => 1
  | .cover => 2
  | .swap => 3
  | .unhealthy => 4
  | .retired => 5
/-- The codes of CL_PAIR_STATUS.STATE. -/
def PairState.code : PairState → Nat
  | .active => 0
  | .bist => 1
  | .shadow => 2
  | .waitRevert => 3
  | .out => 4
  | .retired => 5

/-- R274: the reserve is ready in the present stoke. -/
def Cluster.ready (k : Cluster) : Bool := (k.st == .standby || k.st == .prep) && k.phase != .test && !k.fresh

/-- CL_STATUS. -/
def State.clStatus (s : State) (k : Cl) : Nat :=
  let u := s.cl[k]
  let shows := u.st == .cover || u.st == .swap || u.st == .prep || (u.st == .standby && u.spotLeft != 0)
  u.st.code + (if shows then u.ch.val else 0) * 16 + bitAt u.ready 7
    + all6.foldl (fun (a : Nat) (i : Fin 6) => a + bitAt (u.pairs[i].st == .retired) (8 + i.val) + bitAt u.uncov[i] (16 + i.val)) 0
    + min u.unhealthyRuns 3 * 4194304 + bitAt (u.st == .standby && u.spotLeft != 0) 24

/-- CL_PAIR_STATUS. -/
def Pair.status (p : Pair) : Nat :=
  p.st.code + bitAt p.bistFail 3 + min p.attempts 3 * 16 + (if p.st = .shadow then p.shadowLeft else 0) * 65536

/-- The mirror of a channel as it stands (R272). -/
def State.mirrorOf (s : State) (c : Ch) : Mirror :=
  let l := s.loop[c]
  let x := s.ch[c]
  let axw (a : Ax) : List Word :=
    let u := s.sv[c].ax[a]
    [u.i, u.dd, u.n1z1, u.n1z2, u.n2z1, u.n2z2, toW (bitAt u.clHi 0), toW (bitAt u.clLo 0)]
  { window := s.mirrorBytes c, rdPtr := s.vec[c].index, stream := s.vec[c].stream,
    ta := (List.range 15).map fun p => s.taWord c (0x40 + p),
    servo := axw 0 ++ axw 1 ++ axw 2,
    loop := [toW l.mode.code, l.i, l.ic, l.spShape, s.creg c Reg.LOOP_TRIM, l.blendD, toW l.blendLeft],
    outs := [s.areg c 0 Reg.SV_SET, s.areg c 1 Reg.SV_SET, s.areg c 2 Reg.SV_SET, s.creg c Reg.LAS_POWER, s.creg c Reg.LOOP_SP,
             toW (bitAt s.las[c].levelLast 0)],
    eng := [toW (bitAt x.inLayer 0), x.layerNum, toW (bitAt x.bankB 0), toW (match x.active with | some m => m.layoutId | none => 0)] }

/-- A word of a list of words, as bytes. -/
def wAt (l : List Word) (i : Nat) : List Byte := bytesLE (nthD l i 0#32)

/-- R286: a cluster event record; words 0x18–0x3C come from the mirror, and are 0 for a reserve event. -/
def State.clRecord (s : State) (k : Cl) (kind : Nat) (ch : Option (Fin 6)) (item : Nat) (_ : Bool) : List Byte :=
  let u := s.cl[k]
  let head (c att : Nat) : List Byte :=
    [b8 kind, b8 c, b8 s.devNum, b8 item] ++ b32 s.stoke32.toNat ++ b32 (s.tai.2 / 4) ++ bytesOfNatLE 8 s.tai.1 ++ [b8 att, b8 u.st.code] ++ bz 2
  match ch with
  | none => head 255 0 ++ bz 40
  | some i =>
    let m := u.mirrors[i]
    let c := chanOf k i
    head c.val (min u.pairs[i].attempts 3) ++ b32 m.rdPtr ++ b32 m.stream ++ wAt m.servo 0 ++ wAt m.servo 8 ++ wAt m.servo 16
      ++ wAt m.loop 1 ++ b32 ((nthD m.loop 0 0#32).toNat + bitAt (nthD m.loop 6 0#32 != 0#32) 2)
      ++ b32 ((nthD m.outs 3 0#32).toNat % 65536 + 65536 * (nthD m.outs 5 0#32).toNat) ++ b32 (s.taStep c s.time.cnt)
      ++ wAt m.eng 1

/-- An event: its record and its log entry (R286, R405); a failover or a revert is event source 0x0F3. A takeover after a spot mismatch raises it by
itself. -/
def State.clEvent (s : State) (k : Cl) (kind : Nat) (ch : Option (Fin 6)) (item : Nat) : State :=
  let n := match ch with
    | some i => (chanOf k i).val
    | none => 255
  let s := if kind = 1 ∨ kind = 2 then s.evPulse 0x0F3 else s
  (s.emitRole 0x0A k.val (s.clRecord k kind ch item)).logPush .hw false (clReg k Reg.CL_STATUS) 0x12 (toW kind) (toW n)

/-! Mirrors (R272, R273). -/

/-- A transfer of a channel's mirror arrives, or arrives with a bad CRC; the reserve keeps the last good copy. -/
def State.mirrorTake (s : State) (c : Ch) (bad : Bool) : State :=
  let k := clusterOf c
  let i := inCluster c
  if bad then
    let s := s.modCl k fun u => { u with uncov := u.uncov.set i.val true i.isLt }
    (s.bump (clReg k Reg.MIRROR_ERR_CNT)).clEvent k 0x0A (some i) 0
  else s.modCl k fun u => { u with uncov := u.uncov.set i.val false i.isLt, mirrors := u.mirrors.set i.val u.sent[i] i.isLt }

/-- A stoke that commits sends the mirror as it stands. -/
def State.mirrorSend (s : State) (c : Ch) (bad : Bool) : State :=
  let m := s.mirrorOf c
  (s.modCl (clusterOf c) fun u => { u with sent := u.sent.set (inCluster c).val m (inCluster c).isLt }).mirrorTake c bad

/-! Who runs a channel. -/

/-- The reserve has the channel, though a restore stoke may still hold it up. -/
def State.clHolds (s : State) (c : Ch) : Bool :=
  let u := s.cl[clusterOf c]
  (u.st == .cover || u.st == .swap) && u.ch == inCluster c

/-- Some engine can run the channel in the next stoke: its active pair, or the covering reserve (R274, R283). -/
def State.clRuns (s : State) (c : Ch) : Bool :=
  let u := s.cl[clusterOf c]
  if s.clHolds c then !u.wait else u.pairs[inCluster c].st == .active

/-- The length of a self-test in stokes (R276). -/
def State.bistStokes (s : State) : Nat := 1600000 / s.stokeCyc

/-- The resuming engine finds the mirror window of the last committed stoke, and RESUMED set (R99, R275). -/
def State.clResume (s : State) (c : Ch) : State :=
  let w := s.cl[clusterOf c].mirrors[inCluster c].window
  let s := s.mirrorWrite c w
  s.modCh c fun x => { x with resumed := true, mirrorSave := w }

/-- A swap in preparation is abandoned (R283). -/
def State.swapAbandon (s : State) (k : Cl) : State :=
  let u := s.cl[k]
  if u.st = .prep then (s.modCl k fun u => { u with st := .standby, prepLeft := 0, prepDone := 0 }).clEvent k 0x0D (some u.ch) 0 else s

/-- R282: no reserve is available, and the channel stops. The FAULT entry runs on its own pair, whose self-test begins after it; a retired pair
stays retired (log 74). -/
def State.clStop (s : State) (k : Cl) (i : Fin 6) (item : Nat) : State :=
  let c := chanOf k i
  let s := (s.faultDue c 5).bump (clReg k Reg.CL_STOP_CNT)
  let s := s.mirrorRestore c
  let s := s.modCl k fun u => u.modPair i fun p =>
    match p.st with
    | .retired => { p with stopped := true }
    | _ => { p with st := .active, stopped := true, bistDue := true, bistRes := none }
  (s.clEvent k 0x05 (some i) item).raiseSrc (0xB8 + k.val)

/-- R270, R274, R280: the reserve takes a mismatched channel; one that was not ready in the stoke that ends waits a stoke. A slice that is
under way ends as it would. The self-test of the pair begins with the next stoke (R276); the boundary itself counts one off. -/
def State.clTake (s : State) (k : Cl) (i : Fin 6) (item : Nat) (spot : Bool) : State :=
  let c := chanOf k i
  let s := (s.swapAbandon k).bump (clReg k Reg.FAILOVER_CNT)
  let late := s.cl[k].phase == .test || s.cl[k].fresh
  let n := s.bistStokes
  let s := s.modCl k fun u =>
    { u.modPair i (fun p => { p with st := .bist, bistLeft := n + 1, bistRes := none, stopped := false, returnReq := false, bistDue := false }) with
      st := .cover, ch := i, wait := late, spotLeft := 0, sliceLeft := 0 }
  let s := if late then s else s.clResume c
  let s := if spot then s.evPulse 0x0F3 else s
  s.clEvent k (if spot then 0x06 else 0x01) (some i) item

/-- R281: the reserve becomes unhealthy, the third time for good; a channel it covered stops. -/
def State.clUnhealthy (s : State) (k : Cl) : State :=
  let u := s.cl[k]
  if u.st = .unhealthy ∨ u.st = .retired then (s.modCl k fun u => { u with cleanRun := 0 })
  else
    let lost : Option (Fin 6) := if u.st = .cover ∨ u.st = .swap then some u.ch else none
    let s := s.swapAbandon k
    let n := u.unhealthyRuns + 1
    let s := s.modCl k fun u =>
      { u with st := if 3 ≤ n then .retired else .unhealthy, unhealthyRuns := n, cleanRun := 0, wait := false, spotLeft := 0,
               sliceLeft := 0, phase := .none }
    let s := s.clEvent k (if 3 ≤ n then 0x09 else 0x07) none 0
    match lost with
    | some i => s.clStop k i 0
    | none => s

/-- What befell the reserve is handled: a channel it covered stops (R281, R282). -/
def State.clReserve (s : State) (k : Cl) : State :=
  let u := s.cl[k]
  let s := s.modCl k fun u => { u with resDue := .nothing, ueDue := false }
  let s := match u.resDue with
    | .nothing => s
    | .chanWord => (s.modCl k fun u => { u with st := .standby, wait := false }).clStop k u.ch 0
    | .ownWord => s.clUnhealthy k
    | .cores => (s.bump (clReg k Reg.RES_MISMATCH_CNT)).clUnhealthy k
  if u.ueDue && u.resDue != .ownWord then s.clUnhealthy k else s

/-- A mismatch of the stoke that ends is handled: the channel is taken, or stops; a spot mismatch has its record either way (R280, R286). -/
def State.clMismatch (s : State) (k : Cl) (i : Fin 6) (item : Nat) (spot : Bool) : State :=
  let u := s.cl[k]
  if (u.st == .standby || u.st == .prep) && !u.uncov[i] then s.clTake k i item spot
  else (if spot then s.clEvent k 0x06 (some i) item else s).clStop k i item

/-- The mismatches of the stoke that ends are handled, the reserve's own first, then the lowest channel first (R271, R282). -/
def State.clFailover (s : State) (k : Cl) : State :=
  let l := s.cl[k].due
  let s := (s.modCl k fun u => { u with due := [] }).clReserve k
  l.foldl (fun (s : State) (m : Fin 6 × Nat × Bool) => s.clMismatch k m.1 m.2.1 m.2.2) s

/-- The item in which the pair of a channel differed in the stoke that ends (R53): found by an instruction, or at commit. -/
def State.pairDiffers (s : State) (k : Cl) (inp : ClIn) (i : Fin 6) : Option Nat :=
  let c := chanOf k i
  let e := s.eng[ownEng c]
  if s.clHolds c then none
  else if e.run = .mismatched then some e.item
  else if e.cycle = 0 then none
  else (inp.pairItem.find? fun p => p.1 == i).map (·.2)

/-- The mismatches of stoke k are found: pairs that differed, the spot-shadowed channel in whichever way its pair's stoke ended, the reserve's
own cores and memories. -/
def State.clFind (s : State) (k : Cl) (inp : ClIn) : State :=
  let u := s.cl[k]
  let own := all6.filterMap fun i => (s.pairDiffers k inp i).map fun x => (i, x, false)
  let s := own.foldl (fun (s : State) (m : Fin 6 × Nat × Bool) => s.bump (clReg k (Reg.LOCK_MISMATCH_CNT + 4 * m.1.val))) s
  let e := s.eng[ownEng (chanOf k u.ch)]
  let spot := u.st == .standby && u.spotLeft != 0 && inp.spotItem != 0 && s.ch[chanOf k u.ch].running && e.entry != .fault && e.cycle != 0
  let s := if spot then s.bump (clReg k Reg.SPOT_MISMATCH_CNT) else s
  let found := own ++ (if spot then [(u.ch, inp.spotItem, true)] else [])
  let low := all6.filterMap fun i => found.find? fun m => m.1 == i
  let r := s.eng[resEng k]
  let covers := u.st == .cover || u.st == .swap
  let res : ResDue :=
    if covers ∧ r.run = .mismatched then (if r.item = 0 then .chanWord else if r.item = ownMemItem then .ownWord else .cores)
    else if inp.resItem ≠ 0 then .cores else .nothing
  s.modCl k fun u => { u with due := low, resDue := res }

/-- The stoke of a channel is withheld: its pair differed, or no engine could run it (R270, R274). -/
def State.clWithheld (s : State) (c : Ch) : Bool :=
  let u := s.cl[clusterOf c]
  s.ch[c].running && (u.due.any (fun m => m.1 == inCluster c) || !s.clRuns c || s.eng[s.engOf c].run == .mismatched)

/-! Return (R276–R278, R284). -/

/-- R278: a failed attempt; the third retires the pair. -/
def State.clAttempt (s : State) (k : Cl) (i : Fin 6) : State :=
  let n := s.bistStokes
  let s := s.modCl k fun u => u.modPair i fun p => { p with attempts := p.attempts + 1 }
  let s := s.clEvent k 0x03 (some i) 0
  if 3 ≤ (s.cl[k].pairs[i]).attempts then
    let s := s.modCl k fun u => u.modPair i fun p => { p with st := .retired }
    s.clEvent k 0x04 (some i) 0
  else s.modCl k fun u => u.modPair i fun p => { p with st := if p.st = .out then .out else .bist, bistLeft := n, bistRes := none }

/-- The outcome of a self-test that has run its length takes effect at the boundary (R276, R278, R282, R283). -/
def State.bistEnd (s : State) (c : Ch) : State :=
  let k := clusterOf c
  let i := inCluster c
  let p := s.cl[k].pairs[i]
  match p.bistRes with
  | none => s
  | some pass =>
    if p.bistLeft ≠ 0 then s
    else
      let s := s.modCl k fun u => u.modPair i fun p => { p with bistRes := none }
      if pass then
        let cov := s.clHolds c && !p.stopped
        s.modCl k fun u => u.modPair i fun p =>
          if p.st = .out then { p with bistPassed := true, bistFail := false }
          else if cov then { p with st := .shadow, shadowLeft := 20000, bistFail := false }
          else { p with st := .active, stopped := false, bistFail := false, attempts := 0 }
      else (s.modCl k fun u => u.modPair i fun p => { p with bistFail := true }).clAttempt k i

/-- BIST_DONE: the self-test of a pair is in its last stoke or has run its length, and its outcome is known. -/
def State.bistDone (s : State) (c : Ch) (pass : Bool) : State :=
  let p := s.cl[clusterOf c].pairs[inCluster c]
  if (p.st = .bist ∨ (p.st = .out ∧ p.bistPassed = false)) ∧ p.bistLeft ≤ 1 then
    s.modCl (clusterOf c) fun u => u.modPair (inCluster c) fun p => { p with bistRes := some pass }
  else s

/-- Shadowing has run its stokes (R276). -/
def State.shadowDone (s : State) (c : Ch) : State :=
  let k := clusterOf c
  let i := inCluster c
  let p := s.cl[k].pairs[i]
  if p.st = .shadow ∧ p.shadowLeft = 0 then s.modCl k fun u => u.modPair i fun p => { p with st := .waitRevert } else s

/-- The gate was low throughout the stoke that has just ended and the level is off (R277). -/
def State.gateQuiet (s : State) (c : Ch) : Bool := s.las[c].onLast == 0 && !s.las[c].levelLast

/-- R277: a waiting pair takes its channel back at the boundary. -/
def State.pairRevert (s : State) (c : Ch) : State :=
  let k := clusterOf c
  let i := inCluster c
  let u := s.cl[k]
  let p := u.pairs[i]
  if p.st = .waitRevert ∧ s.clHolds c ∧ (bit (s.reg (clReg k Reg.CL_CFG)) 2 ∨ p.returnReq) ∧ s.gateQuiet c then
    let s := s.modCl k fun u =>
      { u.modPair i (fun p => { p with st := .active, attempts := 0, returnReq := false }) with st := .standby, fresh := true }
    let s := (s.modCh c fun x => { x with resumed := true }).bump (clReg k Reg.REVERT_CNT)
    s.clEvent k 0x02 (some i) 0
  else s

/-- A pending image waits in the inactive bank (R106, R284), whatever was refused since. -/
def State.pendingImg (s : State) (c : Ch) : Option ImgMeta := if s.ch[c].waiting then s.ch[c].inactive else none

/-- The image that waits for the return has another layout than the one that runs (R284). -/
def State.returnDiffers (s : State) (c : Ch) : Bool :=
  match s.pendingImg c, s.ch[c].active with
  | some n, some a => !n.sameLayout a
  | _, _ => false

/-- R284: the channel returns from a planned swap. -/
def State.channelReturn (s : State) (c : Ch) : State :=
  let k := clusterOf c
  let i := inCluster c
  let p := s.cl[k].pairs[i]
  let differs : Bool := s.returnDiffers c
  if p.st = .out ∧ p.returnReq ∧ p.bistPassed ∧ s.gateQuiet c ∧ (differs = false ∨ s.ch[c].inLayer = false) then
    let w := s.cl[k].mirrors[i].window
    let had := (s.pendingImg c).isSome
    let s := if had then s.bankSwap c else s
    let s := s.modCl k fun u =>
      { u.modPair i (fun p => { p with st := .active, returnReq := false, attempts := 0 }) with st := .standby, fresh := true }
    let s := if differs then s.mirrorClear c else (s.mirrorWrite c w).modCh c fun x => { x with mirrorSave := w }
    let s := (s.modCh c fun x => { x with resumed := true, newBank := x.newBank || had }).bump (clReg k Reg.REVERT_CNT)
    s.clEvent k 0x0C (some i) 0
  else s

/-! Planned swap (R283). -/

/-- The conditions of a TAKE. -/
def State.takeOk (s : State) (k : Cl) : Bool :=
  let u := s.cl[k]
  let n := s.regF (clReg k Reg.CL_SWAP_CH) 0 3
  if h : n < 6 then
    let i : Fin 6 := ⟨n, h⟩
    let c := chanOf k i
    u.st == .standby && u.pairs[i].st == .active && s.ch[c].running && !s.inFault c && !u.uncov[i] && !s.loadQ.any (·.1 == c)
  else false

/-- The channel that CL_SWAP_CH names. -/
def State.swapCh (s : State) (k : Cl) : Fin 6 := ⟨s.regF (clReg k Reg.CL_SWAP_CH) 0 3 % 6, Nat.mod_lt _ (by decide)⟩

/-- A TAKE begins the preparation: its first copy stoke is the next one, so the boundary itself counts one off. A slice that is under way ends
as it would. -/
def State.clSwapTake (s : State) (k : Cl) : State :=
  let i := s.swapCh k
  let len := match s.ch[chanOf k i].active with
    | some m => m.constLen
    | none => 0
  s.modCl k fun u =>
    { u with st := .prep, ch := i, prepLeft := max 1 ((len + 1023) / 1024) + 1, prepDone := 0, spotLeft := 0, sliceLeft := 0 }

/-- A RETURN asks for the channel's return. -/
def State.clSwapReturn (s : State) (k : Cl) : State :=
  s.modCl k fun u => u.modPair (s.swapCh k) fun p =>
    if p.st = .active ∨ p.st = .retired ∨ p.stopped = true then p else { p with returnReq := true }

/-- An ABORT ends the preparation, or discards the pending image and acts as RETURN. -/
def State.clSwapAbort (s : State) (k : Cl) : State :=
  let i := s.swapCh k
  let c := chanOf k i
  if s.cl[k].st = .prep then s.swapAbandon k
  else if (s.cl[k].pairs[i]).st = .out then
    let next : LoadState := if s.loadQ.any (·.1 == c) then .loading else .idle
    let s := if (s.pendingImg c).isSome then (s.dropPending c).modCh c fun x => { x with load := next } else s
    (s.dropTables c).clSwapReturn k
  else s

/-- One stoke of the preparation copies 1,024 bytes of the constant area. -/
def State.prepCopy (s : State) (k : Cl) : State :=
  let u := s.cl[k]
  match s.ch[chanOf k u.ch].active with
  | some m =>
    let n := if max 1 ((m.constLen + 1023) / 1024) < u.prepLeft then 0 else min 1024 (m.constLen - u.prepDone)
    let a := m.constBase + u.prepDone
    let s := s.put (dmemBase (resEng k) + a) (s.bytes (dmemBase (ownEng (chanOf k u.ch)) + a) n)
    s.modCl k fun u => { u with prepLeft := u.prepLeft - 1, prepDone := u.prepDone + n }
  | none => s.modCl k fun u => { u with prepLeft := u.prepLeft - 1 }

/-- The last copy stoke has ended: the reserve takes the channel, and the pair goes out (R283). -/
def State.swapPrepDone (s : State) (k : Cl) : State :=
  let u := s.cl[k]
  if u.st = .prep ∧ u.prepLeft = 0 then
    let n := s.bistStokes
    let s := s.modCl k fun u =>
      { u.modPair u.ch (fun p => { p with st := .out, bistLeft := n, bistRes := none, bistPassed := false, returnReq := false }) with st := .swap, wait := false }
    (s.clResume (chanOf k u.ch)).clEvent k 0x0B (some u.ch) 0
  else s

/-! The reserve's cycle (R279, R281). -/

/-- A channel that the standby cycle visits. -/
def State.clVisits (s : State) (k : Cl) (i : Fin 6) : Bool :=
  s.ch[chanOf k i].running && (s.cl[k].pairs[i]).st == .active && !s.cl[k].uncov[i] && !(s.cl[k].pairs[i]).stopped

/-- The next channel after `i` that the cycle visits, in ascending order. -/
def State.clNext (s : State) (k : Cl) (i : Fin 6) : Option (Fin 6) :=
  ((List.range 6).map fun d => (⟨(i.val + 1 + d) % 6, Nat.mod_lt _ (by decide)⟩ : Fin 6)).find? fun j => s.clVisits k j

/-- The cycle moves to its next step: slices of the channel just shadowed, or the next channel. -/
def State.clPick (s : State) (k : Cl) (slices : Bool) : State :=
  let cfg := s.reg (clReg k Reg.CL_CFG)
  let u := s.cl[k]
  if slices && bit cfg 1 && s.clVisits k u.ch then s.modCl k fun u => { u with phase := .test, sliceLeft := 128, spotLeft := 0 }
  else match s.clNext k u.ch with
    | some j =>
      if bit cfg 0 then s.modCl k fun u => { u with ch := j, spotLeft := 1000, phase := .none, sliceLeft := 0 }
      else if bit cfg 1 then s.modCl k fun u => { u with ch := j, phase := .test, sliceLeft := 128, spotLeft := 0 }
      else s.modCl k fun u => { u with phase := .none, sliceLeft := 0, spotLeft := 0 }
    | none => s.modCl k fun u => { u with phase := .none, sliceLeft := 0, spotLeft := 0 }

/-- A slice ends with its restore stoke (R281). -/
def State.sliceDone (s : State) (k : Cl) (fail : Bool) : State :=
  if fail then ((s.bump (clReg k Reg.SLICE_FAIL_CNT)).modCl k fun u => { u with phase := .none }).clUnhealthy k
  else
    let s := s.bump (clReg k Reg.SLICE_PASS_CNT)
    let u := s.cl[k]
    if u.st = .unhealthy ∧ 1024 ≤ u.cleanRun + 1 then
      (s.modCl k fun u => { u with st := .standby, cleanRun := 0, phase := .none, sliceLeft := 0, spotLeft := 0 }).clEvent k 0x08 none 0
    else if u.st = .unhealthy then s.modCl k fun u => { u with cleanRun := u.cleanRun + 1, phase := .test }
    else s.modCl k fun u => { u with sliceLeft := u.sliceLeft - 1, phase := if u.sliceLeft ≤ 1 then .none else .test }

/-- An unhealthy reserve runs slices only: the next one begins. -/
def State.unhealthyNext (s : State) (k : Cl) : State :=
  s.modCl k fun u => if u.st = .unhealthy ∧ u.phase = .none then { u with phase := .test } else u

/-- A slice under way takes its next stoke, outside the standby cycle too (R274, R279). -/
def State.sliceStep (s : State) (k : Cl) (fail : Bool) : State :=
  match s.cl[k].phase with
  | .test => s.modCl k fun u => { u with phase := .restore }
  | .restore => ((s.modCl k fun u => { u with phase := .none }).sliceDone k fail).unhealthyNext k
  | .none => s

/-- A takeover that waits for the reserve: it goes on to wait through the stoke after one in which the reserve was not ready. -/
def State.clAwaited (s : State) (k : Cl) (held : Bool) : State :=
  let u := s.cl[k]
  if u.wait ∧ held = false ∧ s.clHolds (chanOf k u.ch) then (s.modCl k fun u => { u with wait := false }).clResume (chanOf k u.ch) else s

/-- One boundary of the reserve's cycle, or of the preparation; `ran` says of a channel that its STOKE or LAYER entry ran (R276, R279). -/
def State.clCycle (s : State) (k : Cl) (inp : ClIn) (ran : Fin 6 → Bool) : State :=
  let u := s.cl[k]
  let s := s.modCl k fun u => { u with fresh := false }
  match u.st with
  | .cover | .swap => (s.sliceStep k inp.sliceFail).clAwaited k (u.phase == .test || u.fresh)
  | .prep => if (s.sliceStep k inp.sliceFail).cl[k].st = .prep then ((s.sliceStep k inp.sliceFail).prepCopy k).swapPrepDone k else s.sliceStep k inp.sliceFail
  | .retired => s
  | .standby | .unhealthy =>
    match u.phase with
    | .test => s.sliceStep k inp.sliceFail
    | .restore =>
      let s := (s.sliceDone k inp.sliceFail).unhealthyNext k
      if (s.cl[k]).st = .standby ∧ (s.cl[k]).phase ≠ .test then s.clPick k false else s
    | .none =>
      if u.st = .unhealthy then s.modCl k fun u => { u with phase := .test }
      else if u.spotLeft ≠ 0 ∧ s.clVisits k u.ch = false then s.clPick k false
      else if u.spotLeft ≠ 0 ∧ ran u.ch = false then s
      else if 1 < u.spotLeft then s.modCl k fun u => { u with spotLeft := u.spotLeft - 1 }
      else s.clPick k (u.spotLeft == 1)

/-- One boundary of one pair: self-tests count down, shadowing counts the stokes in which an entry ran. -/
def State.pairStep (s : State) (k : Cl) (i : Fin 6) (ran : Bool) (item : Nat) : State :=
  let c := chanOf k i
  let p := s.cl[k].pairs[i]
  match p.st with
  | .active =>
    if p.bistDue then
      if s.inFault c ∧ s.ch[c].fRan = false ∧ s.eng[ownEng c].entry ≠ .fault then s
      else let n := s.bistStokes; s.modCl k fun u => u.modPair i fun p => { p with st := .bist, bistLeft := n, bistRes := none, bistDue := false }
    else s
  | .bist => (s.modCl k fun u => u.modPair i fun p => { p with bistLeft := p.bistLeft - 1 }).bistEnd c
  | .out => ((s.modCl k fun u => u.modPair i fun p => { p with bistLeft := p.bistLeft - 1 }).bistEnd c).channelReturn c
  | .shadow =>
    if ran then
      if item ≠ 0 then s.clAttempt k i
      else (s.modCl k fun u => u.modPair i fun p => { p with shadowLeft := p.shadowLeft - 1 }).shadowDone c
    else s
  | .waitRevert => s.pairRevert c
  | .retired => s

/-- FAULT_CTRL.CLEAR is refused while the pair of a stopped channel has not passed its self-test (R282). -/
def State.clClearRefused (s : State) (c : Ch) : Bool := (s.cl[clusterOf c].pairs[inCluster c]).stopped

end Sys2Proof.Machine
end

