-- ==== Sys2Proof/Machine/Position.lean ====
section
/-! DEFINITION. Encoders, the index, probes, compare units and the passthrough (R313–R328). -/

namespace Sys2Proof.Machine
open Sys2Proof

/-- Change an encoder. -/
def State.modEnc (s : State) (n : Ma) (f : EncU → EncU) : State := s.modMotor n fun x => { x with e := f x.e }
/-- Change a compare unit. -/
def State.modCmp (s : State) (n : Ma) (f : CmpU → CmpU) : State := s.modMotor n fun x => { x with c := f x.c }
/-- Change a passthrough. -/
def State.modFwd (s : State) (n : Ma) (f : FwdU → FwdU) : State := s.modMotor n fun x => { x with f := f x.f }
/-- ENC_CFG.SRC. -/
def State.encSrc (s : State) (n : Ma) : Nat := s.maF n Reg.ENC_CFG 0 2

/-- An integer modulo 2^32, signed. -/
def wrap32 (i : Int) : Int := sx 32 (i % 4294967296).toNat

/-! The absolute word (R313–R316). -/

/-- Bits of a frame. -/
def frameBits (fr : Word) : Nat := fld fr 0 3 + fld fr 8 6 + fld fr 16 4 + fld fr 24 4
/-- R313, R314: a configuration fits a stoke of `c` motion clocks. -/
def encFits (cfg fr : Word) (c : Nat) : Bool :=
  let n := frameBits fr
  decide (n ≤ 55) && decide ((n + 1) * 2 * fld cfg 8 8 + fld cfg 16 12 ≤ c - 10)
    && (!(fld fr 28 3 == 1 || fld fr 28 3 == 2) || fld fr 24 4 == 1)
/-- The check of a write at offset `o` of an encoder's registers: ENC_CFG, ENC_FRAME and ENC_CHK alone have one (R313, R327). -/
def State.encWriteOk (s : State) (n : Ma) (o : Nat) (v : Word) : Bool :=
  let cfg := if o = Reg.ENC_CFG then v else s.maR n Reg.ENC_CFG
  let fr := if o = Reg.ENC_FRAME then v else s.maR n Reg.ENC_FRAME
  !decide (o ≤ Reg.ENC_CHK) || ((s.ma[n].m).st == .disabled && encFits cfg fr s.motC)
/-- R313: a write of STOKE_CFG.RATE leaves every enabled interface a frame that fits. -/
def State.rateFits (s : State) (rate : Nat) : Bool :=
  all8.all fun (n : Ma) => s.encSrc n == 0 || encFits (s.maR n Reg.ENC_CFG) (s.maR n Reg.ENC_FRAME) (stokeLen rate / 8)

/-- Gray to binary, most significant bit first. -/
def grayDecode : Bool → List Bool → List Bool
  | _, [] => []
  | a, b :: r => (a != b) :: grayDecode (a != b) r

/-- A CRC of `n` bits, most significant bit first, from register 0 (R314). -/
def crcBits (n poly : Nat) (bs : List Bool) : Nat :=
  bs.foldl (fun (c : Nat) (b : Bool) =>
    let top := c.testBit (n - 1)
    let c' := c * 2 % 2 ^ n
    if top != b then c' ^^^ (poly % 2 ^ n) else c') 0

/-- R314: the check bits of a frame match; `ps` are its position and status bits. -/
def chkOk (fr chk : Word) (ps : List Bool) (bits : Nat) : Bool :=
  let cb := fld fr 24 4
  let got := bits % 2 ^ cb
  let odd := ps.foldl (fun (a b : Bool) => a != b) false
  match fld fr 28 3 with
  | 1 => got == bitAt odd 0
  | 2 => got == bitAt (!odd) 0
  | 3 => cb == 0 || got == crcBits cb (fld chk 0 8) ps
  | 4 => cb == 0 || got == 2 ^ cb - 1 - crcBits cb (fld chk 0 8) ps
  | _ => true

/-- A frame completes: the read it makes (R314, R315). Its fields are taken in order, so a selected status bit fails it before the check bits do. -/
def State.encDecode (s : State) (n : Ma) (bits : Nat) : EncRead :=
  let e := s.ma[n].e
  let cfg := s.maR n Reg.ENC_CFG
  let fr := s.maR n Reg.ENC_FRAME
  let chk := s.maR n Reg.ENC_CHK
  let pb := fld fr 8 6
  let sb := fld fr 16 4
  let cb := fld fr 24 4
  let ps := bitsMsb (pb + sb) (bits / 2 ^ cb)
  let st := bits / 2 ^ cb % 2 ^ sb
  let raw := ps.take pb
  let w := natBits (if bit cfg 2 then grayDecode false raw else raw)
  let v : Int := if bit cfg 3 then sx pb w else (w : Int)
  let base : Int := if bit cfg 4 && !e.first then e.base + sx pb (((w : Int) - (e.word : Int)) % 2 ^ pb).toNat else v
  let pos := wrap32 (base + (s.maR n Reg.ENC_OFFSET).toInt)
  let jm := (s.maR n Reg.ENC_JUMP_MAX).toNat
  let jump := decide (jm ≠ 0) && e.tried && decide (jm < (wrap32 (pos - e.pos.toInt)).natAbs)
  let cause := if st &&& fld chk 8 8 ≠ 0 then 3 else if !chkOk fr chk ps bits then 2 else if jump then 4 else 0
  { cause := cause, pos := intW pos, word := w, base := wrap32 base, inc := e.incB, stat := st }

/-- The read of the stoke completes (R313, R316); `ready` is ENCn_DAT at motion clock 0. -/
def State.encFrame (s : State) (n : Ma) (ready : Bool) (bits : Nat) : State :=
  let e := s.ma[n].e
  let src := s.encSrc n
  if !s.time.running ∨ (src ≠ 1 ∧ src ≠ 2) ∨ e.read.isSome = true then s
  else if !ready then
    let r : EncRead := { cause := 1, pos := e.pos, word := e.word, base := e.base, inc := e.incB, stat := e.stat }
    (s.modEnc n fun e => { e with read := some r, rawOk := false, tried := true }).modFwd n fun f => if f.bits.isNone then { f with pin := false } else f
  else
    let b := bits % 2 ^ frameBits (s.maR n Reg.ENC_FRAME)
    let r := s.encDecode n b
    let ssi := s.maF n Reg.FWD_CFG 0 2 == 1
    (s.modEnc n fun e => { e with read := some r, rawBits := b, rawOk := true, tried := true }).modFwd n fun f =>
      if f.bits.isNone then { f with pin := ssi } else f

/-- FB now (R318). -/
def State.fbNow (s : State) (n : Ma) : Int :=
  let e := s.ma[n].e
  match s.encSrc n with
  | 0 => 0
  | 1 => e.pos.toInt
  | 2 => wrap32 (e.fbP.toInt + (e.inc - e.fbI))
  | _ => wrap32 e.inc

/-- The counter of a cause (R316). -/
def encCnt (cause : Nat) : Nat := Reg.NOTREADY_CNT + 4 * (cause - 1)

/-- An invalid stoke (R316). -/
def State.encInvalid (s : State) (n : Ma) (cause : Nat) : State :=
  let s := s.modEnc n fun e => { e with valid := false, cause := cause, slip := false, invalid := e.invalid + 1 }
  if s.maF n Reg.ENC_ERR_STOKES 0 8 ≤ (s.ma[n].e).invalid ∧ (s.ma[n].m).all.testBit 6 = false then s.maFault n 7 s.motC else s

/-- The valid read of a stoke takes effect at its end; with both tracks, a slip realigns FB (R318). -/
def State.encValid (s : State) (n : Ma) (r : EncRead) : State :=
  let e := s.ma[n].e
  let d := wrap32 (wrap32 (r.base - e.base) - (r.inc - e.i))
  let slip := s.encSrc n == 2 && !e.first && decide ((s.maR n Reg.SLIP_TOL).toNat < d.natAbs)
  let align := e.first || slip || e.offNew
  let before := s.fbNow n
  let s := s.modEnc n fun e =>
    { e with pos := r.pos, word := r.word, base := r.base, first := false, valid := true, cause := 0, slip := slip, invalid := 0, i := r.inc,
             fbP := if align then r.pos else e.fbP, fbI := if align then r.inc else e.fbI, offNew := false }
  if slip then (s.bump (maReg n Reg.SLIP_CNT)).logPush .hw false (0xB0 + n.val + 3 * 65536) 0x15 (intW before) (intW (s.fbNow n)) else s

/-- ENC_STATUS. -/
def EncU.status (e : EncU) : Nat := bitAt e.valid 0 + e.cause * 2 + bitAt e.slip 4 + e.stat % 256 * 256

/-! Compare (R322–R325). -/

/-- The position that a compare unit works on, now. -/
def State.cmpPos (s : State) (n : Ma) : Int :=
  if bit (s.maR n Reg.CMP_CFG) 3 then microOf ((s.ma[n].m).accAt (s.now / 8)) else s.fbNow n
/-- Whole spacings that put V ahead of p: V moves in the direction of DIR. -/
def skipsTo (neg : Bool) (sp : Nat) (v p : Int) : Nat :=
  let d := if neg then v - p else p - v
  if d < 0 then 0 else d.toNat / max sp 1 + 1
/-- V after k spacings. -/
def CmpU.advance (u : CmpU) (neg : Bool) (sp k : Nat) : CmpU :=
  let x : Int := (k * sp : Nat)
  { u with v := if neg then u.v - x else u.v + x, left := u.left - toW k }
/-- V is not ahead of p. -/
def notAhead (neg : Bool) (v p : Int) : Bool := if neg then decide (p ≤ v) else decide (v ≤ p)

/-- Skips at an arm or a jump (R323, R324). -/
def State.cmpSkip (s : State) (n : Ma) : State :=
  let cfg := s.maR n Reg.CMP_CFG
  let neg := bit cfg 2
  let u := s.ma[n].c
  if u.armed = false then s
  else if fld cfg 0 2 = 1 then s.modCmp n fun u => { u with behind := notAhead neg u.v u.p }
  else
    let sp := (s.maR n Reg.CMP_SPACE).toNat
    let k := skipsTo neg (max sp 1) u.v u.p
    let limited := decide (s.maR n Reg.CMP_COUNT ≠ 0#32)
    let k' := if limited then min k u.left.toNat else k
    let s := (s.modCmp n fun u => u.advance neg sp k').addCnt (maReg n Reg.CMP_SKIP_CNT) k'
    if limited ∧ (s.ma[n].c).left = 0#32 then s.modCmp n fun u => { u with armed := false, done := true } else s

/-- The boundary arms the unit (R323). -/
def State.cmpArm (s : State) (n : Ma) : State :=
  let cfg := s.maR n Reg.CMP_CFG
  let p := s.cmpPos n
  let v := (s.maR n Reg.CMP_VAL).toInt
  let left := s.maR n Reg.CMP_COUNT
  (s.modCmp n fun u => { u with armed := fld cfg 0 2 != 0, behind := false, done := false, v := v, left := left, p := p }).cmpSkip n

/-- p jumps (R322). -/
def State.cmpJump (s : State) (n : Ma) : State :=
  let p := s.cmpPos n
  (s.modCmp n fun u => { u with p := p }).cmpSkip n

/-- A hit whose crossing falls in motion clock `m` of the present stoke (R325). -/
def State.cmpFire (s : State) (n : Ma) (m : Nat) : State :=
  let w := fld (s.maR n Reg.CMP_CFG) 16 16
  let u : Int := ((m + 1 + w : Nat) : Int)
  let s := (s.modCmp n fun c => { c with until_ := u }).bump (maReg n Reg.CMP_HIT_CNT)
  let now := s.now
  let s : State := { s with now := 8 * (m + 1) }
  let s : State := s.evPulse (0x10 + n.val)
  { s with now := max now s.now }

/-- p changes to `p` in motion clock `m`: a crossing fires (R322–R324). -/
def State.cmpMove (s : State) (n : Ma) (p : Int) (m : Nat) : State :=
  let u := s.ma[n].c
  let cfg := s.maR n Reg.CMP_CFG
  let neg := bit cfg 2
  let s := s.modCmp n fun c => { c with p := p }
  if u.armed = false then s
  else
    let up := decide (u.p < u.v ∧ u.v ≤ p)
    let down := decide (u.v < u.p ∧ p ≤ u.v)
    let cross := if neg then down else up
    let back := if neg then up else down
    if fld cfg 0 2 = 1 then
      if u.behind then (if back then s.modCmp n fun c => { c with behind := false } else s)
      else if cross then (s.modCmp n fun c => { c with armed := false, done := true }).cmpFire n m
      else s
    else if cross then
      let sp := max (s.maR n Reg.CMP_SPACE).toNat 1
      let k := skipsTo neg sp u.v p
      let limited := decide (s.maR n Reg.CMP_COUNT ≠ 0#32)
      let k' := if limited then min k u.left.toNat else k
      let s := ((s.modCmp n fun c => c.advance neg sp k').addCnt (maReg n Reg.CMP_SKIP_CNT) (k' - 1)).cmpFire n m
      if limited ∧ (s.ma[n].c).left = 0#32 then s.modCmp n fun c => { c with armed := false, done := true } else s
    else s

/-- The accumulator's crossings, clock by clock. -/
def State.cmpClocks (s : State) (n : Ma) : Nat → Nat → State
  | 0, _ => s
  | f + 1, m => if (s.ma[n].c).armed then State.cmpClocks (s.cmpMove n (microOf ((s.ma[n].m).accAt (m + 1))) (m + 1)) n f (m + 1) else s

/-- The unit has seen every motion clock up to `m` of the present stoke. -/
def State.cmpRun (s : State) (n : Ma) (m : Nat) : State :=
  let u := s.ma[n].c
  let s := if u.armed && bit (s.maR n Reg.CMP_CFG) 3 then s.cmpClocks n (m - u.clk) u.clk else s
  s.modCmp n fun c => { c with clk := max c.clk m }

/-- FB has changed at the present instant. -/
def State.fbMoved (s : State) (n : Ma) : State :=
  if bit (s.maR n Reg.CMP_CFG) 3 then s else s.cmpMove n (s.fbNow n) (s.now / 8)

/-- CMP_STATUS. -/
def State.cmpStatus (s : State) (n : Ma) : Nat :=
  let u := s.ma[n].c
  bitAt u.armed 0 + bitAt u.behind 1 + bitAt u.done 2 + bitAt (decide (((s.now / 8 : Nat) : Int) < u.until_)) 3

/-! The incremental track and the index (R317, R319). -/

/-- A place in the quadrature sequence: A leads B as the count rises. -/
def quadPos (a b : Bool) : Nat := if a then (if b then 2 else 1) else (if b then 3 else 0)

/-- The filtered A and B take new levels. -/
def State.quadEdge (s : State) (n : Ma) (a b : Bool) : State :=
  let e := s.ma[n].e
  let d := (quadPos a b + 4 - quadPos e.pa e.pb) % 4
  let s := s.modEnc n fun e => { e with pa := a, pb := b }
  if s.encSrc n < 2 ∨ d = 0 then s
  else if d = 2 then (s.modEnc n fun e => { e with illegal := true }).bump (maReg n Reg.INC_ERR_CNT)
  else (s.modEnc n fun e => { e with inc := wrap32 (if d = 1 then e.inc + 1 else e.inc - 1) }).fbMoved n

/-- The error of an index event, reduced modulo IDX_PERIOD (R319). -/
def idxError (c ex : Int) (per : Nat) : Int :=
  let r := wrap32 (c - ex)
  if per = 0 then r else (r + per / 2) % (per : Int) - per / 2

/-- A rising edge of filtered Z, ZPOL applied (R319). -/
def State.indexEvent (s : State) (n : Ma) : State :=
  let cfg := s.maR n Reg.IDX_CFG
  let s := s.modEnc n fun e => { e with pz := !bit cfg 3 }
  let e := s.ma[n].e
  if fld cfg 0 2 = 0 ∨ (bit cfg 2 = true ∧ (e.pa && e.pb) = false) then s
  else
    let c := wrap32 e.inc
    let s := (s.modEnc n fun e => { e with idxLast := intW c }).bump (maReg n Reg.IDX_CNT)
    let once := fld cfg 0 2 == 2
    if s.encSrc n ≠ 3 ∨ (once && !e.idxArmed) = true then s
    else
      let r := idxError c (s.maR n Reg.IDX_EXPECT).toInt (s.maR n Reg.IDX_PERIOD).toNat
      if r.natAbs ≤ (s.maR n Reg.IDX_WIN).toNat then
        let x := wrap32 (c - r)
        let s := s.modEnc n fun e => { e with inc := x, idxBad := false, idxCorr := r != 0, idxArmed := e.idxArmed && !once }
        if r = 0 then s
        else
          let s := s.logPush .hw false (0xB0 + n.val + 4 * 65536) 0x15 (intW r) (intW x)
          if bit (s.maR n Reg.CMP_CFG) 3 then s else s.cmpJump n
      else (s.modEnc n fun e => { e with idxBad := true, idxCorr := false }).bump (maReg n Reg.IDX_BAD_CNT)

/-- IDX_STATUS. -/
def EncU.idxStatus (e : EncU) : Nat := bitAt e.idxArmed 0 + bitAt e.idxBad 1 + bitAt e.idxCorr 2

/-! The boundary. -/

/-- R309: the encoder position of the stoke against POS, before the position moves on. -/
def State.devStep (s : State) (n : Ma) : State :=
  let mx := (s.maR n Reg.DEV_MAX).toNat
  let e := s.ma[n].e
  let p : Option Int := match s.encSrc n with
    | 0 => none
    | 3 => if e.illegal then none else some e.incB
    | _ => match e.read with
      | some r => if r.cause = 0 then some r.pos.toInt else none
      | none => none
  match p with
  | none => s
  | some p =>
    if mx = 0 then s
    else
      let d := (Q.ofInt p).sub ((qOfF (s.maR n Reg.DEV_SCALE)).mul (Q.ofInt (microOf (s.ma[n].m).acc)))
      let bad := (Q.ofInt (mx : Nat)).lt d.abs
      let s := s.modMa n fun u => { u with dev := intW (clampI (-2147483648) 2147483647 d.rne), devBad := bad, devRun := if bad then u.devRun + 1 else 0 }
      if 3 ≤ (s.ma[n].m).devRun ∧ (s.ma[n].m).all.testBit 3 = false then s.maFault n 4 s.motC else s

/-- The read of the stoke that ends, or its incremental track, is judged (R316). -/
def State.encEnd (s : State) (n : Ma) : State :=
  let e := s.ma[n].e
  let s := match s.encSrc n, e.read with
    | 3, _ => if e.illegal then s.encInvalid n 5 else s.modEnc n fun e => { e with valid := true, cause := 0, slip := false, invalid := 0 }
    | 0, _ => s
    | _, some r => (if r.cause = 0 then s.encValid n r else (s.encInvalid n r.cause).bump (maReg n (encCnt r.cause))).modEnc n fun e => { e with stat := r.stat }
    | _, none => s.modEnc n fun e => { e with slip := false }
  let jump := (s.ma[n].e).slip || (e.first && !(s.ma[n].e).first) || (e.offNew && !(s.ma[n].e).offNew)
  let s := if bit (s.maR n Reg.CMP_CFG) 3 || (s.ma[n].c).armDue then s else if jump then s.cmpJump n else s.cmpMove n (s.fbNow n) s.motC
  let fb := intW (s.fbNow n)
  s.modEnc n fun e => { e with read := none, incB := e.inc, illegal := false, fbB := fb }

/-- Arms and disarms of the boundary; the next stoke's clocks count from 0 (R323, R327). -/
def State.cmpBoundary (s : State) (n : Ma) : State :=
  let u := s.ma[n].c
  let jumped := bit (s.maR n Reg.CMP_CFG) 3 && decide (microOf (s.ma[n].m).acc ≠ u.p)
  let c : Int := (s.motC : Nat)
  let s := s.modCmp n fun c' => { c' with clk := 0, until_ := if c'.until_ < -100000 then c'.until_ else c'.until_ - c }
  let s : State := { s with now := 0 }
  let s := if u.armDue then s.cmpArm n else if jumped then s.cmpJump n else s
  s.modCmp n fun c => { c with armDue := false, disDue := false, armed := c.armed && !u.disDue }

/-- Before RUN arms and disarms act at once (R32). -/
def State.cmpNow (s : State) (n : Ma) : State :=
  let u := s.ma[n].c
  let s := if u.armDue then s.cmpArm n else s
  s.modCmp n fun c => { c with armDue := false, disDue := false, armed := c.armed && !u.disDue }

/-- The end of the stoke for one axis: compare, encoder, deviation, motion. -/
def State.motorEnd (s : State) (n : Ma) (i : MaIn) : State :=
  let s := (s.cmpRun n (if (s.ma[n].c).armDue then s.motC - 1 else s.motC)).devStep n
  let s := s.maEnd n i
  let s := s.encEnd n
  s.maStops n

/-- The beginning of the next one. -/
def State.motorBegin (s : State) (n : Ma) : State :=
  let now := s.now
  let c : Int := (s.stokeCyc : Nat)
  let s := (s.maBegin n).cmpBoundary n
  let s := s.modFwd n fun f => { f with highAt := f.highAt.map fun t => if t < -80000000 then t else t - c }
  { s with now := now }

/-! Probes (R320, R321). -/

/-- A probe unit triggers at the present instant. -/
def State.prbTrigger (s : State) (u : Fin 4) : State :=
  let p := s.prb[u]
  let s := s.bump (prbReg (Reg.PRB_CNT + 4 * u.val))
  let s := if p.full then s.bump (prbReg (Reg.PRB_LOST_CNT + 4 * u.val)) else s
  if p.full && !bit (s.reg (prbReg (Reg.PRB_CFG + 4 * u.val))) 16 then s
  else
    let m := s.now / 8
    let ps := all8.map fun (n : Ma) => intW (microOf ((s.ma[n].m).accAt m))
    let fs := all8.map fun (n : Ma) => intW (s.fbNow n)
    let p' : PrbU := { p with full := true, stoke := s.stoke32, clk := m, pos := ps, fb := fs }
    { s with prb := s.prb.set u.val p' u.isLt }

/-- A filtered edge of a probe pin whose raw edge came at the present instant; whether it triggers the unit. -/
def State.prbEdge (s : State) (u : Fin 4) (level : Bool) : State × Bool :=
  let cfg := s.reg (prbReg (Reg.PRB_CFG + 4 * u.val))
  let p := s.prb[u]
  let s := ({ s with prb := s.prb.set u.val { p with level := level } u.isLt }).evPulse (0x18 + u.val)
  let hit := bit cfg 0 && !bit cfg 1 && (if level then bit cfg 2 else bit cfg 3)
  (if hit then s.prbTrigger u else s, hit)
/-- The event matrix reaches a probe unit; whether it triggers. -/
def State.prbEvent (s : State) (u : Fin 4) : State × Bool :=
  let cfg := s.reg (prbReg (Reg.PRB_CFG + 4 * u.val))
  let hit := bit cfg 0 && bit cfg 1
  (if hit then s.prbTrigger u else s, hit)
/-- A trigger of the unit falls in the present clock. -/
def State.prbSame (s : State) (u : Fin 4) : Bool :=
  (s.clkNote (prbReg (Reg.PRB_CNT + 4 * u.val))).isSome || (s.prb[u].stoke == s.stoke32 && s.prb[u].clk == s.now / 8)
/-- PRB_CTRL.REARM: a trigger in the same clock stands (R321). -/
def State.prbRearm (s : State) (v : Word) : State :=
  { s with prb := all4.foldl (fun (a : Vector PrbU 4) (u : Fin 4) =>
    if bit v u.val && !s.prbSame u then a.set u.val { a[u] with full := false } u.isLt else a) s.prb }

/-! Passthrough (R326). -/

/-- An edge of ENCn_FWDCK. -/
def State.fwdEdge (s : State) (n : Ma) (rise : Bool) : State :=
  if s.maF n Reg.FWD_CFG 0 2 ≠ 1 then s
  else
    let e := s.ma[n].e
    let t : Int := (s.now : Nat)
    let len := frameBits (s.maR n Reg.ENC_FRAME)
    s.modFwd n fun f =>
      if rise then
        match f.bits with
        | some (b :: r) => { f with bits := some r, pin := b, highAt := some t }
        | some [] => { f with pin := false, highAt := some t }
        | none => { f with highAt := some t }
      else
        match f.bits with
        | none => if e.rawOk then { f with bits := some (bitsMsb len e.rawBits), highAt := none } else { f with highAt := none }
        | some [] => { f with pin := false, highAt := none }
        | some _ => { f with highAt := none }

/-- FWDCK has been high for FWD_MONO after the last bit. -/
def State.fwdMono (s : State) (n : Ma) : State :=
  let f := s.ma[n].f
  match f.bits, f.highAt with
  | some [], some t =>
    if t + (800 * s.maF n Reg.FWD_CFG 8 8 : Nat) ≤ (s.now : Int) then
      let ok := (s.ma[n].e).rawOk
      s.modFwd n fun f => { f with bits := none, pin := ok }
    else s
  | _, _ => s

/-- ENCn_FWD, ENCn_FWDB and ENCn_FWDZ. -/
def State.fwdPins (s : State) (n : Ma) : Bool × Bool × Bool :=
  let e := s.ma[n].e
  match s.maF n Reg.FWD_CFG 0 2 with
  | 1 => ((s.ma[n].f).pin, false, false)
  | 2 => (e.pa, e.pb, e.pz)
  | _ => (false, false, false)

/-- What a committed write to an encoder, index, compare or passthrough register does beside storing its value; `old` is the value before. -/
def State.encWrote (s : State) (n : Ma) (o : Nat) (old v : Word) : State :=
  if o = Reg.ENC_CFG then s.modEnc n fun e => { e with first := true, tried := false, read := none, invalid := 0, rawOk := false }
  else if o = Reg.ENC_OFFSET then if old = v then s else s.modEnc n fun e => { e with offNew := true }
  else if o = Reg.CMP_CFG ∨ o = Reg.CMP_VAL ∨ o = Reg.CMP_SPACE ∨ o = Reg.CMP_COUNT then
    if old = v ∨ (s.ma[n].c).armed = false then s else s.modCmp n fun c => { c with armDue := true }
  else if o = Reg.CMP_CTRL then s.modCmp n fun c => { c with armDue := c.armDue || bit v 0, disDue := c.disDue || bit v 1 }
  else if o = Reg.IDX_CTRL then if bit v 0 then s.modEnc n fun e => { e with idxArmed := true } else s
  else if o = Reg.FWD_CFG then
    let ok := (s.ma[n].e).rawOk && fld v 0 2 == 1
    s.modFwd n fun _ => { bits := none, pin := ok, highAt := none }
  else s

/-- The registers of R327 that show state. -/
def State.encRead (s : State) (n : Ma) (o : Nat) : Option Word :=
  let e := s.ma[n].e
  let c := s.ma[n].c
  if o = Reg.ENC_STATUS then some (toW e.status)
  else if o = Reg.ENC_POS then some e.pos
  else if o = Reg.FB_POS then some e.fbB
  else if o = Reg.ENC_RAW_LO then some (toW e.rawBits)
  else if o = Reg.ENC_RAW_HI then some (toW (e.rawBits / 4294967296 % 8388608))
  else if o = Reg.INC_CNT then some (intW e.incB)
  else if o = Reg.IDX_STATUS then some (toW e.idxStatus)
  else if o = Reg.IDX_LAST then some e.idxLast
  else if o = Reg.CMP_STATUS then some (toW (s.cmpStatus n))
  else if o = Reg.CMP_NEXT then some (intW c.v)
  else if o = Reg.CMP_LEFT then some c.left
  else none

/-- The registers of R328 that show state. -/
def State.prbRead (s : State) (o : Nat) : Option Word :=
  let unit (k : Nat) : Fin 4 := ⟨k % 4, Nat.mod_lt _ (by decide)⟩
  if o = Reg.PRB_STATUS then
    some (toW (all4.foldl (fun (a : Nat) (u : Fin 4) => a + bitAt s.prb[u].full u.val + bitAt s.prb[u].level (4 + u.val)) 0))
  else if 0x20 ≤ o ∧ o < 0x30 then some s.prb[unit ((o - 0x20) / 4)].stoke
  else if 0x30 ≤ o ∧ o < 0x40 then some (toW s.prb[unit ((o - 0x30) / 4)].clk)
  else if 0x100 ≤ o ∧ o < 0x200 then
    let p := s.prb[unit ((o - 0x100) / 0x40)]
    let i := (o % 0x40) / 4
    some (if i < 8 then nthD p.pos i 0#32 else nthD p.fb (i - 8) 0#32)
  else none

end Sys2Proof.Machine
end

