-- ==== Sys2Proof/Machine/Tags.lean ====
section
/-! DEFINITION. Consumables: the tag bus, authentication, accounting, write-back, expiry and host transfers (R341–R353). -/

namespace Sys2Proof.Machine
open Sys2Proof

/-- Change a tag. -/
def State.modTag (s : State) (g : Fin 26) (f : TagU → TagU) : State := { s with tags := { s.tags with tag := s.tags.tag.set g.val (f s.tags.tag[g]) g.isLt } }
/-- The tag of a channel's window. -/
def winTag (c : Ch) : Fin 26 := ⟨c.val, by omega⟩
/-- The tags 0 … 25. -/
def allTags : List (Fin 26) := List.finRange 26
/-- A tag is a window's. -/
def isWin (g : Fin 26) : Bool := decide (g.val < 24)

/-- The codes of TAG_STATE. -/
def TagSt.code : TagSt → Nat
  | .absent => 0
  | .checking => 1
  | .ready => 2
  | .expired => 3
  | .rejected => 4
/-- TAG_STATE[t]. -/
def TagU.word (u : TagU) : Nat := u.st.code + bitAt u.held 3 + u.cause * 16
/-- A tag changes its state, which is logged and raises the consumables interrupt (R346). -/
def State.tagState (s : State) (g : Fin 26) (st : TagSt) (cause : Nat) : State :=
  let old := s.tags.tag[g]
  if old.st = st ∧ old.cause = cause then s
  else
    let s := s.modTag g fun u => { u with st := st, cause := cause }
    let w := (s.tags.tag[g]).word
    (s.logEvent 0xC7 g.val 1 old.word w).raiseEv 0xC7 g.val cause w

/-- The working count A as a whole number (log entry 14). -/
def TagU.aNat (u : TagU) : Nat := (dToInt 0 18446744073709551615 u.a).toNat

/-! The bus (R341, R342). -/

/-- A frame with its CRC, high byte first. -/
def tagFrame (bs : List Byte) : List Byte := let c := crc16 bs; bs ++ [c.extractLsb' 8 8, c.extractLsb' 0 8]
/-- The data of the first of four tries that came back whole: `n` bytes and a good CRC. -/
def tagResp (n : Nat) (frames : List (List Byte)) : Option (List Byte) :=
  (frames.take 4).findSome? fun f => if f.length = n + 2 ∧ tagFrame (f.take n) = f then some (f.take n) else none
/-- A request goes out. -/
def State.tagSend (s : State) (g : Fin 26) (bs : List Byte) : State := s.out (.tag g.val (tagFrame bs))
/-- A READ request. -/
def tagReadReq (a n : Nat) : List Byte := [0xA5#8] ++ b16 a ++ [b8 n]
/-- A transaction fails (R341). -/
def State.tagErr (s : State) (g : Fin 26) : State := s.bump (tagReg (Reg.TAG_ERR_CNT + 4 * g.val))

/-- The counter record that a write-back stores (R344). -/
def TagU.record (u : TagU) (w : TagWb) : List Byte :=
  let body := b32 (u.seq + 1) ++ bytesOfNatLE 8 w.a ++ bytesLE w.b ++ b32 (u.layers + w.layers) ++ b32 (bitAt (u.flag || w.expired) 0) ++ bz 4
  body ++ bytesLE (crc32 body)
/-- The address of the other copy (R344). -/
def TagU.other (u : TagU) : Nat := 0xC0 + 0x20 * (1 - u.copy)

/-- XFER_CTRL. -/
def State.xferCtrl (s : State) : Word := s.reg (tagReg Reg.XFER_CTRL)
/-- The bytes of XFER_DATA. -/
def State.xferBytes (s : State) : List Byte := (List.range 16).flatMap fun w => bytesLE (s.reg (tagReg (Reg.XFER_DATA + 4 * w)))
/-- The request of a host transfer after `done` bytes. -/
def State.xferSend (s : State) (g : Fin 26) (done : Nat) : State :=
  let c := s.xferCtrl
  let a := 0x100 + fld c 16 11 + done
  if bit c 30 then s.tagSend g ([0x5A#8] ++ b16 a ++ (((s.xferBytes.take (fld c 8 8)).drop done ++ bz 32).take 32)) else s.tagSend g (tagReadReq a (fld c 8 8))

/-- The next transaction due on a bus starts: write-back, authentication, poll, host transfer (R342). -/
def State.tagNext (s : State) (g : Fin 26) : State :=
  let u := s.tags.tag[g]
  if u.job ≠ .none then s
  else match u.wb, u.held with
    | some w, false => (s.modTag g fun u => { u with job := .write w, wb := none }).tagSend g ([0x5A#8] ++ b16 u.other ++ u.record w)
    | _, _ =>
      if u.authDue then (s.modTag g fun u => { u with job := .auth [], authDue := false }).tagSend g (tagReadReq 0 64)
      else if u.pollDue then (s.modTag g fun u => { u with job := .poll, pollDue := false }).tagSend g [0x33#8]
      else if u.xferDue then (s.modTag g fun u => { u with job := .xfer 0, xferDue := false }).xferSend g 0
      else s
/-- A transaction has ended. -/
def State.tagDone (s : State) (g : Fin 26) : State := (s.modTag g fun u => { u with job := .none }).tagNext g

/-- The 100 ms poll of an enabled tag falls due. -/
def State.tagPoll (s : State) (g : Fin 26) : State :=
  if bit (s.reg (tagReg Reg.TAG_EN)) g.val ∧ s.boot.inReset = false then (s.modTag g fun u => { u with pollDue := true }).tagNext g else s

/-- READ_ID is answered, or not (R342). -/
def State.tagReadId (s : State) (g : Fin 26) (frames : List (List Byte)) : State :=
  let u := s.tags.tag[g]
  if u.job ≠ .poll then s
  else
    let s := match tagResp 8 frames with
      | none =>
        let s := (s.tagErr g).modTag g fun u => { u with fails := min 3 (u.fails + 1) }
        if 2 ≤ u.fails ∧ u.st ≠ TagSt.absent then
          (s.modTag g fun u => { u with seen := none, held := u.wb.isSome, authDue := false }).tagState g .absent 0
        else s
      | some d =>
        let id := natLE d
        let s := s.modTag g fun u => { u with fails := 0, seen := some id }
        if u.st = TagSt.absent ∨ u.seen ≠ some id then (s.modTag g fun u => { u with authDue := true }).tagState g .checking 0 else s
    s.tagDone g

/-- READ is answered, or not. -/
def State.tagRead (s : State) (g : Fin 26) (frames : List (List Byte)) : State :=
  match (s.tags.tag[g]).job with
  | .auth mem =>
    match tagResp 64 frames with
    | none => (s.tagErr g).modTag g fun u => { u with job := .judge none }
    | some d =>
      let m := mem ++ d
      if m.length < 256 then (s.modTag g fun u => { u with job := .auth m }).tagSend g (tagReadReq m.length 64)
      else
        let ch := Config.freeBytes s.free
        let s : State := { s with free := s.free + 1 }
        (s.modTag g fun u => { u with job := .sign m ch }).tagSend g ([0xC3#8] ++ ch)
  | .xfer _ =>
    if bit s.xferCtrl 30 then s
    else
      let s : State := match tagResp (fld s.xferCtrl 8 8) frames with
        | none => { (s.tagErr g) with tags := { (s.tagErr g).tags with busy := false, fail := true } }
        | some d =>
          let ws := wordsLE (d ++ s.xferBytes.drop d.length)
          let s := ws.zipIdx.foldl (fun (s : State) x => s.setReg (tagReg (Reg.XFER_DATA + 4 * x.2)) x.1) s
          { s with tags := { s.tags with busy := false, done := true } }
      s.tagDone g
  | _ => s

/-- SIGN is answered, or not. -/
def State.tagSign (s : State) (g : Fin 26) (frames : List (List Byte)) : State :=
  match (s.tags.tag[g]).job with
  | .sign m ch =>
    match tagResp 64 frames with
    | none => (s.tagErr g).modTag g fun u => { u with job := .judge none }
    | some d => s.modTag g fun u => { u with job := .judge (some (m, ch, d)) }
  | _ => s

/-! Expiry and write-back (R348–R350). -/

/-- R350. -/
def TagU.expires (u : TagU) (g : Fin 26) : Bool :=
  let la := (Q.ofInt (u.limA.toNat * (if isWin g then 1000 else 1000000) : Nat)).toD
  u.flag || dle la u.a || (if isWin g then fle u.limB u.b else decide (u.limB.toNat ≤ u.b.toNat))

/-- The banked copy of a tag's count (R349). -/
def State.tagBank (s : State) (g : Fin 26) : State :=
  let u := s.tags.tag[g]
  match u.id with
  | none => s
  | some id => { s with bank := { s.bank with tags := s.bank.tags.set g.val (some (BitVec.ofNat 64 id, BitVec.ofNat 64 u.aNat, u.b.zeroExtend 64)) g.isLt } }

/-- A write-back takes the working count (R348); `n` is the increment of LAYERS. -/
def State.tagWriteBack (s : State) (g : Fin 26) (n : Nat) : State :=
  let u := s.tags.tag[g]
  if u.id.isNone then s
  else
    let ex := u.expires g
    let old : Nat := match u.wb with
      | some w => w.layers
      | none => 0
    let held := u.held || u.st == .absent || u.seen != u.id
    let s := s.modTag g fun u => { u with wb := some ⟨u.aNat, u.b, old + n, ex⟩, held := held }
    let s := s.tagBank g
    let s := if ex ∧ held = false ∧ u.st = .ready then s.tagState g .expired 0 else s
    s.tagNext g

/-- WRITE is answered, or not: the record is current, or its write is held (R344, R348); a host transfer goes on. -/
def State.tagWrote (s : State) (g : Fin 26) (frames : List (List Byte)) : State :=
  let u := s.tags.tag[g]
  let ok := match tagResp 1 frames with
    | some d => decide (d = [0#8])
    | none => false
  match u.job with
  | .write w =>
    let s : State :=
      if ok then
        s.modTag g fun u => { u with seq := u.seq + 1, copy := 1 - u.copy, layers := u.layers + w.layers, recA := w.a,
                                     flag := u.flag || w.expired, held := false }
      else
        (s.tagErr g).modTag g fun u =>
          { u with held := true,
                   wb := some (match u.wb with
                     | none => w
                     | some n => { n with layers := n.layers + w.layers, expired := n.expired || w.expired }) }
    s.tagDone g
  | .xfer n =>
    if !bit s.xferCtrl 30 then s
    else if ok = false then
      let s := s.tagErr g
      ({ s with tags := { s.tags with busy := false, fail := true } }).tagDone g
    else if n + 32 < fld s.xferCtrl 8 8 then (s.modTag g fun u => { u with job := .xfer (n + 32) }).xferSend g (n + 32)
    else ({ s with tags := { s.tags with busy := false, done := true } }).tagDone g
  | _ => s

/-! Authentication (R345). -/

/-- The valid copies of the counter record: copy, SEQ (R344). -/
def tagCopies (mem : List Byte) : List (Nat × Nat) :=
  [0, 1].filterMap fun k =>
    let r := (mem.drop (0xC0 + 0x20 * k)).take 32
    if bytesLE (crc32 (r.take 28)) = r.drop 28 then some (k, natLE (r.take 4)) else none
/-- The current copy. -/
def tagCurrent (mem : List Byte) : Option (Nat × Nat) :=
  match tagCopies mem with
  | [] => none
  | [x] => some x
  | x :: y :: _ => if x.2 < y.2 then some y else some x

/-- The issuer key of a slot, 64 bytes; none where it is empty (R353). -/
def State.issuerKey (s : State) (k : Nat) : Option (List Byte) :=
  if 4 ≤ k then none
  else
    let ws := (List.range 16).map fun w => s.reg (tagReg (Reg.TAG_ISSUER + 64 * k + 4 * w))
    if ws.all (· == 0#32) then none else some (ws.flatMap bytesBE)

/-- The cause that authentication fails with; 0 is a pass. -/
def State.tagJudge (s : State) (g : Fin 26) (id : Nat) (r : Option (List Byte × List Byte × List Byte)) : Nat :=
  match r with
  | none => 5
  | some (mem, ch, sig) =>
    let idb := bytesOfNatLE 8 id
    if nthD mem 2 0 ≠ (if isWin g then 1#8 else 2#8) then 2
    else match s.issuerKey (nthD mem 3 0).toNat with
      | none => 6
      | some key =>
        let cert := (mem.drop 0x80).take 64
        if !ecdsaOk (sha256 (idb ++ mem.take 0x80)) key (natBE (cert.take 32)) (natBE (cert.drop 32)) then 3
        else match tagCurrent mem with
          | none => 1
          | some c =>
            let pub := (mem.drop 0x40).take 64
            if ecdsaOk (sha256 (ch ++ idb ++ b32 c.2)) pub (natBE (sig.take 32)) (natBE (sig.drop 32)) then 0 else 4

/-- A held delta of another ID is discarded (R348). -/
def State.tagDiscard (s : State) (g : Fin 26) : State :=
  let u := s.tags.tag[g]
  match u.wb with
  | none => s
  | some w =>
    let d := w.a - u.recA
    let a := if h : g.val < 24 then chReg ⟨g.val, h⟩ Reg.WIN_LOST_MJ else tagReg (Reg.BL_LOST + 4 * (g.val - 24))
    let s := (s.addCnt a d).logPush .hw false (0xC7 + g.val * 256 + 2 * 65536) 0x15 0#32 (satU32 d)
    s.modTag g fun u => { u with wb := none, held := false }

/-- A pass: the record, the working count and the limits are taken (R347–R349). -/
def State.tagPass (s : State) (g : Fin 26) (id : Nat) (mem : List Byte) : State :=
  let u := s.tags.tag[g]
  let c := (tagCurrent mem).getD (0, 0)
  let r := (mem.drop (0xC0 + 0x20 * c.1)).take 32
  let ra := natLE ((r.drop 4).take 8)
  let rb := toW (natLE ((r.drop 12).take 4))
  let new := decide (u.id ≠ some id)
  let s := if new then s.tagDiscard g else s
  let bank : Option (Nat × Word) := match s.bank.tags[g] with
    | some (i, a, b) => if u.fresh ∧ i.toNat = id ∧ ra < a.toNat then some (a.toNat, b.truncate 32) else none
    | none => none
  let a0 := (Q.ofInt ((match bank with
    | some x => x.1
    | none => ra) : Nat)).toD
  let b0 := match bank with
    | some x => x.2
    | none => rb
  let s := s.modTag g fun u =>
    { u with id := some id, a := if new then a0 else u.a, b := if new then b0 else u.b, seq := c.2, copy := c.1,
             layers := natLE ((r.drop 16).take 4), recA := ra, limA := toW (natLE ((mem.drop 4).take 4)),
             limB := toW (natLE ((mem.drop 8).take 4)), flag := (natLE ((r.drop 20).take 4)) % 2 == 1, held := false, fresh := false }
  let u' := s.tags.tag[g]
  let s := if u'.st = TagSt.expired then s else s.tagState g (if u'.expires g then TagSt.expired else TagSt.ready) 0
  if new ∧ bank.isSome = true then s.tagWriteBack g 0 else s

/-- The authentication that has read all it needs gives its result. -/
def State.tagAuth (s : State) (g : Fin 26) : State :=
  let u := s.tags.tag[g]
  match u.job, u.seen with
  | .judge r, some id =>
    let s := s.modTag g fun u => { u with job := .none }
    let cause := s.tagJudge g id r
    let s := match cause, r with
      | 0, some (mem, _, _) => s.tagPass g id mem
      | _, _ => if u.st = TagSt.expired then s else s.tagState g .rejected cause
    s.tagNext g
  | .judge _, none => s.tagDone g
  | _, _ => s

/-- Authentication is requested of a tag that answers (R345, R346). -/
def State.tagAuthReq (s : State) (g : Fin 26) : State :=
  let u := s.tags.tag[g]
  if u.st = .absent then s
  else
    let s := if u.st = .rejected then s.tagState g .checking 0 else s
    (s.modTag g fun u => { u with authDue := true }).tagNext g

/-- TAG_AUTH_INT seconds have passed since an authentication. -/
def State.tagInterval (s : State) (g : Fin 26) : State :=
  let u := s.tags.tag[g]
  if u.st = .ready ∨ u.st = .expired then (s.modTag g fun u => { u with authDue := true }).tagNext g else s

/-- The tag that a field names. -/
def tagOf (v : Nat) : Fin 26 := ⟨v % 26, Nat.mod_lt _ (by decide)⟩
/-- A write of TAG_CTRL. -/
def State.tagCtrl (s : State) (v : Word) : State :=
  if 26 ≤ fld v 0 5 then s
  else
    let g := tagOf (fld v 0 5)
    let s := if bit v 8 then s.tagAuthReq g else s
    if bit v 9 then s.tagWriteBack g 0 else s

/-- A host transfer lies in USER, and none is in progress (R353). -/
def State.xferOk (s : State) (v : Word) : Bool :=
  !bit v 31 || (decide (fld v 16 11 + fld v 8 8 ≤ 1792) && !s.tags.busy)
/-- A write of XFER_CTRL that has been stored. -/
def State.xferGo (s : State) (v : Word) : State :=
  if bit v 31 then
    let g := tagOf (fld v 0 5)
    (({ s with tags := { s.tags with busy := true, done := false, fail := false } }).modTag g fun u => { u with xferDue := true }).tagNext g
  else s

/-! Accounting (R347). -/

/-- The window of a channel takes the energy of the stoke that ends (R169, R347). -/
def State.winDose (s : State) (c : Ch) : State :=
  if s.las[c].arm = .disarmed ∨ (s.tags.tag[winTag c]).id.isNone = true then s
  else
    let mj := ((qOfF (s.reg (chReg c Reg.MON_W_SCALE))).mul (Q.ofInt (s.las[c].monMean : Nat))).mul (Q.mk' (s.stokeCyc * 5 : Nat) 4000000)
    s.modTag (winTag c) fun u => { u with a := dadd u.a mj.toD }

/-- The contamination index of a channel's window in the stoke that ends; `em` says whether the stoke before was emitting, `pw`
is POWER_PLAYED, `dB` is D_B. -/
def State.winCi (s : State) (c : Ch) (em : Bool) (pw : Nat) (dB : Word) : State :=
  let p := s.loop[c].pdB
  if !em ∨ p.valid = false ∨ pw < fld (s.reg (chReg c Reg.CI_PMIN)) 0 16 ∨ (s.tags.tag[winTag c]).id.isNone = true then s
  else
    let x := fdiv (fmul (s.reg (chReg c Reg.CI_GAIN)) (fsub (fOfInt (p.mean : Nat)) dB)) (fOfInt (pw : Nat))
    let al := s.reg (chReg c Reg.CI_ALPHA)
    s.modTag (winTag c) fun u => { u with b := fadd u.b (fmul al (fsub x u.b)) }

/-- Blade b of the two. -/
def bladeTag (b : Fin 2) : Fin 26 := ⟨24 + b.val, by omega⟩
/-- A field of a blade in BL_CFG. -/
def State.blF (s : State) (b : Fin 2) (lo n : Nat) : Nat := fld (s.reg (tagReg Reg.BL_CFG)) (8 * b.val + lo) n
/-- The blades travel with their axes in the stoke that ends (R347). -/
def State.bladeTravel (s : State) : State :=
  [(0 : Fin 2), 1].foldl (fun (s : State) (b : Fin 2) =>
    let n : Ma := ⟨s.blF b 0 3 % 8, Nat.mod_lt _ (by decide)⟩
    let m := s.ma[n].m
    let d := (wrap32 (microOf (m.accAt s.motC) - microOf m.acc)).natAbs
    if (s.tags.tag[bladeTag b]).id.isNone ∨ d = 0 then s
    else
      let um := dmul (dOfInt (d : Nat)) (dOfF (s.reg (tagReg (Reg.BL_UM_PER_USTEP + 4 * b.val))))
      s.modTag (bladeTag b) fun u => { u with a := dadd u.a um }) s
/-- A probe unit has triggered: a contact for each blade that names it (R347). -/
def State.bladeContact (s : State) (p : Fin 4) : State :=
  [(0 : Fin 2), 1].foldl (fun (s : State) (b : Fin 2) =>
    if s.blF b 3 2 = p.val ∧ (s.tags.tag[bladeTag b]).id.isSome = true then s.modTag (bladeTag b) fun u => { u with b := satU32 (u.b.toNat + 1) }
    else s) s

/-- Every 65,536 stokes the banked counts are updated (R349). -/
def State.bankMirror (s : State) : State := allTags.foldl (fun (s : State) (g : Fin 26) => s.tagBank g) s
/-- Blade records are written back where no local channel remains in layer (R348). -/
def State.bladeWriteBack (s : State) : State := [(0 : Fin 2), 1].foldl (fun (s : State) (b : Fin 2) => s.tagWriteBack (bladeTag b) 1) s

/-- R90 cause [10]: the window tag of a channel is READY. -/
def State.winReady (s : State) (c : Ch) : Bool := (s.tags.tag[winTag c]).st == .ready

/-! Ports and registers (R351–R353). -/

/-- The consumable ports. -/
def State.tagPort (s : State) (c : Ch) (p : Nat) : Option Word :=
  let u := s.tags.tag[winTag c]
  match p with
  | 0x340 => some (toW u.word)
  | 0x341 => some (lo32 u.aNat)
  | 0x342 => some (hi32 u.aNat)
  | 0x343 => some u.b
  | 0x344 => some u.limA
  | _ => none

/-- The window registers of a channel. -/
def State.winRead (s : State) (c : Ch) (o : Nat) : Option Word :=
  let u := s.tags.tag[winTag c]
  if o = Reg.WIN_ID_LO then some (lo32 (u.id.getD 0))
  else if o = Reg.WIN_ID_HI then some (hi32 (u.id.getD 0))
  else if o = Reg.WIN_DOSE_LO then some (lo32 u.aNat)
  else if o = Reg.WIN_DOSE_HI then some (hi32 u.aNat)
  else if o = Reg.WIN_CI_RD then some u.b
  else none

/-- The tag block's registers that show state. -/
def State.tagBlkRead (s : State) (o : Nat) : Option Word :=
  if 0x20 ≤ o ∧ o < 0x40 then
    let u := s.tags.tag[bladeTag ⟨(o - 0x20) / 16 % 2, Nat.mod_lt _ (by decide)⟩]
    match o % 16 with
    | 0 => some (lo32 (u.id.getD 0))
    | 4 => some (hi32 (u.id.getD 0))
    | 8 => some (satU32 (u.aNat / 1000))
    | _ => some u.b
  else if Reg.TAG_STATE ≤ o ∧ o < Reg.TAG_STATE + 104 then some (toW (s.tags.tag[tagOf ((o - Reg.TAG_STATE) / 4)]).word)
  else if o = Reg.XFER_STATUS then some (toW (bitAt s.tags.busy 0 + bitAt s.tags.done 1 + bitAt s.tags.fail 2))
  else none

end Sys2Proof.Machine
end

