-- ==== Sys2Proof/Machine/Layer.lean ====
section
/-! DEFINITION. Entries, layers and faults of a channel, and what of a program's stoke commits (R33, R34, R78, R87–R95, R270). -/

namespace Sys2Proof.Machine
open Sys2Proof

/-! Layers (R90–R92). -/

/-- The channel leaves layer: its window's count is written back, and the blades' once no channel is in layer (R344, R351). -/
def State.leaveLayer (s : State) (c : Ch) : State :=
  if s.ch[c].inLayer then
    let s := s.modCh c fun x => { x with inLayer := false }
    let s := s.tagWriteBack (winTag c) 1
    if s.anyLayer then s else s.bladeWriteBack
  else s

/-- R90 [12]: the device is a gang member: no timing master, with a stamp received or a lane port in use. -/
def State.isMember (s : State) : Bool :=
  !s.boot.gangTm && (s.gang.st != .solo || s.lanes.port[0].st != .off || s.lanes.port[1].st != .off)

/-- The refusal causes of a layer start, CH_STATE bit 8 first (R90). The window's is not evaluated in layer (R91). -/
def State.layerCauses (s : State) (c : Ch) : Nat :=
  bitAt (s.inFault c) 0 + bitAt (s.las[c].arm != .armed) 1 + bitAt (!s.ch[c].inLayer && !s.winReady c) 2 + bitAt (decide (3 ≤ s.hk.level)) 3
    + bitAt (s.gang.conflict || (s.isMember && s.gang.st != .locked)) 4 + bitAt s.ch[c].inLayer 5 + bitAt (s.vecStopped c) 6

/-- A layer start is requested for the boundary; two count as one. -/
def State.layerReq (s : State) (c : Ch) : State := s.modCh c fun x => { x with layerReq := true }

/-- The channel enters layer. -/
def State.enterLayer (s : State) (c : Ch) : State := s.modCh c fun x => { x with inLayer := true, layerNum := x.layerNum + 1#32 }

/-- The boundary evaluates a requested layer start (R90): true when it was accepted. DESIGN CHOICE (log 74): R90 lists no cause for
a stopped channel, so its start is accepted where none of the listed ones holds; a HALT drops a request that waits. -/
def State.layerStart (s : State) (c : Ch) : State × Bool :=
  if s.ch[c].layerReq then
    let s := s.modCh c fun x => { x with layerReq := false }
    let b := s.layerCauses c
    if b = 0 then (s.enterLayer c, true) else (s.modCh c fun x => { x with refused := true, refCause := b }, false)
  else (s, false)

/-! Faults (R94, R95). -/

/-- The lowest cause that has arisen; 0 is none. -/
def lowCause : List Nat → Nat
  | [] => 0
  | a :: r => let b := lowCause r; if b = 0 then a else min a b

/-- The channel enters fault at the boundary with the lowest of the causes that arose: true when it did. A channel in fault
stays with its cause. -/
def State.faultEnter (s : State) (c : Ch) : State × Bool :=
  let v := lowCause s.ch[c].faultDue
  let s := s.modCh c fun x => { x with faultDue := [] }
  if v = 0 ∨ s.inFault c then (s, false)
  else
    let u := s.eng[s.engOf c]
    let s := s.modCh c fun x =>
      { x with fault := v, faultTrap := v == 1, fRan := false, fTrap := false, fOvr := false,
               trapInfo := if v = 1 then toW (u.trapCode + 256 * u.trapAddr) else 0#32 }
    (((s.leaveLayer c).planWithdraw c).chCause c 5, true)

/-- FAULT_CTRL takes effect (R95). -/
def State.faultClear (s : State) (c : Ch) : State :=
  let x := s.ch[c]
  let s := s.modCh c fun x => { x with clearDue := false, resumeDue := false }
  if x.clearDue ∧ x.fault ≠ 0 then
    let s := (s.modLas c fun l => { l with fNow := false, fNext := false }).mirrorRestore c
    let s := s.modCh c fun x => { x with fault := 0, faultTrap := false, fRan := false, fTrap := false, fOvr := false, cleared := true, overruns := 0 }
    if x.resumeDue && s.las[c].arm == .armed then s.modCh c fun x => { x with inLayer := true } else s
  else s

/-! Start and stop (R89, R107). -/

/-- PROG_CTRL.RUN takes effect: the mirror window is cleared (R98) and the vector path restarts (R115). A cause of fault that arose in
the stoke that ends stands (R94). -/
def State.progRun (s : State) (c : Ch) (idx : Nat) : State :=
  if s.ch[c].running then s
  else ((s.modCh c fun x => { x with running := true, overruns := 0, overran := false }).mirrorClear c).vecRestart c idx

/-- PROG_CTRL.HALT takes effect; a layer start that waits is dropped (log 74). -/
def State.progHalt (s : State) (c : Ch) : State :=
  if s.ch[c].running then (s.leaveLayer c).modCh c fun x => { x with running := false, layerReq := false } else s

/-- The engine that runs the channel in the stoke that begins starts its entry (R89). DESIGN CHOICE (log 74): where R282 stopped the
channel and its own pair is retired, no engine is free for a FAULT entry, and none runs. -/
def State.entryStart (s : State) (c : Ch) (accepted faulted : Bool) : State :=
  match s.ch[c].active with
  | none => s
  | some m =>
    let e := s.engOf c
    if s.ch[c].running = false then s
    else if s.inFault c then
      if faulted then
        if m.entryFault = 0xFFFF ∨ s.clRuns c = false then s.modEng e fun u => { u with entry := .fault }
        else s.modEng e fun u => u.enter .fault m.entryFault
      else s
    else if s.clRuns c = false then s
    else if accepted && m.entryLayer != 0xFFFF then s.modEng e fun u => u.enter .layer m.entryLayer
    else s.modEng e fun u => u.enter .stoke m.entryStoke

/-- The snapshot of the next stoke is taken for a channel whose engine starts an entry. -/
def State.entryRuns (s : State) (c : Ch) : Bool := s.ch[c].running && s.eng[s.engOf c].run == .run

/-- Every engine is idle between stokes; the difference item stays until the boundary has read it. -/
def Core.rest (u : Core) : Core :=
  { u with run := .idle, cycle := 0, stall := 0, emqs := 0, gdqs := 0, popped := 0, emptyPops := 0, pend := [], loops := [], calls := [] }

/-! The end of a program's stoke (R33, R34, R87, R93, R270). -/

/-- How a stoke of a channel ended. -/
inductive StokeEnd where
  /-- nothing of it is lost: its entries ended, or none ran -/
  | good
  | overrun
  | trap
  | withheld
  /-- the FAULT entry did not complete -/
  | lost
  deriving DecidableEq, Repr

/-- An engine in the midst of an entry at the boundary has been stopped by its budget (R33). -/
def State.engStop (s : State) (c : Ch) : State :=
  let e := s.engOf c
  if s.eng[e].run = .run then s.engOver c e else s

/-- The end of the present stoke for a channel, `held` where its stoke is withheld. -/
def State.stokeEnd (s : State) (c : Ch) (held : Bool) : StokeEnd :=
  let u := s.eng[s.engOf c]
  if held then .withheld
  else match u.run with
    | .trapped => if u.entry = .fault then .lost else .trap
    | .overran => if u.entry = .fault then .lost else .overrun
    | .mismatched => .withheld
    | _ => .good

/-- ENG_CYC_LAST, ENG_CYC_MAX, ENG_STALL_LAST (R63, R88). -/
def State.engReport (s : State) (c : Ch) : State :=
  let u := s.eng[s.engOf c]
  let s := (s.setReg (chReg c Reg.ENG_CYC_LAST) (toW u.cycle)).setReg (chReg c Reg.ENG_STALL_LAST) (toW u.stall)
  s.setMax (chReg c Reg.ENG_CYC_MAX) u.cycle

/-- R33, R34: an overrun is counted; the second in a row is a fault. -/
def State.overrunCount (s : State) (c : Ch) : State :=
  let s := s.bump (stkReg (Reg.OVR_CNT + 4 * c.val))
  let s := s.setBits (stkReg Reg.OVR_FLAG) (toW (2 ^ c.val))
  let n := s.ch[c].overruns + 1
  let s := s.modCh c fun x => { x with overruns := n, overran := true, replay := true }
  if 2 ≤ n then s.faultDue c 2 else s

/-- What of a channel's stoke is kept or undone, its port writes apart: counts, the vector path, the mirror window. DESIGN CHOICE
(log 74): the spec does not say whether the stores of a completed FAULT entry into the mirror window are committed; they are not. -/
def State.stokeSettle (s : State) (c : Ch) (r : StokeEnd) : State :=
  let u := s.eng[s.engOf c]
  let s := ((s.engReport c).modCh c fun x => { x with overran := false }).modVec c fun v => { v with underrun := false }
  match r with
  | .good =>
    let s := (s.modCh c fun x => { x with overruns := 0 }).vecCommit c u.popped u.emptyPops s.ch[c].inLayer
    if s.ch[c].running ∧ u.entry ≠ .fault then s.mirrorCommit c else s
  | .overrun => (s.overrunCount c).mirrorRestore c
  | .trap => (s.faultDue c 1).mirrorRestore c
  | .withheld => if u.run = .overran then s.overrunCount c else s
  | .lost => s

/-- The gate masks that the stoke brings to its pin stoke, set once the next stoke has begun (R33, R87, R163). -/
def State.stokeMask (s : State) (c : Ch) (r : StokeEnd) : State :=
  match r with
  | .overrun => s.modLas c fun l => { l with mNext := true }
  | .withheld =>
    let h := s.creg c Reg.LAS_HOLD
    let latch := fld h 0 2 == 1
    s.modLas c fun l => { l with mNext := l.mNext || !latch, lNext := l.lNext || latch, zNext := l.zNext || bit h 2 }
  | .trap => s.modLas c fun l => { l with fNext := true }
  | .good | .lost => s

/-! Port commit (R78, R101). -/

/-- One staged PWR of stoke k takes effect, or joins the boundary's register writes. -/
def State.portCommit (s : State) (c : Ch) (k : Nat) (w : Nat × Word) : State :=
  let p := w.1
  let v := w.2
  if p = 0x020 then (if v = 1#32 then s.layerReq c else s)
  else if p = 0x021 then s
  else if p = 0x022 then (if v = 1#32 then s.evProgram (0xD0 + c.val) else s)
  else if p = 0x023 then (if v = 1#32 then s.modCh c fun x => { x with traceTrig := true } else s)
  else if p = 0x024 then (if v = 0#32 then s else s.faultDue c (0x40 + fld v 0 6))
  else if 0x030 ≤ p ∧ p ≤ 0x03F then s.modCh c fun x => { x with telem := x.telem.set (p - 0x030) v }
  else if 0x040 ≤ p ∧ p ≤ 0x04E then s
  else if (p = 0x080 ∨ p = 0x0C0 ∨ p = 0x100) ∧ s.taOwns c then s.taConflict c
  else if p = 0x2C6 then (if v = 1#32 then s.syncArrive c k else s)
  else if 0x2C0 ≤ p ∧ p ≤ 0x2C5 then s.syncWrite c p v
  else match s.progPort c p with
    | some a => { s with staged := s.staged ++ [⟨.core c, a, v, true, 0⟩] }
    | none => s

/-- The program has asked for the end of its layer in the stoke (R91). -/
def State.layerEnds (s : State) (c : Ch) : Bool := s.ch[c].stage.any fun w => w.1 == 0x021 && w.2 == 1#32

/-- Of the writes of one port without a register behind it, the last commits (R78); those of registers meet at the boundary (R31). -/
def stagedLast : List (Nat × Word) → List (Nat × Word)
  | [] => []
  | w :: r => if plainPort w.1 && r.any (fun x => x.1 == w.1) then stagedLast r else w :: stagedLast r

/-- The staged writes of the stoke in program order: the arrival counts the words committed with it, so it comes last. -/
def State.portsCommit (s : State) (c : Ch) (k : Nat) : State :=
  let l := stagedLast s.ch[c].stage
  let s := s.modCh c fun x => { x with stage := l }
  let s := (l.filter fun w => w.1 != 0x2C6).foldl (fun (s : State) w => s.portCommit c k w) s
  (l.filter fun w => w.1 == 0x2C6).foldl (fun (s : State) w => s.portCommit c k w) s

/-- The descriptor words of the stoke, once the setpoints have been committed by the descriptor in force (R122). -/
def State.taPorts (s : State) (c : Ch) : State :=
  (s.ch[c].stage.filter fun w => decide (0x040 ≤ w.1 ∧ w.1 ≤ 0x04E)).foldl (fun (s : State) w => s.taWrite c w.1 w.2) s

end Sys2Proof.Machine
end

