-- ==== Sys2Proof/Machine/Time.lean ====
section
/-! DEFINITION. Time and gang timing: PPS, TAI, stamps (R36–R50). -/

namespace Sys2Proof.Machine
open Sys2Proof

/-- R47: the codes of the gang states. -/
def GangState.code : GangState → Nat
  | .solo => 0
  | .align => 1
  | .locked => 2
  | .holdover => 3

/-- STOKE_STATUS. -/
def State.stokeStatus (s : State) : Nat :=
  bitAt s.time.running 0 + bitAt s.time.locked 1 + bitAt s.time.holdover 2 + bitAt s.time.unaligned 3 + s.gang.st.code * 16
    + bitAt s.gang.conflict 6 + bitAt s.gang.rateMismatch 7

/-- Change the time block's state. -/
def State.modTime (s : State) (f : TimeSt → TimeSt) : State := { s with time := f s.time }
/-- Change the gang timing. -/
def State.modGang (s : State) (f : GangSt → GangSt) : State := { s with gang := f s.gang }

/-! PPS (R39–R43). -/

/-- Quarters of a nanosecond in a second. -/
def secQ : Nat := 4000000000
/-- The counter's reading in quarters of a nanosecond. -/
def State.taiTotal (s : State) : Nat := s.tai.1 * secQ + s.tai.2
/-- The time counter reads `sec` seconds and 0 ns at the latest instant. -/
def State.setTai (s : State) (sec : Nat) : State :=
  let tot := (2 ^ 40 * secQ + sec * secQ - 5 * s.now % (2 ^ 40 * secQ)) % (2 ^ 40 * secQ)
  s.modTime fun x => { x with taiSec := tot / secQ, taiQ := tot % secQ }

/-- R39: arming. -/
def State.ppsArm (s : State) : State :=
  let sec := (s.reg (stkReg Reg.TAI_NEXT_SEC_LO)).toNat + 4294967296 * s.regF (stkReg Reg.TAI_NEXT_SEC_HI) 0 8
  s.modTime fun x => { x with armed := true, armSec := sec, autoArmed := false, locked := false, lockRun := 0, armAt := some s.now }

/-- A pulse is accepted, with the whole second expected of it: holdover and a run of rejected pulses end (R41, R43). -/
def State.ppsAccept (s : State) (sec : Nat) (one : Bool) : State :=
  let n := s.time.cnt
  ((s.bump (stkReg Reg.PPS_ACC_CNT)).evPulse 0x002).modTime fun x =>
    { x with holdover := false, rejRun := 0, rejLast := none, lastAcc := some sec, accAt := s.taiTotal,
             lastAccCnt := n, ppsStokes := if one then n - x.lastAccCnt else x.ppsStokes }

/-- R40: the first pulse after arming. -/
def State.ppsFirst (s : State) (sec : Nat) : State :=
  let old := s.tai.1
  let s := (s.setTai sec).modTime fun x => { x with armed := false, autoArmed := false, unaligned := false, lockRun := 0 }
  let s := { s with lanes := { s.lanes with headDue := s.lanes.headDue + 1, headSec := sec } }
  (s.ppsAccept sec false).logEvent 0xC0 0 1 old sec

/-- Two instants of the time counter lie one second apart, to within ±2,000 ns (R43). -/
def oneSecond (a b : Nat) : Bool := decide (a + secQ ≤ b + 8000 ∧ b ≤ a + secQ + 8000)

/-- A rejected pulse (R41) and its run (R43). -/
def State.ppsReject (s : State) : State :=
  let s := (s.bump (stkReg Reg.PPS_REJ_CNT)).modTime fun x => { x with lockRun := 0 }
  let t := s.taiTotal
  if bit (s.reg (stkReg Reg.PPS_CTRL)) 1 then
    let spaced := match s.time.rejLast with | none => false | some a => oneSecond a t
    let run := if spaced then s.time.rejRun + 1 else 1
    let s := s.modTime fun x => { x with rejRun := run, rejLast := some t }
    if 4 ≤ run then
      let old := s.stokeStatus
      let s := s.modTime fun x => { x with armed := true, autoArmed := true, rejRun := 0, locked := false, armAt := some s.now }
      s.logEvent 0xC0 0 3 old s.stokeStatus
    else s
  else s

/-- R41: the nearest whole second and the phase error in ns at the counter's reading. -/
def State.ppsPhase (s : State) : Nat × Int :=
  let ns := s.tai.2 / 4
  if ns < 500000000 then (s.tai.1, (ns : Int)) else (s.tai.1 + 1, (ns : Int) - 1000000000)

/-- R42: the correction at an accepted pulse, n seconds after the last. -/
def TimeSt.steer (x : TimeSt) (e : Int) (n : Nat) : TimeSt :=
  let f := x.freqEst - floorDiv e (2 * n)
  let run := if (-20 ≤ e ∧ e ≤ 20) then (if n = 1 then x.lockRun + 1 else 1) else 0
  { x with freqEst := f, slew := clampI (-50000) 50000 (f - e), lockRun := run,
           locked := decide (4 ≤ run) || (x.locked && decide (0 < run)) }

/-- A pulse judged by R41. -/
def State.ppsJudge (s : State) : State :=
  let (sec, e) := s.ppsPhase
  let s := s.modTime fun x => { x with phaseErr := e, locked := x.locked && decide (-20 ≤ e ∧ e ≤ 20) }
  let ok := decide (-2000 ≤ e ∧ e ≤ 2000) && (match s.time.lastAcc with | none => true | some a => decide (a < sec))
  if ok then
    let n := match s.time.lastAcc with | none => 1 | some a => sec - a
    let s := if s.boot.gangTm then s.modTime fun x => x.steer e n else s
    s.ppsAccept sec (n == 1)
  else s.ppsReject

/-- A rising edge of PPS_IN (R39–R43). -/
def State.ppsPulse (s : State) : State :=
  if s.boot.gangTm = false then
    let (sec, e) := s.ppsPhase
    let s := s.modTime fun x => { x with phaseErr := e }
    let ok := decide (-2000 ≤ e ∧ e ≤ 2000) && (match s.time.lastAcc with | none => true | some a => decide (a < sec))
    if ok then ((s.bump (stkReg Reg.PPS_ACC_CNT)).evPulse 0x002).modTime fun x => { x with lastAcc := some sec } else s.bump (stkReg Reg.PPS_REJ_CNT)
  else
    let here := match s.time.armAt with | none => false | some a => a == s.now
    if s.time.armed && !here then
      if s.time.autoArmed then
        let t := s.taiTotal
        let spaced := match s.time.rejLast with | none => true | some a => oneSecond a t
        if spaced then s.ppsFirst s.ppsPhase.1
        else (s.bump (stkReg Reg.PPS_REJ_CNT)).modTime fun x => { x with rejLast := some t, phaseErr := s.ppsPhase.2 }
      else s.ppsFirst s.time.armSec
    else if s.time.lastAcc.isSome then s.ppsJudge
    else s

/-- 1.5 s have passed without an accepted pulse, counted from reset where none has been accepted (R43). -/
def State.holdoverDue (s : State) : Bool :=
  s.boot.gangTm && !s.time.holdover && decide (s.time.accAt + 6000000000 ≤ s.taiTotal)
/-- R43: holdover. -/
def State.ppsHoldover (s : State) : State :=
  if s.holdoverDue then
    let old := s.stokeStatus
    let s := (s.bump (stkReg Reg.HOLDOVER_CNT)).modTime fun x =>
      { x with holdover := true, locked := false, lockRun := 0, slew := clampI (-50000) 50000 x.freqEst }
    (s.logEvent 0xC0 0 2 old s.stokeStatus).raiseEv 0xC0 0 0 s.stokeStatus
  else s

/-! Gang timing (R44–R49). -/

/-- Half the time of `probes` round trips in units of 100 ps, plus LANE_ASYM (R46, R387). -/
def State.pathLat (s : State) (p : Fin 2) : Int :=
  let u := s.lanes.port[p]
  if u.probes < 64 then 0
  else ((Q.mk' u.rttSum 128).add (Q.ofInt (s.reg (stkReg (Reg.LANE_ASYM + 4 * p.val))).toInt)).rne

/-- R48: the port from which stamps are taken: the healthy port that faces the master, or else the shorter path. -/
def State.stampSrc (s : State) : Fin 2 :=
  let up (p : Fin 2) : Bool := s.lanes.port[p].st == .up
  if up 0 && up 1 then
    if (s.lanes.port[(0 : Fin 2)]).partnerTm then 0
    else if (s.lanes.port[(1 : Fin 2)]).partnerTm then 1
    else if s.pathLat 1 < s.pathLat 0 then 1 else 0
  else if up 1 then 1 else 0

/-- The error of the own boundary against the master's, in units of 100 ps, from a stamp's arrival after the own boundary (R46). -/
def State.stampErr (s : State) (p : Fin 2) (arr : Nat) : Int :=
  let len : Int := (s.stokeCyc * 25 / 2 : Nat)
  let d := (s.pathLat p - (arr : Int)).emod len
  if len ≤ 2 * d then d - len else d

/-- A stoke stamp (R45–R49): port, the master's count, TAI and RATE, and its arrival after the own boundary. -/
def State.stokeStamp (s : State) (p : Fin 2) (cnt sec ns rate arr : Nat) : State :=
  if s.lanes.port[p].st ≠ .up then s
  else if s.boot.gangTm then
    if s.gang.conflict then s
    else
      let old := s.stokeStatus
      let s := s.modGang fun g => { g with conflict := true }
      s.logEvent 0xC0 0 6 old s.stokeStatus
  else if rate ≠ s.rate then s.modGang fun g => { g with rateMismatch := true }
  else if p ≠ s.stampSrc then s
  else
    let e := s.stampErr p arr
    let (w, s) := s.freshWord
    let s := s.modTime fun x => { x with slew := clampI (-150000) 150000 w.toInt }
    let g := s.gang
    let st : GangState := match g.st with
      | .solo => .align
      | .align => .align
      | .locked => .locked
      | .holdover => if g.away = false ∧ -20000 ≤ e ∧ e ≤ 20000 then .locked else if s.anyArmed then .holdover else .align
    let entry := st == .align && g.st != .align
    s.modGang fun g =>
      { g with st := st, stepped := g.stepped && !entry, away := st == .holdover, masterCnt := cnt, masterSec := sec, masterNs := ns, phaseErr := e,
               lockRun := if entry then 0 else g.lockRun, sinceStamp := 0 }

/-- The step of ALIGN may be taken (R47). -/
def State.alignDue (s : State) : Bool :=
  s.time.running && s.gang.st == .align && !s.gang.stepped && !s.anyArmed && !s.anyLayer
/-- R47: the realignment step in a stoke of `len` core cycles: the member takes the master's count and TAI, and every guard plan is withdrawn. -/
def State.alignStep (s : State) (len : Nat) : State :=
  if s.alignDue then
    let g := s.gang
    let n := g.masterCnt + g.sinceStamp
    let q := g.masterNs * 4 + 5 * len * g.sinceStamp
    let old := s.time.cnt
    let s := all24.foldl (fun (s : State) (c : Ch) => s.planWithdraw c) s
    let s := s.stamped fun s => s.logEvent 0xC0 0 4 (old % 4294967296) ((n + 1) % 4294967296)
    (s.modTime fun x => { x with cnt := n, taiSec := g.masterSec + q / secQ, taiQ := q % secQ }).modGang fun g =>
      { g with stepped := true, fresh := true, lockRun := 0 }
  else s

/-- R47: 64 consecutive stokes within 10 ns. -/
def State.gangLock (s : State) : State :=
  if s.gang.st = .align ∧ s.gang.stepped = true ∧ 64 ≤ s.gang.lockRun then s.modGang fun g => { g with st := .locked } else s

/-- R47: no stamp for 64 stokes. -/
def State.gangHoldover (s : State) : State :=
  if s.gang.st = .locked ∧ 64 ≤ s.gang.sinceStamp then
    let old := s.stokeStatus
    let s := (s.bump (stkReg Reg.HOLDOVER_CNT)).modGang fun g => { g with st := .holdover }
    (s.logEvent 0xC0 0 5 old s.stokeStatus).raiseEv 0xC0 0 0 s.stokeStatus
  else s

/-- R47: a member that stayed in HOLDOVER for its armed lasers goes to ALIGN once they are disarmed. -/
def State.gangDisarmed (s : State) : State :=
  if s.gang.st = .holdover ∧ s.gang.away = true ∧ s.anyArmed = false then
    s.modGang fun g => { g with st := .align, stepped := false, lockRun := 0, away := false }
  else s

/-- The gang's states at a boundary, before the count increases (R47). In a stoke without a stamp GANG_PHASE_ERR keeps the value of the
last one, and that value counts (log entry 70). -/
def State.gangStep (s : State) (len : Nat) : State :=
  let near := decide (-100 ≤ s.gang.phaseErr ∧ s.gang.phaseErr ≤ 100)
  let s := s.modGang fun g => { g with lockRun := if g.st = .align ∧ g.stepped = true ∧ near = true then g.lockRun + 1 else 0 }
  let s := s.gangLock.gangHoldover.gangDisarmed.alignStep len
  s.modGang fun g => { g with sinceStamp := g.sinceStamp + 1 }

/-- R45: the STOKE_OUT pin: high for 100 ns, 80 core cycles, from each boundary of the timing master, and of a member that enables it. -/
def State.stokeOut (s : State) : Bool :=
  s.time.running && decide (s.now < 80) && (s.boot.gangTm || bit (s.reg (stkReg Reg.STOKE_CFG)) 8) && !s.halted

/-! Registers (R38, R50). -/

/-- The read-only registers of the block; reads of STOKE_CNT_LO and TAI_NS latch (R38). -/
def State.timeRead (s : State) (o : Nat) : Option (Word × State) :=
  let t := s.time
  let hiCnt := hi32 t.cnt
  let (sec, q) := s.tai
  if o = Reg.STOKE_STATUS then some (toW s.stokeStatus, s)
  else if o = Reg.STOKE_CNT_LO then some (lo32 t.cnt, s.modTime fun x => { x with latCnt := some hiCnt })
  else if o = Reg.STOKE_CNT_HI then some (t.latCnt.getD hiCnt, s.modTime fun x => { x with latCnt := none })
  else if o = Reg.TAI_NS then
    some (toW (q / 4), s.modTime fun x => { x with latSecLo := some (lo32 sec), latSecHi := some (hi32 sec) })
  else if o = Reg.TAI_SEC_LO then some (t.latSecLo.getD (lo32 sec), s.modTime fun x => { x with latSecLo := none })
  else if o = Reg.TAI_SEC_HI then some (t.latSecHi.getD (hi32 sec), s.modTime fun x => { x with latSecHi := none })
  else if o = Reg.PPS_CTRL then some (toW (bitAt t.armed 0 + bitAt (bit (s.reg (stkReg Reg.PPS_CTRL)) 1) 1), s)
  else if o = Reg.PPS_PHASE_ERR then some (intW t.phaseErr, s)
  else if o = Reg.SLEW_PPB then some (intW t.slew, s)
  else if o = Reg.PPS_STOKES then some (lo32 t.ppsStokes, s)
  else if o = Reg.GANG_CFG then some (toW (s.boot.gangId + bitAt s.boot.gangTm 4), s)
  else if o = Reg.PATH_LAT then some (intW (s.pathLat 0), s)
  else if o = Reg.PATH_LAT + 4 then some (intW (s.pathLat 1), s)
  else if o = Reg.GANG_PHASE_ERR then some (intW s.gang.phaseErr, s)
  else none

end Sys2Proof.Machine
end

