-- ==== Sys2Proof/Machine/Lanes.lean ====
section
/-! DEFINITION. The Suder lanes: ports, routes, gang frames, peer messages and heads (R377–R394, R407). -/

namespace Sys2Proof.Machine
open Sys2Proof

/-- R386: the codes of the port states. -/
def PortSt.code : PortSt → Nat
  | .off => 0
  | .train => 1
  | .align => 2
  | .link => 3
  | .up => 4
  | .fault => 5

/-- Ports EAST and WEST. -/
def bothPorts : List (Fin 2) := [0, 1]
/-- Change a port. -/
def State.modPort (s : State) (p : Fin 2) (f : PortU → PortU) : State :=
  { s with lanes := { s.lanes with port := s.lanes.port.set p.val (f s.lanes.port[p]) p.isLt } }
/-- The other port. -/
def otherPort (p : Fin 2) : Fin 2 := if p = 0 then 1 else 0
/-- A port carries traffic. -/
def State.portUp (s : State) (p : Fin 2) : Bool := s.lanes.port[p].st == .up
/-- A register of a port. -/
def State.portR (s : State) (p : Fin 2) (o : Nat) : Word := s.reg (portReg p o)
/-- The port runs in compatibility mode (R393). -/
def State.portCompat (s : State) (p : Fin 2) : Bool := fld (s.portR p Reg.PORT_CFG) 0 2 == 1

/-- PORT_STATUS. -/
def PortU.status (u : PortU) : Nat :=
  u.st.code + bitAt u.idle 3 + u.cause * 16 + u.partner * 256 + bitAt u.partnerTm 10 + bitAt u.polFix 11 + bitAt u.reversed 12
/-- LANE_STATUS. -/
def LaneU.word (l : LaneU) : Nat := l.fom + l.ctle * 256 + bitAt l.inverted 12 + l.logical * 8192 + bitAt l.lock 15
/-- GANG_STATUS. -/
def State.gangStatus (s : State) : Nat :=
  let cm (p : Fin 2) : Bool := s.portUp p && s.lanes.port[p].partnerCompat
  s.lanes.heard + bitAt (s.portUp 0 && s.portUp 1) 4 + bitAt (cm 0) 5 + bitAt (cm 1) 6

/-! Bring-up (R386–R388). -/

/-- A lane of the port has a loop set (R390). -/
def State.portLooped (s : State) (p : Fin 2) : Bool :=
  [0, 1, 2, 3].any fun (l : Nat) => fld (s.portR p (Reg.LANE0_TEST + 0x40 * l)) 0 2 != 0
/-- A port powered down, or starting to train. -/
def PortU.enter (u : PortU) (st : PortSt) : PortU :=
  { u with st := st, idle := false, cause := 0, partner := 0, partnerTm := false, partnerCompat := false, known := false,
           polFix := false, reversed := false, probes := 0, rttSum := 0,
           lanes := u.lanes.map fun l => { l with lock := false, fom := if st == .off then 0 else l.fom } }
/-- The port goes to TRAIN, unless a loop is set or the throttle level powers it down (R389, R390). -/
def State.portTrain (s : State) (p : Fin 2) : State :=
  let held := s.portLooped p
  let st := s.lanes.port[p].st
  if held && (st == .off || st == .fault) then s else s.modPort p fun u => u.enter .train
/-- Routed packets that the partner has not acknowledged, the newest `n`, wait for a new route, archive records dropped: the carrier counts what was
cut off (R374, R391). The others are forgotten. -/
def State.portDrain (s : State) (p : Fin 2) (n : Nat) : State :=
  let u := s.lanes.port[p]
  let all := u.heldOld ++ u.held
  let back := (all.drop (all.length - n)).filter fun x => x.1 != 6
  let ms := back.map fun x => (⟨x.1, fld (toW (nthD x.2 0 0#8).toNat) 2 2, fld (toW (nthD x.2 0 0#8).toNat) 0 2, x.2, 0, false⟩ : LaneMsg)
  let s := s.modPort p fun u => { u with held := [], heldOld := [] }
  { s with lanes := { s.lanes with msgs := ms ++ s.lanes.msgs } }
/-- Every packet of the port is taken as not acknowledged. -/
def State.portDrainAll (s : State) (p : Fin 2) : State :=
  let u := s.lanes.port[p]
  s.portDrain p (u.held.length + u.heldOld.length)

/-- PORT_CTRL.EN (R386). -/
def State.portEn (s : State) (p : Fin 2) : State := if s.lanes.port[p].st = .off then s.portTrain p else s
/-- PORT_CTRL.DIS: to OFF (R394). -/
def State.portDis (s : State) (p : Fin 2) : State := (s.portDrainAll p).modPort p fun u => { u.enter .off with seed := 0 }
/-- R392: a retraining is refused in a layer without another healthy port, unless it is forced. -/
def State.retrainOk (s : State) (p : Fin 2) (force : Bool) : Bool := force || !s.anyLayer || s.portUp (otherPort p)
/-- PORT_CTRL.RETRAIN (R386, R392). -/
def State.portRetrain (s : State) (p : Fin 2) (force : Bool) : State :=
  let st := s.lanes.port[p].st
  let old := s.lanes.port[p].status
  let s : State := if st = .up ∨ st = .fault then (s.portDrainAll p).portTrain p else s
  if force then s.logEvent 0xC8 p.val 0 old s.lanes.port[p].status else s
/-- PORT_CTRL. -/
def State.portCtrl (s : State) (p : Fin 2) (v : Word) : State :=
  let s : State := if bit v 0 then s.portEn p else s
  let s : State := if bit v 2 then s.portRetrain p (bit v 3) else s
  if bit v 1 then s.portDis p else s
/-- A write of PORT_CTRL is refused (R392). -/
def State.portCtrlOk (s : State) (p : Fin 2) (v : Word) : Bool := !bit v 2 || s.retrainOk p (bit v 3)
/-- R394: a write of PORT_CFG or LANE_TEST meets its rule. -/
def State.portWriteOk (s : State) (p : Fin 2) (o : Nat) (v : Word) : Bool :=
  let st := s.lanes.port[p].st
  if o = Reg.PORT_CFG then st == .off && decide (fld v 16 8 ≤ fld v 8 8)
  else if fld v 0 2 ≠ 0 then st == .off || st == .fault
  else true

/-- The receivers of a port report: figure of merit, CTLE and DFE taps of each lane (R388). -/
def State.portAdapt (s : State) (p : Fin 2) (ls : List (Nat × Nat × List Word)) : State :=
  s.modPort p fun u => { u with lanes := all4.foldl (fun (v : Vector LaneU 4) (i : Fin 4) =>
    match ls[i.val]? with
    | none => v
    | some x => v.set i.val { v[i] with fom := min 255 x.1, ctle := x.2.1 % 16, dfe := (x.2.2 ++ List.replicate 12 0#32).take 12 } i.isLt) u.lanes }
/-- R386: every lane has held FOM_MIN for 1 ms and, in native mode, received markers. -/
def State.portTrainDone (s : State) (p : Fin 2) (ls : List (Nat × Nat × List Word)) : State :=
  let st := s.lanes.port[p].st
  if st ≠ .train ∧ st ≠ .up then s
  else
    let s := s.portAdapt p ls
    let m := fld (s.portR p Reg.PORT_CFG) 8 8
    if st = .train ∧ (all4.all fun (i : Fin 4) => decide (m ≤ (s.lanes.port[p].lanes[i]).fom)) = true
    then s.modPort p fun u => { u with st := .align } else s
/-- R386: codeword lock in ALIGN: the lane number received on each lane, inverted lanes, and the skew in symbols. -/
def State.codewordLock (s : State) (p : Fin 2) (order : List Nat) (inv : List Bool) (skew : Nat) : State :=
  if s.lanes.port[p].st ≠ .align then s
  else
    let straight := all4.all fun (i : Fin 4) => nthD order i.val i.val == i.val
    let turned := inv.any id
    let lanes (u : PortU) : Vector LaneU 4 := all4.foldl (fun (v : Vector LaneU 4) (i : Fin 4) =>
      v.set i.val { v[i] with logical := nthD order i.val i.val % 4, inverted := nthD inv i.val false, lock := true } i.isLt) u.lanes
    if !s.portCompat p && (!straight || turned) then s.modPort p fun u => { u with st := .fault, cause := 1 }
    else if 64 < skew then s
    else s.modPort p fun u => { u with st := .link, polFix := turned, reversed := !straight, lanes := lanes u }
/-- R386: the port comes up once the identity is valid and 64 probes have returned. -/
def State.portReady (s : State) (p : Fin 2) : State :=
  let u := s.lanes.port[p]
  if u.st = .link ∧ u.known = true ∧ 64 ≤ u.probes then s.modPort p fun u => { u with st := .up } else s
/-- R386: the partner's identity packet. -/
def State.identity (s : State) (p : Fin 2) (dev : Fin 4) (tm compat : Bool) : State :=
  if s.lanes.port[p].st ≠ .link then s
  else
    let s := s.modPort p fun u => { u with partner := dev.val, partnerTm := tm, partnerCompat := compat }
    if dev.val = s.devNum then s.modPort p fun u => { u with st := .fault, cause := 2 }
    else if compat && tm then s.modPort p fun u => { u with st := .fault, cause := 3 }
    else (s.modPort p fun u => { u with known := true }).portReady p
/-- R387: a round-trip probe returns after a time in units of 100 ps. -/
def State.rttProbe (s : State) (p : Fin 2) (time : Nat) : State :=
  let u := s.lanes.port[p]
  if u.st ≠ .link ∨ 64 ≤ u.probes then s
  else
    let s := s.modPort p fun u => { u with probes := u.probes + 1, rttSum := u.rttSum + time }
    let s := s.modPort p fun u => { u with rtt := if u.probes = 64 then (Q.mk' u.rttSum 64).rne.toNat else u.rtt }
    s.portReady p
/-- R386: the state has lasted longer than TRAIN_TMO. -/
def State.trainTimeout (s : State) (p : Fin 2) : State :=
  let st := s.lanes.port[p].st
  if st = .train ∨ st = .align ∨ st = .link then
    (s.bump (portReg p Reg.TRAIN_CNT)).modPort p fun u => { u.enter .train with seed := (u.seed + 1) % 16 }
  else s
/-- R388, R391: a port in UP is lost, with `n` packets not acknowledged. -/
def State.portLoss (s : State) (p : Fin 2) (n : Nat) : State :=
  let u := s.lanes.port[p]
  if u.st ≠ .up then s
  else
    let auto := bit (s.portR p Reg.PORT_CFG) 2
    let s := ((s.portDrain p n).bump (portReg p Reg.LINK_DOWN_CNT)).modPort p fun u => u.enter (if auto then .train else .off)
    let now := s.lanes.port[p]
    (s.logEvent 0xC8 p.val 1 u.status now.status).raiseEv 0xC8 p.val now.cause now.status
/-- R381: packets replayed, codewords not correctable and symbols corrected on a port. -/
def State.packetReplay (s : State) (p : Fin 2) (n uncorr corr : Nat) : State :=
  ((s.addCnt (portReg p Reg.REPLAY_CNT) n).addCnt (portReg p Reg.FEC_UNCORR_CNT) uncorr).addCnt (portReg p Reg.FEC_CORR_CNT) corr
/-- R389: LP_EN as it acts. -/
def State.lowPower (s : State) (p : Fin 2) : Bool := bit (s.portR p Reg.PORT_CFG) 3 || decide (2 ≤ s.hk.level)
/-- R389: electrical idle begins. -/
def State.portIdle (s : State) (p : Fin 2) : State :=
  if s.portUp p && s.lowPower p then s.modPort p fun u => { u with idle := true } else s
/-- R389: electrical idle ends. -/
def State.portWake (s : State) (p : Fin 2) : State := s.modPort p fun u => { u with idle := false }
/-- R389: at L2 every port not in UP is powered down. -/
def State.lanesThrottle (s : State) : State :=
  if s.hk.level < 2 then s
  else bothPorts.foldl (fun (s : State) (p : Fin 2) =>
    if s.portUp p || s.lanes.port[p].st == .off then s else s.modPort p fun u => u.enter .off) s

/-! Routes (R384). -/

/-- The members passed between the device and `d` going one way round the ring, `d` last. -/
def State.hopList (s : State) (east : Bool) (d : Fin 4) : List (Fin 4) :=
  let n := if east then (d.val + 4 - s.devNum % 4) % 4 else (s.devNum % 4 + 4 - d.val) % 4
  let at_ (i : Nat) : Fin 4 := if east then ⟨(s.devNum + i) % 4, by omega⟩ else ⟨(s.devNum + 12 - i) % 4, by omega⟩
  (((List.range (min n 3)).map fun i => at_ (i + 1)).filter fun x => Nat.testBit s.lanes.heard x.val || x == d)
/-- The port by which routed packets to `d` leave. -/
def State.routeTo (s : State) (d : Fin 4) : Option (Fin 2) :=
  if d.val = s.devNum || !Nat.testBit s.lanes.heard d.val then none
  else
    let e := s.hopList true d
    let w := s.hopList false d
    let open_ (p : Fin 2) (l : List (Fin 4)) : Bool :=
      s.portUp p && !s.lanes.port[p].partnerCompat && l.all fun (x : Fin 4) => !s.gm.dev[x].compat
    match open_ 0 e, open_ 1 w with
    | true, true =>
      if e.length < w.length then some 0 else if w.length < e.length then some 1
      else if s.pathLat 1 < s.pathLat 0 then some 1 else some 0
    | true, false => some 0
    | false, true => some 1
    | false, false => none
/-- R384: routes are recomputed. -/
def State.routesStep (s : State) : State :=
  { s with lanes := { s.lanes with route := all4.foldl (fun (v : Vector (Option (Fin 2)) 4) (d : Fin 4) =>
    v.set d.val (s.routeTo d) d.isLt) s.lanes.route } }

/-- A packet leaves by its port and is held for replay (R381). -/
def State.laneSend (s : State) (p : Fin 2) (cls : Nat) (bs : List Byte) : State :=
  (s.out (.lane p.val cls bs)).modPort p fun u => { u with held := u.held ++ [(cls, bs)] }

/-! Gang frames and stamps (R45, R382, R383). -/

/-- A frame as a port can carry it: a compatibility port carries classes 0 and 1 only (R393). -/
def State.frameFor (s : State) (p : Fin 2) (f : GangFrame) : GangFrame :=
  if s.lanes.port[p].partnerCompat then { f with chans := f.chans.map fun c => { c with dep := none, arr := none } } else f
/-- A packet passes the lane buffers: whether it meets an uncorrectable word there (R19). A routed one is discarded and replayed from the sender's
copy, so that it arrives all the same (R381). -/
def State.laneMet (s : State) : Bool × State := s.ueMet 9
/-- R383: a gang frame arrives on a port, before the reserved window or in it. -/
def State.frameIn (s : State) (p : Fin 2) (f : GangFrame) (inTime : Bool) : State :=
  if !s.portUp p || f.dev.val == s.devNum then s
  else
    let have_ := s.gm.frames.any fun x => x.1.dev == f.dev && x.1.stoke == f.stoke
    let q := otherPort p
    let s : State := if s.portUp q && s.lanes.port[q].partner != f.dev.val then s.out (.frame q.val (s.frameFor q f)) else s
    if have_ then s else { s with gm := { s.gm with frames := s.gm.frames ++ [(f, inTime)] } }
/-- R383: the member's own frame leaves on both ports. -/
def State.frameOut (s : State) (f : GangFrame) : State :=
  bothPorts.foldl (fun (s : State) (p : Fin 2) => if s.portUp p then s.out (.frame p.val (s.frameFor p f)) else s) s
/-- R45: the timing master's stamp leaves on both ports. -/
def State.stampOut (s : State) : State :=
  if !s.boot.gangTm then s
  else bothPorts.foldl (fun (s : State) (p : Fin 2) =>
    if s.portUp p then s.out (.stamp p.val s.time.cnt s.time.taiSec (s.time.taiQ / 4) s.rate) else s) s
/-- A stamp received on one port is passed on to the other, unless the next member there is the master (R382). -/
def State.stampPass (s : State) (p : Fin 2) (cnt sec ns rate : Nat) : State :=
  let q := otherPort p
  if s.portUp p && s.portUp q && !s.boot.gangTm && !s.lanes.port[q].partnerTm then s.out (.stamp q.val cnt sec ns rate) else s
/-- The members heard in the stoke that ends (GANG_STATUS). -/
def State.heardStep (s : State) : State :=
  let l := s.gm.frames.filter (·.2)
  { s with lanes := { s.lanes with heard := all4.foldl (fun (a : Nat) (d : Fin 4) =>
    a + bitAt (d.val != s.devNum && l.any fun x => x.1.dev == d) d.val) 0 } }

/-! Peer messages and heads (R385, R407). -/

/-- PEER_TMO. -/
def State.peerTmo (s : State) : Nat := s.regF (lanReg Reg.PEER_TMO) 0 16
/-- The number of the device, of a peer, as an index. -/
def devFin (n : Nat) : Fin 4 := ⟨n % 4, Nat.mod_lt _ (by decide)⟩
/-- The send ring to a peer takes its read index past a message (R385). -/
def State.sendAdvance (s : State) (dst : Nat) : State :=
  match s.findRing 0x0B (4 + dst) with
  | none => s
  | some r => if s.rings[r].st = .run then s.ringAdvance r else s
/-- The message bytes as sent: source, destination and the stoke at which the device sent it. -/
def State.peerStamp (s : State) (dst : Nat) (bs : List Byte) : List Byte :=
  b8 (s.devNum + 4 * dst) :: ((bs.take 4).drop 1 ++ b32 s.stoke32.toNat ++ bs.drop 8)
/-- A PEER_HEAD is logged (R407): member, SEQ and head. -/
def State.headLog (s : State) (d seq : Nat) (head : List Byte) : State :=
  s.logPush .hw false d 0x30 (toW (seq % 4294967296)) (toW (natLE (head.take 4)))
/-- One try to deliver a waiting message: none while it has to wait. -/
def State.msgTry (s : State) (m : LaneMsg) : Option State :=
  if m.dst = s.devNum then
    match s.findRing 0x0B m.src with
    | none => none
    | some r => if s.rings[r].st = .run ∧ s.ringFull r = true then none else some (s.emitTo r fun _ => m.bytes)
  else
    match s.lanes.route[devFin m.dst] with
    | none => none
    | some p =>
      let s := s.laneSend p m.cls (if m.unsent then s.peerStamp m.dst m.bytes else m.bytes)
      some (if m.unsent then s.sendAdvance m.dst else s)
/-- A message is dropped for want of a path or room: counted, and for a peer message logged (R385, R407). -/
def State.msgDrop (s : State) (m : LaneMsg) : State :=
  let s := s.bump (lanReg Reg.PEER_DROP_CNT)
  if m.cls = 5 then
    let d := if m.dst = s.devNum then m.src else m.dst
    let s := s.logEvent 0xC8 d 2 (natLE ((m.bytes.drop 2).take 2)) 0
    if m.unsent then s.sendAdvance m.dst else s
  else s
/-- One waiting message at a boundary; `blocked` holds the class and the two ends of messages that wait before it. -/
def State.msgStep (a : State × List (Nat × Nat × Nat)) (m : LaneMsg) : State × List (Nat × Nat × Nat) :=
  let (s, blocked) := a
  let key := (m.cls, m.src, m.dst)
  let keep (s : State) (m : LaneMsg) : State × List (Nat × Nat × Nat) :=
    ({ s with lanes := { s.lanes with msgs := s.lanes.msgs ++ [m] } }, key :: blocked)
  match (if blocked.contains key then none else s.msgTry m) with
  | some s => (s, blocked)
  | none => if s.peerTmo ≤ m.age + 1 then (s.msgDrop m, blocked) else keep s { m with age := m.age + 1 }
/-- The waiting messages at a boundary, in order (R385, R407). -/
def State.msgsStep (s : State) : State :=
  let l := s.lanes.msgs
  (l.foldl State.msgStep ({ s with lanes := { s.lanes with msgs := [] } }, [])).1
/-- A message joins: it goes at once where nothing of its kind waits before it and a path is there. -/
def State.msgJoin (s : State) (m : LaneMsg) : State :=
  let before := s.lanes.msgs.any fun x => x.cls == m.cls && x.src == m.src && x.dst == m.dst
  match (if before then none else s.msgTry m) with
  | some s => s
  | none => { s with lanes := { s.lanes with msgs := s.lanes.msgs ++ [m] } }
/-- Messages that have waited PEER_TMO stokes are dropped. -/
def State.msgTimeout (s : State) : State :=
  let (old, new) := s.lanes.msgs.partition fun m => decide (s.peerTmo ≤ m.age)
  old.foldl State.msgDrop { s with lanes := { s.lanes with msgs := new } }

/-- R385: the device takes the next record, whose bytes the host's slot holds, from a send ring. -/
def State.peerSend (s : State) (r : Ring) (bs : List Byte) : State :=
  let u := s.rings[r]
  let inst := s.ringInst r
  let waits := s.lanes.msgs.any fun x => x.unsent && x.dst + 4 == inst
  if u.st ≠ .run ∨ u.closing = true ∨ s.ringRole r ≠ 0x0B ∨ inst < 4 ∨ u.dev = u.host ∨ waits = true then s
  else s.msgJoin ⟨5, inst - 4, s.devNum, (bs ++ bz 64).take 64, 0, true⟩
/-- A peer message arrives on the lanes: for this device, or to be passed on. -/
def State.peerIn (s : State) (bs : List Byte) : State :=
  let b := toW (nthD bs 0 0#8).toNat
  s.msgJoin ⟨5, fld b 2 2, fld b 0 2, (bs ++ bz 64).take 64, 0, false⟩

/-- The time counter's seconds have advanced (R407). -/
def State.headSee (s : State) : State :=
  if s.tai.1 = s.lanes.headSec then s
  else { s with lanes := { s.lanes with headDue := s.lanes.headDue + 1, headSec := s.tai.1 } }
/-- R407: SEQ and head go to every other member heard of since reset. -/
def State.headSend (s : State) : State :=
  let s := s.headSee
  if s.lanes.headDue = 0 then s
  else
    let s : State := { s with lanes := { s.lanes with headDue := s.lanes.headDue - 1 } }
    let seq := (s.bank.seq + 2 ^ 48 - 1) % 2 ^ 48
    (all4.filter fun (d : Fin 4) => s.gm.dev[d].heard && d.val != s.devNum).foldl (fun (s : State) (d : Fin 4) =>
      s.msgJoin ⟨4, d.val, s.devNum, b8 (s.devNum + 4 * d.val) :: (bytesOfNatLE 6 seq ++ s.bank.head), 0, false⟩) s
/-- A head of member `d` arrives: logged here, or passed on to the member it is for. -/
def State.headIn (s : State) (d dst : Fin 4) (seq : Nat) (head : List Byte) : State :=
  if dst.val = s.devNum then s.headLog d.val seq head
  else s.msgJoin ⟨4, dst.val, d.val, b8 (d.val + 4 * dst.val) :: (bytesOfNatLE 6 seq ++ head), 0, false⟩

/-! Forwarded archive (R374). -/

/-- A forwarded record of member `d` arrives for `dst`, whole, or cut off by a link failure; `room` is whether the ring
staging has the space it asks for. -/
def State.archiveIn (s : State) (d dst : Fin 4) (room : Bool) (bs : Option (List Byte)) : State :=
  if dst.val ≠ s.devNum then
    match bs, s.lanes.route[dst] with
    | some b, some p => s.laneSend p 6 b
    | _, _ => s.bump (hostReg Reg.FWD_DROP_CNT)
  else
    let ring := match s.findRing 0x0C d.val with
      | none => false
      | some r => s.rings[r].st == .run
    match bs with
    | some b =>
      if ring && room then
        let b := b.take 6 ++ [nthD b 6 0#8 ||| 1#8] ++ b.drop 7
        { s with lanes := { s.lanes with stage := s.lanes.stage ++ [(d.val, b)] } }
      else s.bump (hostReg Reg.FWD_DROP_CNT)
    | none => s.bump (hostReg Reg.FWD_DROP_CNT)

/-- R367: an archive record. -/
def State.archBytes (s : State) (m : Cam) (a : CamArch) : List Byte :=
  b16 0xEA01 ++ [b8 s.devNum, b8 m.val, b8 a.tap, b8 (if a.tap < 2 then a.member else 0xFF)] ++ b16 0 ++ bytesLE a.w13 ++ bytesLE a.w14
    ++ b32 a.stoke ++ b32 a.eps.length ++ b32 a.aseq ++ b32 0 ++ a.eps
/-- The records that ARCH_ROUTE sends to another device go over the lanes; with no path left they are dropped (R374). -/
def State.archForward (s : State) (m : Cam) : State :=
  let far (a : CamArch) : Bool := bit a.route 0 && fld a.route 1 2 != s.devNum
  let (go, stay) := s.cam[m].arch.partition far
  go.foldl (fun (s : State) (a : CamArch) =>
    let s : State := { s with pool := s.pool + a.pages }
    match s.lanes.route[devFin (fld a.route 1 2)] with
    | some p => s.laneSend p 6 (s.archBytes m a)
    | none => s.bump (hostReg Reg.FWD_DROP_CNT)) (s.modCam m fun c => { c with arch := stay })

/-- The lanes at a boundary: who was heard, routes, waiting messages, heads, and forwarded records (R383–R385, R407). -/
def State.lanesStep (s : State) : State :=
  let s := s.routesStep.msgsStep.headSend
  let s := all24.foldl (fun (s : State) (m : Cam) => s.archForward m) s
  let s := s.lanesThrottle
  bothPorts.foldl (fun (s : State) (p : Fin 2) => s.modPort p fun u => { u with heldOld := u.held, held := [] }) s

/-! Registers (R394). -/

/-- The read-only registers of the block. -/
def State.lanRead (s : State) (o : Nat) : Option Word :=
  if o = 0 then some (toW s.gangStatus)
  else if o < 0x1000 then none
  else
    let p : Fin 2 := if o < 0x2000 then 0 else 1
    let u := s.lanes.port[p]
    let r := o % 0x1000
    if r = 8 then some (toW u.status)
    else if r = 0x20 then some (toW u.rtt)
    else if 0x100 ≤ r ∧ r < 0x200 then
      let l := u.lanes[(⟨(r - 0x100) / 0x40 % 4, by omega⟩ : Fin 4)]
      let q := r % 0x40
      if q = 0 then some (toW l.word)
      else if 0x10 ≤ q then some (nthD l.dfe ((q - 0x10) / 4) 0#32)
      else none
    else none

end Sys2Proof.Machine
end

