-- ==== Sys2Proof/Machine/Ring.lean ====
section
/-! DEFINITION. Rings, buffers, interrupts, telemetry and the host link (R354–R369, R374–R376, R408, R409). -/

namespace Sys2Proof.Machine
open Sys2Proof

/-! Roles (R361). -/

/-- KIND, SLOT and the instances of a role; `own` is the device's number. The table gives a BUF ring no slot size. -/
def roleOk (own role inst kind slot : Nat) : Bool :=
  let is_ (k sl lim : Nat) : Bool := kind == k && slot == sl && decide (inst < lim)
  match role with
  | 1 => is_ 0 0 24
  | 2 => is_ 1 2 24
  | 3 => is_ 2 slot 24
  | 4 => is_ 0 0 8
  | 5 => is_ 1 0 8
  | 6 => is_ 1 0 1
  | 7 => is_ 1 0 1
  | 8 => is_ 1 1 1
  | 9 => is_ 1 1 1
  | 0xA => is_ 1 1 4
  | 0xB => if inst < 4 then is_ 1 1 4 && inst != own else is_ 0 1 8 && inst != own + 4
  | 0xC => is_ 2 slot 4 && inst != own
  | _ => false

/-- RING_CFG.KIND. -/
def State.ringKind (s : State) (r : Ring) : Nat := s.regF (ringReg r Reg.RING_CFG) 0 2
/-- RING_CFG.FUNC. -/
def State.ringFunc (s : State) (r : Ring) : Nat := s.regF (ringReg r Reg.RING_CFG) 9 1
/-- The origin of the function that owns a ring. -/
def State.ringOwner (s : State) (r : Ring) : Origin := if s.ringFunc r = 0 then .host0 else .host1
/-- Another enabled ring has the same role and instance. -/
def State.ringTwin (s : State) (r : Ring) : Bool :=
  allRings.any fun x => x != r && s.rings[x].st != .disabled && s.ringRole x == s.ringRole r && s.ringInst x == s.ringInst r

/-- R360: a write of RING_CTRL is accepted. -/
def State.ringCtrlOk (s : State) (r : Ring) (v : Word) : Bool :=
  let role := s.ringRole r
  let inst := s.ringInst r
  let en := !bit v 0 || (!s.ringTwin r && roleOk s.devNum role inst (s.ringKind r) (s.regF (ringReg r Reg.RING_CFG) 2 2))
  let layer := all24.any fun (c : Ch) => c.val == inst && s.ch[c].inLayer
  let axis := all8.any fun (n : Ma) => n.val == inst && (s.ma[n].m).st != .disabled && (s.ma[n].m).st != .idle
  let dis := !bit v 1 || s.rings[r].st == .disabled || !((role == 1 && layer) || (role == 4 && axis))
  !(bit v 0 && bit v 1) && en && dis
/-- R360: the configuration of a ring is written only in DISABLED. -/
def State.ringCfgOk (s : State) (r : Ring) : Bool := s.rings[r].st == .disabled

/-- The channel whose vector ring a ring is (R361). -/
def State.ringVec (s : State) (r : Ring) : Option Ch :=
  if s.ringRole r = 1 ∧ s.ringInst r < 24 then some (ix24 (s.ringInst r)) else none

/-- ENABLE: the index block gives DEV_IDX (R357), and a vector ring restarts its path (R115). A host read error stops the
ring (R360). -/
def State.ringEnable (s : State) (r : Ring) (aux : Nat) : State :=
  if s.rings[r].st ≠ .disabled then s
  else
    let idx := (indexRead aux).getD s.rings[r].dev
    let held := s.rings[r].host
    let out := s.ringKind r == 1
    let bad := !out && decide (aux < 4294967296) && decide (s.ringSize r < idxDiff held idx)
    let s := s.ringChange r fun u =>
      { u with st := .run, cause := 0, badDb := bad, dev := idx, host := if out || bad then idx else held, drops := 0, closing := false,
               gap := false, advSince := 0, age := none }
    let s := if bad then s.deny (s.ringOwner r) (ringReg r Reg.RING_DOORBELL) (toW held) else s
    match s.ringVec r with
    | some c => s.vecRestart c aux
    | none => if aux < 4294967296 then s else s.ringStop r 1

/-- A ring becomes DISABLED; that of a vector path takes the buffer with it (R115). -/
def State.ringFree (s : State) (r : Ring) : State :=
  let s := s.ringChange r fun u => { u with st := .disabled, cause := 0, closing := false }
  match s.ringVec r with
  | some c => s.vecDiscard c
  | none => s

/-- DISABLE (R360): a stopped ring is disabled at once, a running one when its requests in flight have completed. -/
def State.ringDisable (s : State) (r : Ring) : State :=
  match s.rings[r].st with
  | .disabled => s
  | .run => s.modRing r fun u => { u with closing := true }
  | .stopped => s.ringFree r

/-- The final index block is written, and the ring is disabled. -/
def State.ringDisabled (s : State) (r : Ring) : State :=
  let u := s.rings[r]
  if u.st = .run ∧ u.closing = true then
    (s.out (.index r.val u.dev u.drops s.stoke32.toNat)).ringFree r
  else s

/-- A doorbell meets the checks of R358. -/
def State.doorbellOk (s : State) (r : Ring) (v : Word) : Bool :=
  let u := s.rings[r]
  u.st == .disabled ||
    (if s.ringKind r = 1 then decide (idxDiff u.dev v.toNat ≤ s.ringSize r) else decide (idxDiff v.toNat u.dev ≤ s.ringSize r))
/-- A doorbell write that the checks let through is taken. -/
def State.doorbell (s : State) (r : Ring) (v : Word) : State := s.modRing r fun u => { u with host := v.toNat }
/-- A doorbell write that they refuse sets BAD_DB (R358). -/
def State.doorbellBad (s : State) (r : Ring) : State := s.modRing r fun u => { u with badDb := true }

/-! The link (R354–R356). -/

/-- HOST_STATUS. -/
def State.hostStatus (s : State) : Nat :=
  let l := s.link
  bitAt l.up 0 + l.rate * 2 + l.width * 16 + bitAt l.bm0 8 + bitAt l.bm1 9

/-- The vectors of a function (R354). -/
def vecsOf (f : Nat) : BitVec 256 := if f = 0 then BitVec.ofNat 256 (2 ^ 192 - 1) else BitVec.ofNat 256 (2 ^ 256 - 2 ^ 192)

/-- R356: link down, hot reset and function-level reset. -/
def State.linkDown (s : State) (k : DownKind) : State :=
  let old := s.hostStatus
  let s := allRings.foldl (fun (s : State) (r : Ring) => if k = .flr1 ∧ s.ringFunc r = 0 then s else s.ringStop r 4) s
  let s : State := if k = .flr1 then s
    else
      let s := s.forCh fun s c => if s.las[c].arm = .disarmed then s else s.lasTrip c 1
      all8.foldl (fun (s : State) (n : Ma) => if (s.ma[n].m).going then s.maStop n false else s) s
  let l := s.link
  let l' : LinkSt := match k with
    | .linkDown => ⟨false, 0, 0, false, false⟩
    | .hotReset => ⟨false, 0, 0, false, false⟩
    | .flr0 => { l with bm0 := false }
    | .flr1 => { l with bm1 := false }
  let m := match k with
    | .linkDown => vecsOf 0 ||| vecsOf 1
    | .hotReset => vecsOf 0 ||| vecsOf 1
    | .flr0 => vecsOf 0
    | .flr1 => vecsOf 1
  let s : State := { s with link := l', ints := { s.ints with mask := s.ints.mask ||| m, pba := s.ints.pba &&& ~~~m } }
  let f := if k = .flr1 then 1 else 0
  (s.logEvent 0xCC f 1 old s.hostStatus).raiseEv 0xCC f 0 s.hostStatus

/-- The link trains: rate, width and the bus-master bits (R354, R376). -/
def State.linkUp (s : State) (rate width : Nat) (bm0 bm1 : Bool) : State :=
  { s with link := ⟨true, rate % 8, width % 16, bm0, bm1⟩ }

/-- R355: a BAR0 request that is not one aligned DWORD with all byte enables. -/
def State.hostErr (s : State) : State := (s.bump (hostReg Reg.HOST_ERR_CNT)).raiseEv 0xCC 0 0 s.hostStatus

/-! Interrupts (R368). -/

/-- The vector field of a source's map, which names the function that the source belongs to. -/
def State.mapVec (s : State) (src : Nat) : Nat := s.regF (hostReg (Reg.INT_MAP + 4 * src)) 0 8
/-- The function of a vector. -/
def vecFunc (v : Nat) : Nat := if v < 192 then 0 else 1
/-- The function of a host origin. -/
def orgFunc (org : Origin) : Option Nat :=
  match org with
  | .host0 => some 0
  | .host1 => some 1
  | _ => none
/-- A source's cause persists. -/
def State.srcPersists (s : State) (src : Nat) : Bool :=
  if src < 0x80 then allRings.any fun r => r.val == src && s.rings[r].st == .stopped
  else if src < 0x98 then s.reg (hostReg (Reg.CH_INT_CAUSE + 4 * (src - 0x80))) != 0#32
  else if 0xB0 ≤ src ∧ src < 0xB8 then all8.any fun (n : Ma) => n.val + 0xB0 == src && (s.ma[n].m).cause != 0
  else if src = 0xC3 then s.lsafe.aLow || s.lsafe.bLow || s.lsafe.disc
  else if src = 0xC9 then decide (3584 ≤ s.log.held.length)
  else false
/-- A source's pending bit is cleared, unless its condition arises in the same clock (R11), and set again at once while its cause persists. -/
def State.intClear (s : State) (src : Nat) : State :=
  if bit (s.clkHeld (hostReg (Reg.INT_PEND + 4 * (src / 32)))) (src % 32) then s else
  let s := { s with ints := { s.ints with pend := s.ints.pend &&& ~~~(BitVec.ofNat 256 (2 ^ src)) } }
  if s.srcPersists src then s.raiseSrc src else s
/-- INT_PEND[w]: the bits written 1 that belong to the writing function. -/
def State.intPendWrite (s : State) (org : Origin) (w : Nat) (v : Word) : State :=
  (List.range 32).foldl (fun (s : State) (i : Nat) =>
    let src := 32 * w + i
    if bit v i && s.ints.pend.getLsbD src && orgFunc org == some (vecFunc (s.mapVec src)) then s.intClear src else s) s
/-- INT_ACK: the wait of a vector of the writing function ends; a mapped source still pending sends again. -/
def State.intAck (s : State) (org : Origin) (v : Nat) : State :=
  if orgFunc org ≠ some (vecFunc v) ∨ s.ints.wait.getLsbD v = false then s
  else
    let s := { s with ints := { s.ints with wait := s.ints.wait &&& ~~~(BitVec.ofNat 256 (2 ^ v)) } }
    if (List.range 256).any fun src => s.ints.pend.getLsbD src && s.vecOf src == some v then s.sendVec v else s
/-- A masked vector is unmasked: a message its PBA bit holds is sent. -/
def State.vecUnmask (s : State) (v : Nat) : State :=
  let b := BitVec.ofNat 256 (2 ^ v)
  let held := s.ints.pba.getLsbD v
  let s := { s with ints := { s.ints with mask := s.ints.mask &&& ~~~b, pba := s.ints.pba &&& ~~~b } }
  if held then s.sendVec v else s

/-- R369: INT_STOKES stokes have passed since the first advance not announced. -/
def State.ringAgeDue (s : State) (r : Ring) : Bool :=
  let c := s.reg (ringReg r Reg.RING_INT_CFG)
  fld c 0 16 != 0 && match s.rings[r].age with
    | none => false
    | some a => decide (fld c 16 16 ≤ a)
/-- A ring's interrupt by INT_STOKES. -/
def State.ringAge (s : State) (r : Ring) : State :=
  if s.ringAgeDue r then (s.modRing r fun u => { u with advSince := 0, age := none }).raiseSrc r.val else s
/-- The rings' ages at a boundary. -/
def State.ringsAge (s : State) : State :=
  allRings.foldl (fun (s : State) (r : Ring) =>
    match s.rings[r].age with
    | none => s
    | some a => (s.modRing r fun u => { u with age := some (a + 1) }).ringAge r) s

/-! Telemetry (R362, R364). -/

/-- DIV of a telemetry ring. -/
def State.ringDiv (s : State) (r : Ring) : Nat := s.regF (ringReg r Reg.RING_BIND) 16 16 + 1
/-- FLAGS of stoke k that the boundary which ends it may change: IN_LAYER, FAULT, COVERED, GD_VIOL. -/
def State.telFlags (s : State) (c : Ch) : Nat :=
  bitAt s.ch[c].inLayer 0 + bitAt (s.inFault c) 1 + bitAt (s.covered c) 2 + bitAt (s.gd.viol[c]).mask 5
/-- R362: the telemetry record of stoke k, with what was noted before its boundary: flags, TAI ns and seconds of its beginning. -/
def State.telRecord (s : State) (c : Ch) (k flags ns sec : Nat) (gap : Bool) : List Byte :=
  let l := s.las[c]
  let u := s.loop[c]
  let fl := flags + bitAt s.ch[c].overran 3 + bitAt l.maskedLast 4 + bitAt gap 6
  [1#8, b8 c.val, b8 s.devNum, b8 fl] ++ b32 (k % 4294967296) ++ b32 ns ++ b32 (sec % 4294967296)
    ++ (s.ch[c].telem.take 16).flatMap bytesLE
    ++ bytesLE (s.reg (axReg c 0 Reg.SV_SET)) ++ bytesLE (s.reg (axReg c 1 Reg.SV_SET)) ++ bytesLE (s.reg (axReg c 2 Reg.SV_SET))
    ++ bytesLE (s.sv[c].ax[(0 : Fin 3)]).ePrev ++ bytesLE (s.sv[c].ax[(1 : Fin 3)]).ePrev ++ bytesLE u.u ++ bytesLE u.fb
    ++ b32 (l.codePrev + bitAt l.levelLast 16 + u.mode.code * 131072) ++ b16 u.pdE.mean ++ b16 u.pdB.mean ++ b16 l.monMean ++ b16 u.camAge
    ++ b32 s.vec[c].index ++ b16 (s.reg (chReg c Reg.ENG_CYC_LAST)).toNat ++ bz 2
/-- The statistics record that follows it in the stoke into which a record was delivered. -/
def State.camTelRecord (s : State) (c : Ch) (m : Cam) (k : Nat) : List Byte :=
  let x := s.cam[m]
  [2#8, b8 c.val, b8 s.devNum, b8 m.val] ++ b32 (k % 4294967296) ++ bz 8 ++ ((x.stat ++ List.replicate 16 0#32).take 16).flatMap bytesLE
    ++ (((x.used ++ [0, 0, 0]).take 3).map toW).flatMap bytesLE ++ bz 36
/-- A channel's telemetry after the boundary that ends stoke k. -/
def State.telemetry (s : State) (c : Ch) (k flags ns sec : Nat) : State :=
  let s : State := match s.findRing 2 c.val with
    | none => s
    | some r => if k % s.ringDiv r = 0 then s.emitTo r (s.telRecord c k flags ns sec) else s
  match s.camOf c with
  | none => s
  | some m =>
    if s.cam[m].telDue then (s.emitRole 2 c.val fun _ => s.camTelRecord c m k).modCam m fun x => { x with telDue := false } else s
/-- R364: the motion telemetry record of stoke k. -/
def State.maTelRecord (s : State) (n : Ma) (k : Nat) (gap : Bool) : List Byte :=
  let u := s.ma[n].m
  let mA (w : Word) : List Byte := b16 (BitVec.ofInt 16 (fToInt (-32768) 32767 w)).toNat
  [1#8, b8 n.val, b8 s.devNum, b8 (u.st.code + bitAt gap 3)] ++ b32 (k % 4294967296) ++ bytesLE (intW (microOf u.acc))
    ++ bytesLE (intW u.vLast) ++ bytesLE (s.ma[n].e).fbB ++ mA u.a.cur ++ mA u.b.cur ++ b16 u.laWord ++ b16 (u.limStatus % 2048) ++ bytesLE u.dev
/-- An axis's telemetry. -/
def State.maTelemetry (s : State) (n : Ma) (k : Nat) : State :=
  match s.findRing 5 n.val with
  | none => s
  | some r => if k % s.ringDiv r = 0 then s.emitTo r (s.maTelRecord n k) else s

/-! Archive buffers (R366, R374). -/

/-- A posted descriptor meets R366. -/
def descGood (d : Nat × Nat) : Bool := d.1 % 64 == 0 && decide (256 ≤ d.2) && decide (d.2 ≤ 1048576) && d.2 % 64 == 0
/-- The descriptors that a record of `n` bytes fills. -/
def descsFor : List (Nat × Nat) → Nat → List (Nat × Nat)
  | [], _ => []
  | d :: r, n => if n ≤ d.2 then [d] else d :: descsFor r (n - d.2)
/-- A record fills buffers in ring order, and each descriptor completes before the index passes it. -/
def State.bufFill (s : State) (r : Ring) : List (Nat × Nat) → Bool → List Byte → State
  | [], _, _ => s
  | d :: ds, first, bs =>
    let part := bs.take d.2
    let rest := bs.drop d.2
    let i := s.rings[r].dev % s.ringSize r
    let s := s.out (.buf r.val i 0 part)
    let s := s.out (.desc r.val i (toW (part.length + bitAt first 24 + bitAt rest.isEmpty 25 + bitAt true 31)))
    State.bufFill (s.ringAdvance r) r ds false rest
/-- A record enters a BUF ring whose next posted descriptors the host memory holds; it waits where they are too few. -/
def State.bufWrite (s : State) (r : Ring) (descs : List (Nat × Nat)) (bs : List Byte) : Option State :=
  let u := s.rings[r]
  let posted := descs.take (idxDiff u.host u.dev)
  let use_ := descsFor posted bs.length
  if u.st ≠ .run ∨ u.closing = true then none
  else if use_.any fun d => !descGood d then none
  else if (use_.map (·.2)).foldl (· + ·) 0 < bs.length then none
  else some (s.bufFill r use_ true bs)
/-- Descriptors of the record at the head break R366: the ring stops. -/
def State.bufBad (s : State) (r : Ring) (descs : List (Nat × Nat)) (n : Nat) : Bool :=
  let u := s.rings[r]
  u.st == .run && !u.closing && (descsFor (descs.take (idxDiff u.host u.dev)) n).any fun d => !descGood d
/-- The next record of a ring's pipeline, or of its member's staging, is written to the host. -/
def State.archiveWrite (s : State) (r : Ring) (descs : List (Nat × Nat)) : State :=
  let role := s.ringRole r
  let inst := s.ringInst r
  if role = 3 then
    match all24.find? fun (m : Cam) => m.val == inst with
    | none => s
    | some m =>
      match s.cam[m].arch with
      | [] => s
      | a :: rest =>
        let b := s.archBytes m a
        if s.bufBad r descs b.length then s.ringStop r 3
        else match s.bufWrite r descs b with
          | none => s
          | some s => { s with pool := s.pool + a.pages }.modCam m fun c => { c with arch := rest }
  else if role = 0xC then
    match s.lanes.stage.find? fun x => x.1 == inst with
    | none => s
    | some x =>
      if s.bufBad r descs x.2.length then s.ringStop r 3
      else match s.bufWrite r descs x.2 with
        | none => s
        | some s => { s with lanes := { s.lanes with stage := s.lanes.stage.erase x } }
  else s
/-- Records due to a stopped archive ring, or to one that is not enabled, are dropped (R356). -/
def State.archDrop (s : State) (m : Cam) : State :=
  let go (s : State) : State := s.cam[m].arch.foldl (fun (s : State) (a : CamArch) => { s with pool := s.pool + a.pages }) s
  match s.cam[m].arch with
  | [] => s
  | l => match s.findRing 3 m.val with
    | none => (go s).modCam m fun c => { c with arch := [] }
    | some r => if s.rings[r].st = .stopped then
        l.foldl (fun (s : State) (_ : CamArch) => s.ringDrop r) ((go s).modCam m fun c => { c with arch := [] })
      else s

/-! Draining the log (R404, R408, R409). -/

/-- An entry is read back from the log's region, from its duplicate where an uncorrectable word is met; where both copies fail a LOG_DAMAGE entry is
written (R19, R405), with an OBJECT and the bytes of the entry left open. -/
def State.entryRead (s : State) (e : LogEntry) : List Byte × State :=
  let (first, s) := s.ueMet 10
  let (both, s) := if first then s.ueMet 10 else (false, s)
  if both then
    let (n, s) := s.freshNat
    let bs := (Config.freeBytes s.free ++ bz 32).take 32
    (bs, ({ s with free := s.free + 1 }).logPush .hw false n 0x21 0#32 0#32)
  else (e.bytes e.chain, s)

/-- One entry drains to the change-log ring. -/
def State.logDrain (s : State) : State :=
  match s.log.held, s.findRing 6 0 with
  | e :: _, some r =>
    let u := s.rings[r]
    if u.st ≠ .run ∨ u.closing = true ∨ s.ringFull r = true then s
    else
      let (bs, s) := s.entryRead e
      let s := s.out (.slot r.val (u.dev % s.ringSize r) bs)
      let s := { s with log := { s.log with held := s.log.held.drop 1 }, bank := { s.bank with drained := e.seq } }
      let s := s.ringAdvance r
      if s.log.gap ≠ 0 then
        let n := s.log.gap
        ({ s with log := { s.log with gap := 0 } }).logPush .hw false 0 0x22 0#32 (satU32 n)
      else s
  | _, _ => s

/-! Registers (R375, R376). -/

/-- The read-only registers of a ring, and its doorbell. -/
def State.ringRead (s : State) (r : Ring) (o : Nat) : Option Word :=
  if o = Reg.RING_DOORBELL then some (toW s.rings[r].host)
  else if o = Reg.RING_DEV_IDX then some (toW s.rings[r].dev)
  else if o = Reg.RING_STATUS then some (toW (s.ringStatus r))
  else none
/-- The read-only host registers, and INT_PEND. -/
def State.hostRead (s : State) (o : Nat) : Option Word :=
  if o = Reg.HOST_STATUS then some (toW s.hostStatus)
  else if Reg.INT_PEND ≤ o ∧ o < Reg.INT_PEND + 32 then some (toW (s.ints.pend.toNat >>> (8 * (o - Reg.INT_PEND))))
  else none
/-- The pool's free pages. -/
def State.epsRead (s : State) (o : Nat) : Option Word := if o = 0 then some (toW s.pool) else none

end Sys2Proof.Machine
end

