-- ==== Sys2Proof/Machine/Regs.lean ====
section
/-! DEFINITION. What a register read returns: views of the state, latches and read-to-clear counters, and the port snapshot (R10, R30, R38, R101, R406, R447–R450). -/

namespace Sys2Proof.Machine
open Sys2Proof

/-! The global, access, housekeeping, cluster and debug blocks (R173, R285, R411, R428, R444, R445, R449). -/

/-- BOOT_STATUS.STAGE (R433). -/
def Stage.code : Stage → Nat
  | .held => 0
  | .rom => 1
  | .sram => 2
  | .fetch => 3
  | .verify => 4
  | .apply => 5
  | .ready => 6
  | .failed => 15

/-- BOOT_STATUS. -/
def State.bootStatus (s : State) : Nat :=
  s.boot.stage.code + s.boot.fail * 256 + bitAt s.boot.secondary 12 + bitAt s.boot.unsigned 13 + bitAt s.fuse.secure 14
/-- GLB_STATUS as its sources stand (R450). -/
def State.glbStatus (s : State) : Nat :=
  bitAt (s.boot.stage == .ready) 0 + bitAt s.fuse.secure 1 + bitAt s.time.running 2 + bitAt s.anyArmed 3
    + bitAt (all24.any fun (c : Ch) => s.inFault c) 4 + bitAt (decide (1 ≤ s.hk.level)) 5 + bitAt s.killed 6
    + (s.logStatus % 2) * 128 + s.devNum * 256 + bitAt s.boot.gangTm 10
/-- A mask of the channels that meet a test. -/
def chMask (f : Ch → Bool) : Nat := all24.foldl (fun (a : Nat) (c : Ch) => a + bitAt (f c) c.val) 0
/-- KEY_STATUS. -/
def State.keyStatus (s : State) : Nat :=
  all4.foldl (fun (a : Nat) (k : Fin 4) => a + bitAt (s.fuse.keys[k].isSome) k.val + bitAt s.fuse.revoked[k] (4 + k.val)) 0
    + bitAt s.fuse.secure 8 + bitAt s.fuse.busy 9
/-- RST_CAUSE. -/
def State.rstCause (s : State) : Nat := s.bank.cause + bitAt s.bank.bankLost 8

/-- A view of the global block. -/
def State.glbRead (s : State) (o : Nat) : Option Word :=
  if o = Reg.STEPPING then some (toW (s.fuse.stepDigit + s.fuse.stepLetter * 256))
  else if o = Reg.DEV_UID_LO then some (toW (natLE (s.fuse.uid.take 4)))
  else if o = Reg.DEV_UID_HI then some (toW (natLE ((s.fuse.uid.drop 4).take 4)))
  else if o = Reg.GLB_STATUS then (if s.time.running then none else some (toW s.glbStatus))
  else if o = Reg.LSAFE_STATUS then some (toW s.lsafeStatus)
  else if o = Reg.BOOT_STATUS then some (toW s.bootStatus)
  else if o = Reg.BOOT_STRAPS then some (toW (s.boot.bootSrc + s.boot.gangId * 4 + bitAt s.boot.gangTm 4))
  else if o = Reg.RST_CAUSE then some (toW s.rstCause)
  else if 0x220 ≤ o ∧ o < 0x240 then some (nthD (wordsLE s.boot.hash) ((o - 0x220) / 4) 0#32)
  else if o = Reg.KEY_STATUS then some (toW s.keyStatus)
  else none

/-- SAFE_STATUS. -/
def State.safeStatus (s : State) : Nat :=
  bitAt s.safe.wd 0 + bitAt (all24.any fun (c : Ch) => s.safe.inh[c]) 1 + bitAt (all24.any fun (c : Ch) => s.safe.pcap[c]) 2
    + bitAt (all8.any fun (n : Ma) => s.safe.stop[n]) 3
/-- SEQ of the newest entry, and its head (R406). -/
def State.headSeq (s : State) : Nat := (s.bank.seq + 2 ^ 48 - 1) % 2 ^ 48

/-- A view of the access block. -/
def State.accRead (s : State) (o : Nat) : Option Word :=
  if o = Reg.LOG_STATUS then some (toW s.logStatus)
  else if o = Reg.LOG_HELD then some (toW s.log.held.length)
  else if o = Reg.LOG_HEAD_SEQ_LO then some (lo32 s.headSeq)
  else if o = Reg.LOG_HEAD_SEQ_HI then some (s.log.latHi.getD (hi32 s.headSeq))
  else if 0x20 ≤ o ∧ o < 0x40 then some (nthD (wordsLE (s.log.latHead.getD s.bank.head)) ((o - 0x20) / 4) 0#32)
  else if o = Reg.SAFE_STATUS then some (toW s.safeStatus)
  else if o = Reg.SAFE_INH_HOLD then some (toW (chMask fun c => s.safe.inh[c]))
  else if o = Reg.SAFE_PCAP_HOLD then some (toW (chMask fun c => s.safe.pcap[c]))
  else if o = Reg.SVC_STATUS then some (toW (bitAt s.svc.unlocked 0 + bitAt s.svc.lockout 1))
  else none

/-- A view of the housekeeping block. -/
def State.hkRead (s : State) (o : Nat) : Option Word :=
  if o = Reg.HK_STATUS then some (toW s.hkStatus)
  else if o = Reg.TJ_CTRL then some (toW ((intW s.hk.tj).toNat % 65536))
  else if o = Reg.HK_ROUND then some (toW s.hk.rounds)
  else if 0x40 ≤ o ∧ o < 0x98 then some (s.tempReg ⟨(o - 0x40) / 4 % 22, Nat.mod_lt _ (by decide)⟩)
  else if o = Reg.EXT_WARN then some (toW s.extWarn)
  else if 0x140 ≤ o ∧ o < 0x170 then some (railWord (s.hk.rails[(⟨(o - 0x140) / 4 % 12, Nat.mod_lt _ (by decide)⟩ : Fin 12)]))
  else if o = Reg.BANK_STATUS then some (toW s.bankStatus)
  else none

/-- A view of a cluster's block. -/
def State.clRead (s : State) (k : Cl) (o : Nat) : Option Word :=
  if o = Reg.CL_STATUS then some (toW (s.clStatus k))
  else if 0x10 ≤ o ∧ o < 0x28 then some (toW ((s.cl[k].pairs[(⟨(o - 0x10) / 4 % 6, Nat.mod_lt _ (by decide)⟩ : Fin 6)]).status))
  else none

/-- DMP_STATUS. -/
def State.dmpStatus (s : State) : Nat :=
  bitAt s.damper.frozen 0 + bitAt s.damper.pinLow 1 + bitAt s.damper.cmd 2 + bitAt s.damper.mode 3
/-- A view of the debug block. -/
def State.dbgRead (s : State) (o : Nat) : Option Word :=
  if o = Reg.DMP_STATUS then some (toW s.dmpStatus) else if o = Reg.DMP_STOKE then some s.damper.stoke else none

/-- EV_LEVEL: 32 lines from `b`. -/
def State.evLevel (s : State) (b : Nat) : Word :=
  toW ((List.range 32).foldl (fun (a : Nat) i => a + bitAt (s.evHigh ⟨(b + i) % 64, Nat.mod_lt _ (by decide)⟩) i) 0)

/-! All blocks. -/

/-- A view of a channel's block. -/
def State.chRead (s : State) (c : Ch) (o : Nat) : Option Word :=
  if o < 0x1000 then s.progRead c o
  else if o < 0x4000 then s.vecRead c o
  else if o < 0x8000 then s.servoRead c o
  else if o < 0xA000 then s.lasRead c o
  else if o < 0xC000 then s.loopRead c o
  else if o < 0xE000 then s.traceRead c o
  else if o < 0xE280 then s.estRead ⟨(o - 0xE000) / 0x80 % 6, Nat.mod_lt _ (by decide)⟩ c (o % 0x80)
  else s.winRead c o

/-- The view that a register gives of the state, where it is no stored value. -/
def State.viewAt (s : State) (x : RegAt) : Option Word :=
  match x.blk with
  | .glb => s.glbRead x.off
  | .stk => (s.timeRead x.off).map (·.1)
  | .acc => s.accRead x.off
  | .hk => s.hkRead x.off
  | .cl => s.clRead (ix4 x.inst) x.off
  | .ch => s.chRead (ix24 x.inst) x.off
  | .cam => if 0x300 ≤ x.off ∧ x.off < 0x350 then s.estRead 5 (ix24 x.inst) (x.off - 0x300) else s.camRead (ix24 x.inst) x.off
  | .em => if x.off = Reg.EM_STATUS then some (toW s.emStatus) else if x.off = Reg.GD_STATUS then some (toW s.gdStatus) else none
  | .emp => match s.emRead (ix24 x.inst) x.off with
    | some v => some v
    | none => s.gdRead (ix24 x.inst) x.off
  | .ma => if 0x400 ≤ x.off then s.encRead (ix8 x.inst) x.off else s.maRead (ix8 x.inst) x.off
  | .prb => s.prbRead x.off
  | .ill => s.illRead x.off
  | .tag => s.tagBlkRead x.off
  | .ev => if x.off = Reg.EV_LEVEL then some (s.evLevel 0) else if x.off = Reg.EV_LEVEL + 4 then some (s.evLevel 32) else none
  | .ring => s.ringRead (ix128 x.inst) x.off
  | .host => s.hostRead x.off
  | .eps => s.epsRead x.off
  | .lan => s.lanRead x.off
  | .dbg => s.dbgRead x.off

/-- What a register holds, without any effect of a read; WO registers read 0 (R10), unmapped addresses read 0 (R447). -/
def State.peek (s : State) (a : Nat) : Word :=
  match regAt a with
  | none => 0#32
  | some x => if x.rd.acc = .wo then 0#32 else (s.viewAt x).getD (s.reg a)

/-- What a read of a register returns: of an RC register that an event of the same clock reaches, the value before it (R11). -/
def State.readValue (s : State) (a : Nat) : Word :=
  match regAt a with
  | none => 0#32
  | some x => if x.rd.acc = .rc then (match s.clkNote a with
    | some n => n.before
    | none => s.peek a) else s.peek a

/-- The effects of a read: latches (R38, R406) and the clearing of an RC register (R10, R11). -/
def State.readEffect (s : State) (a : Nat) : State :=
  match regAt a with
  | none => s
  | some x =>
    if x.blk = .stk ∧ x.rd.acc ≠ .rc then match s.timeRead x.off with
      | some r => r.2
      | none => s
    else if x.blk = .acc ∧ x.off = Reg.LOG_HEAD_SEQ_LO then
      { s with log := { s.log with latHi := some (hi32 s.headSeq), latHead := some s.bank.head } }
    else if x.rd.acc = .rc then s.readClear a else s

/-! The snapshot (R30, R101). -/

/-- The readable ports of the snapshot; GAIN_LUT is write-only and reads 0 (R101). -/
def snapPorts : List Nat := (List.range 8) ++ [0x011, 0x012] ++ ((List.range 15).map (0x040 + ·)) ++ ((List.range 7).map (0x060 + ·))
  ++ ((List.range 0xC0).map (0x080 + ·)) ++ ((List.range 0xC0).map (0x140 + ·)) ++ ((List.range 0x15).map (0x240 + ·)) ++ ((List.range 8).map (0x260 + ·))
  ++ ((List.range 0x40).map (0x280 + ·)) ++ [0x2C0, 0x2C2, 0x2C3, 0x2C4, 0x2C5, 0x2C7] ++ ((List.range 5).map (0x2E0 + ·))
  ++ ((List.range 0x40).map (0x300 + ·)) ++ ((List.range 5).map (0x340 + ·))

/-- One port as the boundary that begins stoke k finds it, with TAI as `tai`. -/
def State.snapPort (s : State) (c : Ch) (k : Nat) (tai : Nat × Nat) (p : Nat) : Word :=
  let x := s.ch[c]
  if p = 0 then lo32 k
  else if p = 1 then hi32 k
  else if p = 2 then toW (tai.2 / 4)
  else if p = 3 then lo32 tai.1
  else if p = 4 then toW (s.chState c)
  else if p = 5 then x.layerNum
  else if p = 6 then toW (bitAt x.evtFlag 0)
  else if p = 7 then (if s.eng[s.engOf c].entry = .fault then toW x.fault else 0#32)
  else if p = 0x011 then toW (s.vecStatus c)
  else if p = 0x012 then toW (s.vec[c].index)
  else if p < 0x080 then (s.taPort c p k).getD 0#32
  else if 0x240 ≤ p ∧ p < 0x260 then (s.camPort c p).getD 0#32
  else if 0x2C0 ≤ p ∧ p < 0x2E0 then (s.syncPort c p).getD 0#32
  else if 0x2E0 ≤ p ∧ p < 0x300 then (s.calPort c p).getD 0#32
  else if 0x340 ≤ p then (s.tagPort c p).getD 0#32
  else match s.progPort c p with
    | some a => s.peek a
    | none => 0#32

/-- The snapshot of a channel: the ports that read other than 0. -/
def State.snapshot (s : State) (c : Ch) (k : Nat) (tai : Nat × Nat) : List (Nat × Word) :=
  snapPorts.filterMap fun p => let v := s.snapPort c k tai p; if v = 0#32 then none else some (p, v)

end Sys2Proof.Machine
end

