-- ==== Sys2Proof/Machine/Write.lean ====
section
/-! DEFINITION. A register write from its receipt to its effect: shape, phase, origin, ranges, the rules that refuse it, what it does, and how writes of one boundary meet (R8–R10, R31, R32, R355, R395–R398, R409, R433, R441, R447, R470). -/

namespace Sys2Proof.Machine
open Sys2Proof

/-! Refusals by rule. -/

/-- The fuse writes that KEY_CTRL asks for are allowed (R438), and no other is in progress. -/
def State.keyOk (s : State) (v : Word) : Bool :=
  let f := s.fuse
  let k : Fin 4 := ix4 (fld v 0 2)
  let good (j : Fin 4) : Bool := (f.keys[j]).isSome && !f.revoked[j]
  if fld v 8 2 = 0 ∧ bit v 16 = false then true
  else
    !f.busy && (!bit v 8 || (f.keys[k]).isNone) && (!bit v 9 || !f.secure || all4.any fun (j : Fin 4) => j != k && good j)
      && (!bit v 16 || all4.any fun (j : Fin 4) => good j)

/-- Rules of a channel's registers (R32, R90, R95, R106, R115, R121, R142, R152, R165, R195, R401, R439). -/
def State.chWriteOk (s : State) (c : Ch) (o : Nat) (w : Write) : Bool :=
  let v := w.val
  if o = Reg.PROG_CTRL then
    (!bit v 0 || s.boot.stage == .ready) && (!bit v 1 || !(s.pairOut c || s.switchBad c))
      && (!bit v 2 || (s.time.running && (s.ch[c].active.isSome || (bit v 1 && s.ch[c].inactive.isSome))))
  else if o = Reg.LAYER_CTRL then !bit v 0 || s.time.running
  else if o = Reg.FAULT_CTRL then !bit v 0 || !(s.anyFrozen c || !s.sv[c].fresh || s.clClearRefused c)
  else if o = Reg.VEC_CTRL then !bit v 0 || (!s.ch[c].inLayer && (s.vecRing c).any fun r => s.rings[r].st == .run)
  else if o = Reg.SV_SET ∨ o = Reg.SV_SET + 0x100 ∨ o = Reg.SV_SET + 0x200 then !s.taOwns c
  else if o = Reg.SV_CLEAR then !bit v 0 || !s.svClearRefused c
  else if o = Reg.SV_PARAM_APPLY ∨ o = Reg.SV_PARAM_APPLY + 0x100 ∨ o = Reg.SV_PARAM_APPLY + 0x200 then
    !bit v 0 || s.applyOk c (if o < 0x4100 then 0 else if o < 0x4200 then 1 else 2)
  else if o = Reg.LAS_CTRL then !bit v 0 || s.armOk c w.org
  else if o = Reg.LAS_PCAP then w.org == .safe || !s.safe.pcap[c] || decide (fld v 0 16 ≤ s.creg16 c Reg.LAS_PCAP)
  else if o = Reg.TRACE_CFG then !s.trace[c].isOn && s.traceCfgOk c v
  else if o = Reg.TRACE_ALLOC then !s.trace[c].isOn
  else if Reg.TRACE_NODE ≤ o ∧ o < Reg.TRACE_NODE + 64 then !s.trace[c].isOn && isNode (fld v 0 8)
  else if o = Reg.TRACE_CTRL then
    !bit v 0 || !s.armBad (allocOf (s.creg c Reg.TRACE_ALLOC)) (s.allocsBusy (some c) none)
  else true

/-- Rules of a pipeline's registers (R242, R245, R246, R249). -/
def State.camWriteOk (s : State) (m : Cam) (o : Nat) (v : Word) : Bool :=
  if o = Reg.CAM_CTRL then !bit v 0 || !s.camStartBad m
  else if o = Reg.CAM_BIND then s.cam[m].st == .stopped && !s.bindClash m v
  else if o = Reg.CAM_TRC_CFG then !s.camTr[m].isOn && decide (fld v 0 16 ≤ s.camTrD m)
  else if o = Reg.CAM_TRC_ALLOC then !s.camTr[m].isOn
  else if o = Reg.CAM_TRIG_OFFSET then decide (fld v 0 13 < s.stokeCyc)
  else if o = Reg.CAM_TRC_CTRL then
    !bit v 0 || !s.armBad (allocOf (s.mreg m Reg.CAM_TRC_ALLOC)) (s.allocsBusy none (some m))
  else !camLocked o || s.cam[m].st == .stopped

/-- A rule of the register's chapter lets the write take effect, judged where it would. -/
def State.writeOk (s : State) (x : RegAt) (w : Write) : Bool :=
  let o := x.off
  let v := w.val
  match x.blk with
  | .glb => if o = Reg.LSAFE_CLR then !bit v 0 || s.lsafeClrOk else if o = Reg.KEY_CTRL then s.keyOk v else true
  | .stk =>
    if o = Reg.STOKE_CFG then !s.time.running && s.rateFits (fld v 0 2)
    else if o = Reg.STOKE_CTRL then !bit v 0 || s.boot.stage == .ready else true
  | .hk => if o = Reg.DIP_GATE_STOKES then s.dipGateOk w.org v else true
  | .cl => if o = Reg.CL_SWAP_CTRL then !bit v 0 || s.takeOk (ix4 x.inst) else true
  | .ch => s.chWriteOk (ix24 x.inst) o w
  | .cam => s.camWriteOk (ix24 x.inst) o v
  | .em =>
    if o = Reg.EM_CFG then s.emCfgOk v
    else if o = Reg.EM_CTRL then !bit v 0 || !s.anyLayer
    else if emLocked o then !bit (s.reg (emReg Reg.EM_CFG)) 0
    else if gdLocked o then !s.anyLayer else true
  | .ma =>
    let n := ix8 x.inst
    if o = Reg.MA_CTRL then s.time.running || fld v 4 3 + fld v 0 1 == 0
    else if 0x400 ≤ o then s.encWriteOk n o v else s.maWriteOk n o v
  | .ill => s.illWriteOk o v
  | .tag => if o = Reg.XFER_CTRL then s.xferOk v else true
  | .ring =>
    let r := ix128 x.inst
    if o = Reg.RING_CTRL then s.ringCtrlOk r v
    else if o = Reg.RING_DOORBELL then decide (w.org = s.ringOwner r) && s.doorbellOk r v
    else if o ≤ Reg.RING_IDXB_HI then s.ringCfgOk r else true
  | .lan =>
    if o < 0x1000 then true
    else
      let p : Fin 2 := if o < 0x2000 then 0 else 1
      if o % 0x1000 = Reg.PORT_CTRL % 0x1000 then s.portCtrlOk p v else s.portWriteOk p (o % 0x1000) v
  | .acc | .emp | .prb | .ev | .host | .eps | .dbg => true

/-! Effects. -/

/-- The boot image read from the host begins (R436). -/
def State.bootGo (s : State) : State :=
  if s.boot.stage = .fetch ∧ s.boot.fromHost ∧ s.boot.fetching = false then
    let a := (s.reg Reg.BOOT_SRC_LO).toNat + 4294967296 * (s.reg Reg.BOOT_SRC_HI).toNat
    ({ s with boot := { s.boot with fetching := true } }).out (.hostRead a (s.regF Reg.BOOT_LEN 0 23))
  else s

/-- KEY_DATA. -/
def State.keyData (s : State) : List Byte := (List.range 16).flatMap fun w => bytesBE (s.reg (Reg.KEY_DATA + 4 * w))
/-- A fuse write begins (R438). -/
def State.keyGo (s : State) (v : Word) : State :=
  let j := bitAt (bit v 8) 0 + bitAt (bit v 9) 1 + bitAt (bit v 16) 2
  if j = 0 then s else { s with fuse := { s.fuse with busy := true, job := some (j, ix4 (fld v 0 2)) } }

/-- STOKE_CTRL.RUN: cycle 0 of stoke 0 is the next cycle whose count since reset is a multiple of 4. The instants of the
state count from it thereafter. -/
def State.stokeRun (s : State) : State :=
  if s.time.running then s
  else
    let z := (s.now + 3) / 4 * 4
    let zi : Int := (z : Nat)
    let q := s.time.taiQ + 5 * z
    let lim (l : LimIn) : LimIn := { l with since := l.since - zi }
    let motor (x : Motor) : Motor :=
      { x with m := { x.m with lims := vmap x.m.lims lim }, c := { x.c with clk := 0, until_ := x.c.until_ - zi / 8 },
               f := { x.f with highAt := x.f.highAt.map (· - zi) } }
    let chain (u : IllU) : IllU :=
      { u with shift := u.shift.map fun y => (y.1, y.2.1 - zi, y.2.2), pendAt := u.pendAt.map (· - zi),
               openAt := u.openAt.map fun y => (y.1 - zi, y.2 - zi), testAt := u.testAt.map fun y => (y.1 - zi, y.2 - zi),
               closedAt := u.closedAt - zi }
    let pipe (c : Camera) : Camera :=
      { c with exp := c.exp.map fun x => (x.1, x.2.1, x.2.2.1, x.2.2.2 - zi), rise := c.rise.map (· - zi), fall := c.fall.map (· - zi),
               pending := c.pending.map fun p => { p with rise := p.rise - zi } }
    let s : State := { s with
      now := 0, clk := ⟨0, []⟩, sv := vmap s.sv fun (v : SvCh) => { v with killSeen := s.killed }, las := vmap s.las fun (l : Las) => { l with seen := 0 },
      time := { s.time with running := true, cnt := 0, taiSec := (s.time.taiSec + q / 4000000000) % 2 ^ 40, taiQ := q % 4000000000,
                            armAt := none },
      evt := { s.evt with lines := vmap s.evt.lines fun (l : EvLine) => l.back z, acts := s.evt.acts.map fun a => (a.1, a.2 - z) },
      ma := vmap s.ma motor, ill := vmap s.ill chain, cam := vmap s.cam pipe, log := { s.log with denied := 0 } }
    (s.setReg Reg.GLB_STATUS (toW s.glbStatus)).stampOut

/-- A level held for want of a die sensor is released (R417). -/
def State.hkRelease (s : State) (v : Word) : State :=
  if bit v 0 ∧ s.hk.heldBy ≠ [] then { s with hk := { s.hk with heldBy := [], released := true } } else s

/-- PROG_CTRL, in this order: LOAD, SWITCH, LUT_SWAP, RUN, HALT. While the stoke runs LOAD acts at the write and not at the boundary
(R107, R472). -/
def State.progCtrl (s : State) (c : Ch) (v : Word) (idx : Nat) : State :=
  let s := if bit v 0 && !(s.time.running && s.now == s.stokeCyc) then s.progLoad c else s
  let s := if bit v 1 then s.progSwitch c else s
  let s := if bit v 4 then s.lutSwap c else s
  let s := if bit v 2 then s.progRun c idx else s
  if bit v 3 then s.progHalt c else s

/-- A host's write of a target that estimator n feeds restarts its round (R255). -/
def State.estRetarget (s : State) (n : Fin 6) (i : Fin 24) (w : Write) : State :=
  match w.org with
  | .hw | .core _ => s.modEst n i fun e => { e with dirty := true }
  | _ => s.modEst n i fun e => { e with dirty := true, retarget := w.addr :: e.retarget }

/-- Work that waits for a boundary is done at once before RUN (R32). -/
def State.atOnce (s : State) (f : State → State) : State := if s.time.running then s else f s

/-- A servo register, as an axis and an offset of axis X. -/
def servoAx (o : Nat) : Ax × Nat :=
  if o < 0x4100 then (0, o) else if o < 0x4200 then (1, o - 0x100) else (2, o - 0x200)

/-- The servo block. A ramp starts where a target changes, or is written again during a ramp (R149, R150). -/
def State.servoWrote (s : State) (c : Ch) (o : Nat) (w : Write) : State :=
  let a := chReg c o
  let v := w.val
  if o < 0x4300 then
    let (x, k) := servoAx o
    if isParam k then s.paramShadow c x k v
    else if k = Reg.SV_PARAM_APPLY then
      (if bit v 0 then s.paramApply c x else s)
    else if k = Reg.SV_PD_OFFSET_TGT ∨ k = Reg.SV_PD_GAIN_TGT then
      let n : Fin 6 := if x = 0 then 1 else if x = 1 then 2 else 3
      let new := s.reg a != v
      let s := ((s.setReg a v).modAx c x fun u => { u with pdDirty := u.pdDirty || new || u.pdRamp }).estRetarget n c w
      s.atOnce fun s => s.servoRamps c
    else s.setReg a v
  else if o = Reg.SV_CTRL then (s.setReg a v).svEnable c v
  else if o = Reg.SV_CLEAR then
    (if bit v 0 then s.svClear c else s)
  else if Reg.TRIM_DX_TGT ≤ o ∧ o ≤ Reg.TRIM_SCALE_TGT then
    let new := s.reg a != v
    (((s.setReg a v).modSv c fun u => { u with trimDirty := u.trimDirty || new || u.ramping }).estRetarget 4 c w).atOnce fun s => s.servoRamps c
  else if o = Reg.GRID_CTRL then
    let s := if bit v 2 then s.gridAbort c else s
    let s := if bit v 0 then s.gridLoad c true else s
    if bit v 1 then s.gridLoad c false else s
  else s.setReg a v

/-- The rest of a channel's block. -/
def State.chWrote (s : State) (c : Ch) (o : Nat) (w : Write) : State :=
  let a := chReg c o
  let v := w.val
  if o = Reg.PROG_CTRL then s.progCtrl c v w.aux
  else if o = Reg.LAYER_CTRL then (if bit v 0 then s.layerReq c else s)
  else if o = Reg.FAULT_CTRL then
    (if bit v 0 then (s.modCh c fun x => { x with clearDue := true, resumeDue := bit v 1 }).atOnce fun s => s.faultClear c else s)
  else if o = Reg.ENG_FSTAT then s.w1c a v
  else if o = Reg.ENG_TRAP_CLR then
    (if bit v 0 then (s.setReg (chReg c Reg.ENG_TRAP) 0#32).setReg (chReg c Reg.ENG_TRAP_STOKE) 0#32 else s)
  else if o = Reg.VEC_CFG then (s.setReg a v).vecLow c
  else if o = Reg.VEC_CTRL then (if bit v 0 then s.vecRestart c w.aux else s)
  else if 0x4000 ≤ o ∧ o < 0x8000 then s.servoWrote c o w
  else if o = Reg.LAS_CTRL then
    let s := if bit v 0 then s.lasArm c else s
    if bit v 1 then
      let s := if s.las[c].arm = .disarmed then s else s.lasTrip c (if w.org = .safe then 2 else 1)
      if w.org = .safe then { s with safe := { s.safe with inh := s.safe.inh.set c.val true c.isLt } } else s
    else s
  else if o = Reg.LAS_CFG then
    let old := s.reg a
    let s := s.setReg a v
    let s := if bit v 1 ≠ bit old 1 then s.lasReady c (!s.las[c].ready) else s
    if bit v 2 ≠ bit old 2 then s.lasAlarm c (!s.las[c].alarm) else s
  else if o = Reg.LAS_PCAP then
    let s := s.setReg a v
    if w.org = .safe then { s with safe := { s.safe with pcap := s.safe.pcap.set c.val true c.isLt } } else s
  else if o = Reg.LOOP_MODE then
    let s := s.setReg a (v &&& 0x103#32)
    if s.time.running then s.modLoop c fun l => { l with req := some v } else s.modeRequest c v
  else if isCoef o then (s.coefJoin c w).atOnce fun s => s.coefApply c
  else if o = Reg.TRACE_CTRL then s.traceCtrl c v
  else if 0xE000 ≤ o ∧ o < 0xE280 ∧ o % 0x80 = 4 then
    let n : Fin 6 := ⟨(o - 0xE000) / 0x80 % 6, Nat.mod_lt _ (by decide)⟩
    (s.modEst n c fun e => { e with start := e.start || bit v 0, abort := e.abort || bit v 1 }).atOnce fun s => s.estStep n c
  else if 0xE000 ≤ o ∧ o < 0xE280 ∧ o % 0x80 = 0 then
    (s.setReg a v).atOnce fun s => s.estStep ⟨(o - 0xE000) / 0x80 % 6, Nat.mod_lt _ (by decide)⟩ c
  else if o = Reg.DARK_E_TGT ∨ o = Reg.DARK_B_TGT then ((s.setReg a v).estRetarget 0 c w).atOnce fun s => s.estRamp 0 c
  else s.setReg a v

/-- A pipeline's block. -/
def State.camWrote (s : State) (m : Cam) (o : Nat) (w : Write) : State :=
  let a := camReg m o
  let v := w.val
  if o = Reg.CAM_CTRL then s.camCtrl m v
  else if o = Reg.CAM_BIND then s.camBind m v
  else if o = Reg.CAM_MODE then s.camModeWrite m v
  else if o = Reg.CAM_TRC_CTRL then s.camTrCtrl m v
  else if o = Reg.CAM_TRIG_REQ then (if bit v 0 then s.modCam m fun c => { c with reqDue := true } else s)
  else if Reg.CAM_EXP_A ≤ o ∧ o ≤ Reg.CAM_SET_GAP then
    let old := s.reg a
    let s := s.setReg a v
    if old = v then s
    else if s.time.running then s.modCam m fun c => { c with genDue := true }
    else s.modCam m fun c => { c with gen := (c.gen + 1) % 256 }
  else if o = 0x304 then
    (s.modEst 5 m fun e => { e with start := e.start || bit v 0, abort := e.abort || bit v 1 }).atOnce fun s => s.estStep 5 m
  else if o = 0x300 then (s.setReg a v).atOnce fun s => s.estStep 5 m
  else if o = Reg.CAMD_TGT then ((s.setReg a v).estRetarget 5 m w).atOnce fun s => s.estRamp 5 m
  else s.setReg a v

/-- A line's source and shape change: a pulse being stretched ends (R23). -/
def State.evWrote (s : State) (o : Nat) (v : Word) : State :=
  let l : Fin 64 := ⟨o / 4 % 64, Nat.mod_lt _ (by decide)⟩
  let stop : Int := if s.evBusy l then s.now else s.evt.lines[l].until_
  let s := s.setReg (evReg o) v
  if o < 0x100 then
    let act := fld v 0 10 != 0 && s.evt.levels.contains (fld v 0 10) != bit v 12
    { s with evt := { s.evt with lines := s.evt.lines.set l.val ⟨act, s.now, stop, stop⟩ l.isLt } }
  else s

/-- A motion axis, with its encoder. -/
def State.maWrote (s : State) (n : Ma) (o : Nat) (w : Write) : State :=
  let a := maReg n o
  let v := w.val
  if o = Reg.MA_CTRL then s.maCtrlApply n w.org v
  else if o = Reg.POS_SET then s.posSet n v
  else if o = Reg.LIM_CLR then s.limClr n v
  else if o = Reg.LIM_CFG then s.limPol n v
  else if o = Reg.DECEL then (s.setReg a v).modMa n fun u => { u with decDue := true }
  else if 0x400 ≤ o then
    let old := s.reg a
    let s := if o = Reg.CMP_CTRL ∨ o = Reg.IDX_CTRL then s else s.setReg a v
    (s.encWrote n o old v).atOnce fun s => s.cmpNow n
  else s.setReg a v

/-- R10: the bits written 1 of a W1S register are set. No rule names an instant at which a command bit returns to 0, so it reads 1 until
reset; a later write of 1 commands again (log entry 68). -/
def State.w1s (s : State) (x : RegAt) (w : Write) : State :=
  if x.rd.acc = .w1s then s.setReg w.addr (s.reg w.addr ||| toW (w.val.toNat &&& fieldMask x.rd)) else s

/-- What a write does that takes effect; `v` is masked to the register's fields (R8). -/
def State.wrote (s : State) (x : RegAt) (w : Write) : State :=
  let s := s.w1s x w
  let o := x.off
  let v := w.val
  let a := w.addr
  match x.blk with
  | .glb =>
    if o = Reg.LSAFE_CLR then (if bit v 0 then { s with lsafe := { s.lsafe with disc := false } } else s)
    else if o = Reg.BOOT_CTRL then (if bit v 0 then s.bootGo else s)
    else if o = Reg.KEY_CTRL then s.keyGo v
    else s.setReg a v
  | .stk =>
    if o = Reg.STOKE_CTRL then (if bit v 0 then s.stokeRun else s)
    else if o = Reg.PPS_CTRL then let s := s.setReg a (v &&& 2#32); if bit v 0 then s.ppsArm else s
    else if o = Reg.OVR_FLAG then s.w1c a v
    else s.setReg a v
  | .acc =>
    if o = Reg.SVC_CTRL then (if bit v 0 then { s with svc := { s.svc with unlocked := false, challenge := none } } else s)
    else s.setReg a v
  | .hk =>
    if o = Reg.HK_OVERRIDE then s.hkRelease v
    else if o = Reg.SUP_DIP then s.w1c a v
    else s.setReg a v
  | .cl =>
    let k := ix4 x.inst
    if o = Reg.CL_SWAP_CTRL then
      let s := if bit v 0 then s.clSwapTake k else s
      let s := if bit v 1 then s.clSwapReturn k else s
      if bit v 2 then s.clSwapAbort k else s
    else s.setReg a v
  | .ch => s.chWrote (ix24 x.inst) o w
  | .cam => s.camWrote (ix24 x.inst) o w
  | .em =>
    if o = Reg.EM_CFG then s.emCfg v
    else if o = Reg.EM_CTRL then (if bit v 0 then s.emClear else s)
    else if o = Reg.EM_STATUS ∨ o = Reg.GD_STATUS then s.w1c a v
    else s.setReg a v
  | .emp =>
    let c := ix24 x.inst
    if o = Reg.EMP_DEP_GAIN then s.emGain c v
    else if o = Reg.PLAN_PUB then s.planPubWrite c v s.time.cnt
    else s.setReg a v
  | .ma => s.maWrote (ix8 x.inst) o w
  | .prb => if o = Reg.PRB_CTRL then s.prbRearm v else s.setReg a v
  | .ill => if o < 0x400 ∧ o % 0x100 = Reg.ILL_CTRL then s.illWrote o v else (s.setReg a v).illWrote o v
  | .tag =>
    if o = Reg.TAG_CTRL then s.tagCtrl v
    else if o = Reg.XFER_CTRL then (s.setReg a v).xferGo v
    else s.setReg a v
  | .ev => s.evWrote o v
  | .ring =>
    let r := ix128 x.inst
    if o = Reg.RING_CTRL then
      let s := if bit v 0 then s.ringEnable r w.aux else s
      if bit v 1 then s.ringDisable r else s
    else if o = Reg.RING_DOORBELL then s.doorbell r v
    else s.setReg a v
  | .host =>
    if 0x100 ≤ o ∧ o < 0x160 then s.w1c a v
    else if Reg.INT_PEND ≤ o ∧ o < Reg.INT_PEND + 32 then s.intPendWrite w.org ((o - Reg.INT_PEND) / 4) v
    else if o = Reg.INT_ACK then s.intAck w.org (fld v 0 8)
    else s.setReg a v
  | .lan =>
    if 0x1000 ≤ o ∧ o % 0x1000 = Reg.PORT_CTRL % 0x1000 then s.portCtrl (if o < 0x2000 then 0 else 1) v else s.setReg a v
  | .dbg => if o = Reg.DMP_CTRL then s.dmpCtrl v else s.setReg a v
  | .eps => s.setReg a v

/-! Log entries of writes (R398). -/

/-- The port that reaches the register is marked L in R101; of the servo those of P registers and PARAM_APPLY (R155). -/
def isL (x : RegAt) : Bool :=
  match x.blk with
  | .ch =>
    (decide (0x4000 ≤ x.off ∧ x.off < 0x4300) && decide (0x20 ≤ x.off % 0x100 ∧ x.off % 0x100 ≤ 0x84)) || x.off == Reg.LOOP_MODE || isCoef x.off || decide (0xC000 ≤ x.off ∧ x.off < 0xD000)
  | .cam => x.off != Reg.CAM_TRIG_AT
  | _ => false

/-- A write that takes effect makes an entry. -/
def loggable (x : RegAt) (org : Origin) : Bool :=
  match org with
  | .core _ => isL x
  | _ =>
    !((x.blk == .glb && x.off == Reg.GLB_SCRATCH) || (x.blk == .ring && x.off == Reg.RING_DOORBELL)
      || (x.blk == .host && decide (Reg.INT_PEND ≤ x.off)) || (x.blk == .tag && decide (Reg.XFER_DATA ≤ x.off)))

/-- The WRITE entry of a write whose value before was `old`. A key is logged by its SHA-256 (R353, R438). -/
def State.logWrite (s : State) (x : RegAt) (w : Write) (old : Word) : State :=
  if !loggable x w.org || (x.blk == .ch && isCoef x.off) then s
  else if x.blk = .tag ∧ Reg.TAG_ISSUER ≤ x.off ∧ x.off < Reg.TAG_ISSUER + 256 then
    let t := s.setReg w.addr w.val
    s.logRunBy w.org 1 w.addr (keyHash ((List.range 16).flatMap fun i => bytesBE (t.reg (tagReg (Reg.TAG_ISSUER + (x.off - Reg.TAG_ISSUER) / 64 * 64 + 4 * i)))))
  else if x.blk = .glb ∧ x.off = Reg.KEY_CTRL ∧ (bit w.val 8 ∨ bit w.val 9) then
    s.logRunBy w.org 1 w.addr (keyHash (if bit w.val 8 then s.keyData else (s.fuse.keys[ix4 (fld w.val 0 2)]).getD []))
  else s.logPush w.org false w.addr 1 old w.val

/-! One write takes effect. -/

/-- A write reaches its effect: refused and denied by a rule, or logged, and then done. Beside a refusal a SWITCH logs REFUSE
(R106), a setpoint that the assist owns sets CONFLICT (R121), and a bad doorbell BAD_DB (R358). -/
def State.writeEffect (s : State) (x : RegAt) (w : Write) : State :=
  let inForce := s.peek w.addr
  if s.writeOk x w then (s.logWrite x w inForce).wrote x w
  else
    let s := s.denyWith w.org w.addr inForce w.val
    if x.blk = .ch ∧ x.off = Reg.PROG_CTRL ∧ bit w.val 1 ∧ s.switchBad (ix24 x.inst) then s.progSwitch (ix24 x.inst)
    else if x.blk = .ch ∧ (x.off = Reg.SV_SET ∨ x.off = Reg.SV_SET + 0x100 ∨ x.off = Reg.SV_SET + 0x200) then s.taConflict (ix24 x.inst)
    else if x.blk = .ring ∧ x.off = Reg.RING_DOORBELL ∧ w.org = s.ringOwner (ix128 x.inst) then s.doorbellBad (ix128 x.inst)
    else s

/-! The boundary (R31). -/

/-- The write `b` comes before `a` where both reach one field: higher precedence, or the same origin's later write. -/
def Write.beats (a b : Write × Nat) : Bool :=
  let p := precOf (b8 (Origin.code a.1.org))
  let q := precOf (b8 (Origin.code b.1.org))
  decide (p < q) || (p == q && decide (b.2 < a.2))

/-- Put a write where it belongs among rivals, the one that stands first. -/
def rankInsert (w : Write × Nat) : List (Write × Nat) → List (Write × Nat)
  | [] => [w]
  | x :: r => if Write.beats w x then w :: x :: r else x :: rankInsert w r

/-- Rivals in the order in which they would stand. -/
def rank : List (Write × Nat) → List (Write × Nat)
  | [] => []
  | w :: r => rankInsert w (rank r)

/-- A write that does not stand is logged with SUPERSEDED. -/
def State.logSuperseded (s : State) (x : RegAt) (w : Write) : State :=
  if loggable x w.org && !(x.blk == .ch && isCoef x.off) then s.logPush w.org true w.addr 1 (s.peek w.addr) w.val else s

/-- Rivals for an RW register, first choice first: the first that no rule refuses stands, and those after it are superseded.
The entries of one origin stand in the order of its writes (DEDUCED: R405 orders by precedence and by OBJECT alone). -/
def State.rwResolve (s : State) (x : RegAt) : List (Write × Nat) → State
  | [] => s
  | w :: r =>
    if s.writeOk x w.1 then
      let mine (y : Write × Nat) : Bool := y.1.org == w.1.org
      let s := (r.reverse.filter mine).foldl (fun (s : State) y => s.logSuperseded x y.1) s
      (r.reverse.filter fun y => !mine y).foldl (fun (s : State) y => s.logSuperseded x y.1) (s.writeEffect x w.1)
    else State.rwResolve (s.writeEffect x w.1) x r

/-- The bits of a W1S, W1C or WO write that stand against its rivals in `l`; a rival that a rule refuses writes nothing and takes no
bit. `took` are the rivals that arrived before it and were accepted. -/
def State.standing (s : State) (x : RegAt) (l : List (Write × Nat)) (took : List Nat) (w : Write × Nat) : Word :=
  l.foldl (fun (v : Word) y =>
    let ok := if y.2 < w.2 then took.contains y.2 else s.writeOk x y.1
    if Write.beats y w && ok then v &&& ~~~y.1.val else v) w.1.val

/-- Writes to a register whose bits are fields of their own, in the order of their arrival, each with the bits that stand. -/
def State.bitResolve (s : State) (x : RegAt) (l : List (Write × Nat)) : State :=
  (l.foldl (fun (a : State × List Nat) w =>
    let v := a.1.standing x l a.2 w
    let w' : Write := { w.1 with val := v }
    if v = 0#32 ∧ w.1.val ≠ 0#32 then (a.1.logSuperseded x w.1, a.2)
    else (a.1.writeEffect x w', if a.1.writeOk x w' then w.2 :: a.2 else a.2)) (s, [])).1

/-- A WO register with a field wider than a bit: its write is one value. -/
def wideWo (d : RegDef) : Bool := d.acc == .wo && d.flds.any fun f => decide (1 < f.w)

/-- The writes of the boundary to one address. -/
def State.addrResolve (s : State) (l : List (Write × Nat)) (a : Nat) : State :=
  let l := l.filter fun w => w.1.addr == a
  match regAt a with
  | none => s
  | some x => if x.rd.acc = .rw || wideWo x.rd then s.rwResolve x (rank l) else s.bitResolve x l

/-- The addresses of a list of writes, each once, in the order of arrival. -/
def addrsOf : List (Write × Nat) → List Nat
  | [] => []
  | w :: r => let t := addrsOf r; if t.contains w.1.addr then t else w.1.addr :: t

/-- A port write that R470 refuses at its commit. Coefficients (R192), the deposit gain (R210) and gate edges (R160) have
rules of their own for a value out of range. -/
def portBad (x : RegAt) (w : Write) : Bool :=
  w.port && !(x.blk == .ch && isCoef x.off) && !(x.blk == .emp && x.off == Reg.EMP_DEP_GAIN)
    && !(x.blk == .ch && decide (Reg.LAS_GATE_ON ≤ x.off ∧ x.off ≤ Reg.LAS_GATE_OFF)) && !fieldsOk x.rd w.val

/-- The staged writes take effect at the boundary, those to registers of kind `late` left out or alone: RW registers first,
then the others. VEC_CTRL is `late`, since it is judged after the layers of the boundary (R115). -/
def State.resolve (s : State) (late : Bool) : State :=
  let isLate (w : Write) : Bool := w.addr % 65536 == Reg.VEC_CTRL && decide (0x100000 ≤ w.addr ∧ w.addr < 0x280000)
  let mine := s.staged.filter fun w => isLate w == late
  let s := { s with staged := s.staged.filter fun w => isLate w != late }
  -- a port write out of its range is denied at its commit (R396), and coefficients join their queue
  let step (a : State × List Write) (w : Write) : State × List Write :=
    match regAt w.addr with
    | none => a
    | some x =>
      if portBad x w then (a.1.denyWith w.org w.addr (a.1.peek w.addr) w.val, a.2)
      else if x.blk = .ch ∧ isCoef x.off then (a.1.coefJoin (ix24 x.inst) w, a.2)
      else (a.1, a.2 ++ [{ w with val := if x.rd.acc = .rw then toW (w.val.toNat &&& fieldMask x.rd) else w.val }])
  let r := mine.foldl step (s, [])
  let l := r.2.zipIdx
  let addrs := addrsOf l
  let rw (a : Nat) : Bool := match regAt a with
    | some x => x.rd.acc == .rw
    | none => false
  let s := (addrs.filter rw).foldl (fun (s : State) a => s.addrResolve l a) r.1
  (addrs.filter fun a => !rw a).foldl (fun (s : State) a => s.addrResolve l a) s

/-! Receipt. -/

/-- A write of PROG_CTRL while the stoke runs: a SWITCH is judged at the write (R106), a LOAD acts then (R472, log 12), and the other bits
wait for the boundary (R107), where a SWITCH is judged again. -/
def State.progReceive (s : State) (x : RegAt) (w : Write) : State :=
  let c := ix24 x.inst
  if (bit w.val 1 && (s.pairOut c || s.switchBad c)) || (bit w.val 0 && s.boot.stage != .ready) || w.val == 1#32 then s.writeEffect x w
  else
    let s := if bit w.val 0 then s.progLoad c else s
    { s with staged := s.staged ++ [w] }

/-- The log is blocked for writes of the origin that would make an entry (R409). -/
def State.logBlocks (s : State) (org : Origin) : Bool :=
  decide (3840 ≤ s.log.held.length) && match org with
    | .host0 | .host1 | .svc | .peer _ => true
    | _ => false
/-- A write refused at its receipt: denied, unless the log is blocked for it. -/
def State.refuse (s : State) (org : Origin) (a : Nat) (val : Word) : State :=
  if s.logBlocks org then s.bump (accReg Reg.LOG_BLOCK_CNT) else s.denyWith org a (s.peek a) val

/-- R470 leaves these to their own rules: coefficients (R192). -/
def ownRange (x : RegAt) : Bool := x.blk == .ch && isCoef x.off

/-- Before READY the host reaches the global block alone (R433). -/
def State.preReady (s : State) (a : Nat) (org : Origin) : Bool :=
  s.boot.stage != .ready && decide (0x2BF < a) && (org == .host0 || org == .host1)

/-- A write that an origin presents, whole and aligned, at the latest instant. `early` lifts R433's restriction (R434). -/
def State.regWriteE (s : State) (early : Bool) (org : Origin) (a : Nat) (val : Word) (aux : Nat) : State :=
  if s.damper.frozen && !decide (0x800000 ≤ a ∧ a ≤ 0x800187) then s
  else if s.preReady a org && !early then s.refuse org a val
  else match regAt a with
    | none => s.refuse org a val
    | some x =>
      if x.rd.acc = .ro ∨ x.rd.acc = .rc ∨ s.originOk x org val = false ∨ (ownRange x = false ∧ fieldsOk x.rd val = false) then s.refuse org a val
      else if s.logBlocks org && loggable x org then s.bump (accReg Reg.LOG_BLOCK_CNT)
      else
        let v := if x.rd.acc = .rw then toW (val.toNat &&& fieldMask x.rd) else val
        let w : Write := ⟨org, a, v, false, aux⟩
        if x.blk = .ma ∧ x.off = Reg.MA_CTRL ∧ s.time.running then
          { (s.maCtrlNow (ix8 x.inst) v) with staged := s.staged ++ [w] }
        else if x.blk = .ma ∧ x.off = Reg.MA_CTRL then
          (if s.writeOk x w then (s.maCtrlNow (ix8 x.inst) v).writeEffect x w else s.writeEffect x w)
        else if x.blk = .ch ∧ x.off = Reg.PROG_CTRL ∧ s.time.running then s.progReceive x w
        else if x.rd.imm || ownRange x || !s.time.running then s.writeEffect x w
        else { s with staged := s.staged ++ [w] }

/-- The same, with R433 in force. -/
def State.regWrite (s : State) (org : Origin) (a : Nat) (val : Word) (aux : Nat) : State := s.regWriteE false org a val aux

/-- A BAR0 write request of function 0 or 1, with its byte enables (R355). -/
def State.barWrite (s : State) (org : Origin) (a : Nat) (be : BitVec 4) (val : Word) (aux : Nat) : State :=
  if a % 4 = 0 ∧ be = 0xF#4 then s.regWrite org a val aux
  else if s.damper.frozen then s else s.hostErr

/-- A BAR0 read request: the answer, and what the read does (R355, R433, R441). -/
def State.barRead (s : State) (a : Nat) (be : BitVec 4) : Word × State :=
  if ¬(a % 4 = 0 ∧ be = 0xF#4) then (0xFFFFFFFF#32, if s.damper.frozen then s else s.hostErr)
  else if s.damper.frozen && !decide (0x800000 ≤ a ∧ a ≤ 0x800187) then (0xFFFFFFFF#32, s)
  else if s.boot.stage != .ready && decide (0x2BF < a) && !s.damper.frozen then (0xFFFFFFFF#32, s)
  else (s.readValue a, s.readEffect a)

end Sys2Proof.Machine
end

