-- ==== Sys2Proof/Machine/Act.lean ====
section
/-! DEFINITION. How a command meets the machine: the instant it happens at, whether the main die's clocks run, and the acts of the event matrix that it sets off (R22, R32, R396, R441; log entry 3). -/

namespace Sys2Proof.Machine
open Sys2Proof

/-- Before RUN: the instant at which the present window of 5 µs ends (R396). -/
def State.windowEnd (s : State) : Nat :=
  let q := s.time.taiQ + 5 * s.now
  ((q / 20000 + 1) * 20000 - s.time.taiQ + 4) / 5

/-- Time moves on to an instant of the present stoke, or of the time before RUN. A window of denied writes that ends meanwhile is closed. -/
def State.advance (s : State) (t : Nat) : State :=
  if s.time.running then s.at_ (min t (s.stokeCyc - 1))
  else if (s.log.denied ≠ 0 ∨ s.log.suppressed ≠ 0) ∧ s.windowEnd ≤ t then ((s.at_ s.windowEnd).suppressEnd).at_ t
  else s.at_ t

/-- A destination of the event matrix acts (R22–R24). Destinations 40–47 are pins, which follow their lines (State.evtOut). -/
def State.evAct (s : State) (m t : Nat) : State :=
  if m < 24 then s.camEvent (ix24 m) t
  else if m < 28 then s.strobeReq (ix4 (m - 24)) t
  else if m < 36 then (s.advance t).maEvent (ix8 (m - 28))
  else if m < 40 then
    let r := (s.advance t).prbEvent (ix4 (m - 36))
    if r.2 then r.1.bladeContact (ix4 (m - 36)) else r.1
  else if m < 48 then s
  else if m < 72 then s.modCh (ix24 (m - 48)) fun x => { x with evtNext := true }
  else if bit (s.creg (ix24 (m - 72)) Reg.TRACE_TRIG_CFG) 1 then s.traceTrigger (ix24 (m - 72)) else s

/-- An act falls in the present stoke; before RUN there is none to wait for. -/
def State.actHere (s : State) (a : Nat × Nat) : Bool := !s.time.running || decide (a.2 < s.stokeCyc)
/-- The acts that fall in the present stoke, oldest first; those past its end wait. -/
def State.evDue (s : State) : State :=
  let due := s.evt.acts.filter s.actHere
  let s := { s with evt := { s.evt with acts := s.evt.acts.filter fun a => !s.actHere a } }
  due.foldl (fun (s : State) a => s.evAct a.1 a.2) s

/-- Acts set off by acts follow, link by link of a chain. -/
def State.settleN (s : State) : Nat → State
  | 0 => s
  | n + 1 => if s.evt.acts.any s.actHere then State.settleN s.evDue n else s

/-- The acts that a command has set off are done. A link of a chain takes at least one motion clock, so no chain has more links in a stoke
than the stoke has motion clocks (R22). -/
def State.settle (s : State) : State := s.settleN (s.stokeCyc / 8)

/-- A command of the main die at an instant: nothing happens while the die stands still. -/
def State.act (s : State) (t : Nat) (f : State → State) : Host.Outcome State Fault Refusal :=
  if s.halted then .next s else .next ((f (s.advance t)).settle)

/-- A command that reaches the device while the main die stands still too. -/
def State.actAlways (s : State) (t : Nat) (f : State → State) : Host.Outcome State Fault Refusal :=
  if s.halted then .next (f s) else .next ((f (s.advance t)).settle)

/-- A command that is a register write of one register with one value (its row names it). A frozen die still answers in its
debug block (R441). -/
def State.actWrite (s : State) (t : Nat) (org : Origin) (a : Nat) (val : Word) (aux : Nat) : Host.Outcome State Fault Refusal :=
  if s.boot.inReset || s.hk.shut then .next s else s.actAlways t fun s => s.regWrite org a val aux

/-- What happens at the last instant of a stoke while the stoke runs, and at any instant before RUN. -/
def State.atLast (s : State) (t : Nat) (f : State → State) : Host.Outcome State Fault Refusal :=
  s.act t fun s => if s.time.running && decide (s.now + 1 < s.stokeCyc) then s else f s

/-- An event that the spec places at a boundary, commanded by itself: while the stoke runs it acts at the stoke's last instant alone,
for the boundary. -/
def State.edge (s : State) (t : Nat) (f : State → State) : Host.Outcome State Fault Refusal := s.atLast t fun s => s.stamped f

/-- An event that only STOKE_BOUNDARY brings about while the stoke runs: commanded by itself, it acts before RUN alone, at once (R32). -/
def State.early (s : State) (t : Nat) (f : State → State) : Host.Outcome State Fault Refusal := s.act t fun s => s.atOnce f

end Sys2Proof.Machine
end

