-- ==== Sys2Proof/Machine/BedCmd.lean ====
section
/-! DEFINITION. Commands of the event matrix's pins, the illumination chains and the tags (R22, R329–R353). -/

namespace Sys2Proof.Machine
open Sys2Proof

/-- EV_SOURCE_EVENT: an input pin of the matrix takes a level (R22); every other source follows from the command that brings it about. -/
def execEvSourceEvent (pin : Fin 8) (level : Bool) (t : Nat) (s : State) : Ans := s.act t fun s => s.evSet (0xC8 + pin.val) level

/-- ILL_UPDATE. -/
def execIllUpdate (org : Origin) (c : Fin 4) (t : Nat) (s : State) : Ans := s.actWrite t org (illReg (Reg.ILL_CTRL + 256 * c.val)) 1#32 0
/-- ILL_STROBE. -/
def execIllStrobe (org : Origin) (c : Fin 4) (t : Nat) (s : State) : Ans := s.actWrite t org (illReg (Reg.ILL_CTRL + 256 * c.val)) 2#32 0
/-- STROBE_REQUEST: by the event matrix. -/
def execStrobeRequest (c : Fin 4) (t : Nat) (s : State) : Ans := s.act t fun s => s.strobeReq c s.now
/-- STROBE_OPEN. -/
def execStrobeOpen (c : Fin 4) (t : Nat) (s : State) : Ans := s.act t fun s => s.illRun c s.now
/-- STROBE_CLOSE: with the samples of the chain's light sensors over the strobe, a list for each sensor (R334). -/
def execStrobeClose (c : Fin 4) (lux : List (List Nat)) (t : Nat) (s : State) : Ans := s.act t fun s => (s.illRun c s.now).luxUpdate c lux
/-- CHAIN_LATCH: with the words returned, output 0 first. -/
def execChainLatch (c : Fin 4) (ret : List Word) (t : Nat) (s : State) : Ans := s.act t fun s => s.chainLatch c ret s.now
/-- TEST_PULSE. -/
def execTestPulse (c : Fin 4) (t : Nat) (s : State) : Ans := s.act t fun s => s.illRun c s.now
/-- TEST_PULSE_END. -/
def execTestPulseEnd (c : Fin 4) (t : Nat) (s : State) : Ans := s.act t fun s => s.illRun c s.now

/-! Tags: g is 0 to 23 for the window tags, 24 and 25 for the blade tags; `frames` are the frames received in answer, none for silence. -/

/-- TAG_POLL. -/
def execTagPoll (g : Fin 26) (t : Nat) (s : State) : Ans := s.act t fun s => s.tagPoll g
/-- READ_ID. -/
def execReadId (g : Fin 26) (frames : List (List Byte)) (t : Nat) (s : State) : Ans := s.act t fun s => s.tagReadId g frames
/-- TAG_READ. -/
def execTagRead (g : Fin 26) (frames : List (List Byte)) (t : Nat) (s : State) : Ans := s.act t fun s => s.tagRead g frames
/-- TAG_WRITE. -/
def execTagWrite (g : Fin 26) (frames : List (List Byte)) (t : Nat) (s : State) : Ans := s.act t fun s => s.tagWrote g frames
/-- TAG_SIGN. -/
def execTagSign (g : Fin 26) (frames : List (List Byte)) (t : Nat) (s : State) : Ans := s.act t fun s => s.tagSign g frames
/-- TAG_AUTHENTICATE: what has been read is judged. -/
def execTagAuthenticate (g : Fin 26) (t : Nat) (s : State) : Ans := s.act t fun s => s.tagAuth g
/-- TAG_AUTH_INTERVAL. -/
def execTagAuthInterval (g : Fin 26) (t : Nat) (s : State) : Ans := s.act t fun s => s.tagInterval g
/-- TAG_CTRL_AUTH. -/
def execTagCtrlAuth (org : Origin) (g : Fin 26) (t : Nat) (s : State) : Ans := s.actWrite t org (tagReg Reg.TAG_CTRL) (toW (g.val + 256)) 0
/-- TAG_CTRL_WRITE. -/
def execTagCtrlWrite (org : Origin) (g : Fin 26) (t : Nat) (s : State) : Ans := s.actWrite t org (tagReg Reg.TAG_CTRL) (toW (g.val + 512)) 0
/-- BANK_MIRROR_UPDATE. -/
def execBankMirrorUpdate (t : Nat) (s : State) : Ans :=
  s.edge t fun s => if s.time.running && (s.time.cnt + 1) % 65536 == 0 then s.bankMirror else s
/-- XFER_GO: XFER_CTRL is written. -/
def execXferGo (org : Origin) (val : Word) (t : Nat) (s : State) : Ans := s.actWrite t org (tagReg Reg.XFER_CTRL) val 0

end Sys2Proof.Machine
end

