-- ==== Sys2Proof/Machine/Boot.lean ====
section
/-! DEFINITION. Reset, boot, the release of the damper, shutdown and the banked domain (R410, R420, R421, R426, R429–R443). -/

namespace Sys2Proof.Machine
open Sys2Proof

/-! Reset (R430, R431). -/

/-- The servo code that the converter die holds once the kill wire is asserted (R13). -/
def State.heldCode (s : State) (c : Ch) (a : Ax) : Int := if s.killed then s.sv[c].ax[a].out else s.codeAt c a s.now

/-- The reset of the whole device. What survives it: the banked domain, the fuses, the pins, the servo codes that the converter dies
hold, what has left the device, and the model's own queue and counter. If a reset is in progress, its cause stands. -/
def State.deviceReset (s : State) (cause : Nat) : State :=
  let r := State.reset
  { r with
    bank := { s.bank with cause := if s.boot.inReset then s.bank.cause else cause, sec := s.bankSec },
    sv := vmapi r.sv fun c v => { v with ax := vmapi v.ax fun a x => { x with out := s.heldCode c a } },
    fuse := { s.fuse with busy := false, job := none }, outs := s.outs, pending := s.pending, free := s.free,
    time := { r.time with taiSec := s.bankSec, accAt := s.bankSec * secQ },
    lsafe := { r.lsafe with aLow := s.lsafe.aLow, bLow := s.lsafe.bLow, both := s.lsafe.aLow && s.lsafe.bLow,
                            tripDue := s.lsafe.aLow || s.lsafe.bLow },
    damper := { r.damper with pinLow := s.damper.pinLow },
    hk := { r.hk with shut := s.hk.shut && !s.hk.shutLost },
    boot := { r.boot with rstLow := s.boot.rstLow, railHold := s.boot.railHold, bootSrc := s.boot.bootSrc, gangId := s.boot.gangId,
                          gangTm := s.boot.gangTm } }

/-- Boot starts, unless the pins hold the device in HELD, or a shutdown its clocks (R432, R433, R441). -/
def State.bootStart (s : State) : State :=
  if s.hk.shut then s
  else if s.damper.pinLow then { s with damper := { s.damper with frozen := true } }
  else if s.boot.bootSrc = 3 then ({ s with boot := { s.boot with fail := 1 } }).lsafeLevel
  else ({ s with boot := { s.boot with stage := .rom } }).lsafeLevel

/-- The device leaves reset: the straps are sampled. -/
def State.resetEnd (s : State) (p : Straps) : State :=
  let s := { s with boot := { s.boot with inReset := false, bootSrc := p.src.val, gangId := p.gangId.val, gangTm := p.gangTm } }
  s.bootStart

/-- RST_N falls, or rises with the straps as they stand. -/
def State.rstN (s : State) (high : Bool) (p : Straps) : State :=
  if high then
    if s.boot.rstLow then
      let s := { s with boot := { s.boot with rstLow := false } }
      if s.boot.railHold = [] then s.resetEnd p else s
    else s
  else if s.boot.rstLow then s
  else
    let s := s.deviceReset (if s.hk.shut && s.hk.shutLost then 0x21 else 2)
    { s with boot := { s.boot with rstLow := true } }

/-- A rail falls below its reset level for 2 µs (R422): VBANK's monitor resets nothing (R426). -/
def State.railReset (s : State) (m : Fin 12) : State :=
  if m.val = 11 ∨ s.boot.railHold.contains m.val then s
  else
    let s := s.deviceReset (0x10 + m.val)
    { s with boot := { s.boot with railHold := m.val :: s.boot.railHold } }

/-- The rail is back above its reset level. -/
def State.railRelease (s : State) (m : Fin 12) (p : Straps) : State :=
  if s.boot.railHold.contains m.val then
    let s := { s with boot := { s.boot with railHold := s.boot.railHold.filter (· != m.val) } }
    if s.boot.railHold = [] ∧ s.boot.rstLow = false then s.resetEnd p else s
  else s

/-- Main power goes: the banked domain alone runs on (R426, R429). -/
def State.powerLoss (s : State) : State :=
  let s := s.deviceReset 1
  { s with hk := { s.hk with shut := false }, boot := { s.boot with rstLow := true, railHold := [] }, sv := State.reset.sv }

/-- Main power is applied, with RST_N low. A banked domain that has lost its contents restarts (R410). -/
def State.powerUp (s : State) : State :=
  let s := s.powerLoss
  let b := s.bank
  if b.lostNow then
    { s with bank := { b with sec := 0, seq := 0, head := bz 32, drained := 0, cause := 1, bankLost := true, lostNow := false,
                              tags := Vector.replicate 26 none },
             time := { s.time with taiSec := 0, accAt := 0 } }
  else { s with bank := { b with cause := 1, bankLost := false } }

/-! Shutdown (R420, R421). -/

/-- A comparator trips, or die sensors are lost: the kill stage acts and the clocks stop. -/
def State.shutdown (s : State) (lost : Bool) : State :=
  if s.hk.shut then s
  else
    let s := if s.boot.inReset then s else s.killStage
    let s := s.bankStop
    { s with hk := { s.hk with shut := true, shutLost := lost }, evt := { s.evt with acts := [] } }

/-- Two seconds below 90 °C end a shutdown by temperature: a full reset and a restart. -/
def State.shutdownRestart (s : State) : State :=
  if s.hk.shut = false ∨ s.hk.shutLost = true then s
  else if s.boot.inReset then { s with hk := { s.hk with shut := false } }
  else
    let s := s.deviceReset 0x20
    let s := { s with hk := { s.hk with shut := false }, boot := { s.boot with inReset := false } }
    s.bootStart

/-! Boot (R432–R437, R440). -/

/-- BOOT_STATUS as an EVENT's OLD or NEW. -/
def State.stageGo (s : State) (g : Stage) : State :=
  let old := s.bootStatus
  let s := { s with boot := { s.boot with stage := g } }
  (s.logEvent 0xCD 0 1 old s.bootStatus).raiseEv 0xCD 0 0 s.bootStatus

/-- The log starts with POWER_ON: the entries that had not drained are lost (R410). -/
def State.logStart (s : State) : State :=
  let lost := (s.bank.seq + 2 ^ 48 - s.bank.drained) % 2 ^ 48
  let head := s.bank.head
  let s := { s with log := { s.log with started := true, bankLost := s.bank.bankLost }, bank := { s.bank with drained := s.bank.seq } }
  (s.logPush .hw false 0 0x20 (satU32 lost) (toW s.rstCause)).logExt .hw 0 (wordsLE head)

/-- The ROM stage ends: the self-check passed, or the device stays in ROM. -/
def State.romDone (s : State) (ok : Bool) : State :=
  if s.boot.stage ≠ .rom ∨ s.boot.fail ≠ 0 then s
  else if ok then s.logStart.stageGo .sram
  else { s with boot := { s.boot with fail := 0xE } }

/-- The SRAM stage ends: every word is 0 but those whose read-back failed (R440). -/
def State.sramDone (s : State) (bad : List Nat) : State :=
  if s.boot.stage ≠ .sram then s
  else
    let bad := (bad.filter fun a => a % 4 == 0 && decide (a < 0x3000000)).eraseDups
    let s := { s with sram := [], bad := bad }
    let s := bad.foldl (fun (s : State) a =>
      (s.bump (dbgReg (Reg.MEM_UE_CNT + 4 * regionOf a))).setReg (dbgReg Reg.MEM_INIT_STATUS)
        (s.reg (dbgReg Reg.MEM_INIT_STATUS) ||| toW (2 ^ regionOf a))) s
    let s := { s with boot := { s.boot with fromHost := s.boot.bootSrc == 1 } }
    s.stageGo .fetch

/-- An image fails with a code: the next source is tried (R435, R436). -/
def State.bootFail (s : State) (code : Nat) (hash : List Byte) : State :=
  let s := { s with boot := { s.boot with fail := code, fetching := false, image := [] } }
  let s := s.logImage 0x0A Reg.BOOT_STATUS hash (some code)
  let back (s : State) : State := if s.boot.stage = .fetch then s else s.stageGo .fetch
  if s.boot.fromHost then back s
  else if s.boot.secondary = false then
    let s := back s
    let old := s.bootStatus
    let s := { s with boot := { s.boot with secondary := true } }
    s.logEvent 0xCD 0 2 old s.bootStatus
  else if s.boot.bootSrc = 2 then back { s with boot := { s.boot with fromHost := true } }
  else s.stageGo .failed

/-- The image has been read, or the read failed. A host boot is read once GO has been written. -/
def State.fetchDone (s : State) (data : Option (List Byte)) : State :=
  if s.boot.stage ≠ .fetch ∨ (s.boot.fromHost = true ∧ s.boot.fetching = false) then s
  else match data with
    | none => s.bootFail 0xA (bz 32)
    | some bs => ({ s with boot := { s.boot with image := bs, fetching := false } }).stageGo .verify

/-- The checks of a boot image, in the order of R472; 0 is no failure. -/
def State.bootCheck (s : State) : Nat :=
  let bs := s.boot.image
  let len := if s.boot.fromHost then s.regF Reg.BOOT_LEN 0 23 else imgF bs 8 4
  let c := s.imgCheck bs [3] len
  if c ≠ 1 ∧ c ≠ 3 ∧ 4194304 < len then 2 else c

/-- The verification ends. -/
def State.verifyDone (s : State) : State :=
  if s.boot.stage ≠ .verify then s
  else
    let c := s.bootCheck
    if c = 0 then (s.stageGo .apply).logImage 0x08 Reg.BOOT_STATUS (imgHash s.boot.image) none
    else s.bootFail c (imgHash s.boot.image)

/-- The CONFIG pairs of an image, in table order. -/
def configPairs (bs : List Byte) : List (Nat × Word) :=
  ((imgSecs bs).filter (·.ty == 5)).flatMap fun s =>
    (List.range (s.data.length / 8)).map fun i => (imgF s.data (8 * i) 4, toW (imgF s.data (8 * i + 4) 4))

/-- The pairs are written in order as HOST0 until one is refused; the answer says whether all were taken (R434). -/
def State.configRun (s : State) (aux : Nat) : List (Nat × Word) → State × Bool
  | [] => (s, true)
  | (a, v) :: r =>
    let s' := if a % 4 = 0 then s.regWriteE true .host0 a v aux else s.denyWith .host0 a 0#32 v
    if s'.log.denied + s'.log.suppressed = s.log.denied + s.log.suppressed ∧ s.logBlocks .host0 = false then State.configRun s' aux r
    else (s', false)

/-- The APPLY stage does its work and ends: READY, or FAILED with cause 0xD. -/
def State.applyDone (s : State) (aux : Nat) : State :=
  if s.boot.stage ≠ .apply then s
  else
    let bs := s.boot.image
    let r := s.configRun aux (configPairs bs)
    let s := { r.1 with boot := { r.1.boot with image := [] } }
    if r.2 then
      ({ s with boot := { s.boot with fail := 0, hash := imgHash bs, unsigned := !imgSigned bs } }).stageGo .ready
    else ({ s with boot := { s.boot with fail := 0xD } }).stageGo .failed

/-! Fuses (R438). -/

/-- The fuse write in progress ends. -/
def State.fuseDone (s : State) : State :=
  match s.fuse.job with
  | none => s
  | some (j, k) =>
    let f := s.fuse
    let key := s.keyData
    let f := if j % 2 = 1 then { f with keys := f.keys.set k.val (some key) k.isLt } else f
    let f := if j / 2 % 2 = 1 then { f with revoked := f.revoked.set k.val true k.isLt } else f
    let f := if j / 4 % 2 = 1 then { f with secure := true } else f
    { s with fuse := { f with busy := false, job := none } }

/-! The release of the damper (R443). -/

/-- An interrupted stoke starts again at cycle 0: nothing of it commits, and every entry begins anew. -/
def State.stokeAgain (s : State) : State :=
  let m := s.now / 8
  let s := s.forCh fun s c =>
    let s := s.modCh c fun x => { x with stage := [] }
    let s := s.modLas c fun l => { l with seen := 0 }
    if s.ch[c].running then ((s.mirrorRestore c).modEng (s.engOf c) Core.rest).entryStart c s.ch[c].began s.ch[c].faulted else s
  let s := all8.foldl (fun (s : State) (n : Ma) => s.modMotor n fun x =>
    { x with m := { x.m with acc := x.m.accAt m, v := 0, extra := 0, cut := none }, c := { x.c with clk := 0 } }) s
  { s with now := 0, clk := ⟨0, []⟩ }

/-- A servo axis after the damper: it has been KILLED, and leaves that state by R146. -/
def Axis.damped (x : Axis) : Axis :=
  let leave (x : Axis) : Axis := if x.wasFrozen then { x with st := .frozen } else x.toHold false
  match x.st with
  | .off => x
  | .killed => leave x
  | st => leave { x with st := .killed, wasFrozen := st == .frozen, d := x.out, dPrev := x.out, preset := false, presetY := false }

/-- The servo axes of a channel after the damper; they stay KILLED while the kill wire stays asserted. -/
def State.servoBack (s : State) (c : Ch) : State :=
  if s.killed then s else s.modSv c fun v => { v with ax := vmap v.ax Axis.damped, killSeen := false }

/-- The time counter is reloaded, unaligned, and armed for the next pulse. -/
def State.taiReload (s : State) (sec ns : Nat) : State :=
  let back : Nat := 5 * s.now % secQ
  let tot : Nat := ((sec + 1099511627776) * secQ + 4 * (ns % 1000000000) - back) % (1099511627776 * secQ)
  s.modTime fun x =>
    { x with taiSec := tot / secQ, taiQ := tot % secQ, unaligned := true, armed := true, armSec := (sec + 1) % 1099511627776,
             autoArmed := false, locked := false, lockRun := 0, armAt := none }

/-- The outputs leave the kill stage: ports tripped, axes in FAULT, servos out of KILLED. -/
def State.outputsBack (s : State) : State := (s.forCh fun s c => (s.lasTrip c 6).servoBack c).maReleaseAll

/-- A member that is not the timing master rejoins its gang. -/
def State.rejoin (s : State) : State :=
  if s.isMember && s.gang.st != .solo then s.modGang fun g => { g with st := .align, stepped := false, lockRun := 0 } else s

/-- The clocks start again once the pin is high and the command released, with the banked seconds and nanoseconds, and the
frozen interval in ms. -/
def State.damperRestart (s : State) (sec ns ms : Nat) : State :=
  if s.damper.frozen && !s.damperOn then
    let s : State := { s with damper := { s.damper with frozen := false } }
    if s.boot.stage == .held then s.bootStart
    else
      let s : State := if s.damper.mode && s.time.running then s.stokeAgain else s
      let s := (s.lsafeLevel.outputsBack.taiReload sec ns).logEvent 0xCA 0 1 (s.damper.secAt % 4294967296) ms
      (s.raiseEv 0xCA 0 0 s.dmpStatus).rejoin
  else s

end Sys2Proof.Machine
end

