-- ==== Sys2Proof/Machine/Mcmd.lean ====
section
/-! DEFINITION. Motion command rings (R363). -/

namespace Sys2Proof.Machine
open Sys2Proof

/-- The MA_CTRL bits of an OP; 0 for writes only, none for an unknown OP. -/
def mcmdBits (op : Nat) : Option Nat :=
  match op with
  | 0 => some 0
  | 1 => some 16
  | 2 => some 32
  | 3 => some 4
  | 4 => some 8
  | 5 => some 64
  | 6 => some 1
  | 7 => some 2
  | 8 => some 128
  | _ => none

/-- A little-endian word of a record. -/
def recW (bs : List Byte) (o : Nat) : Word := toW (natLE ((bs.drop o).take 4))

/-- The registers that FLAGS names, with their values. -/
def mcmdRegs (bs : List Byte) : List (Nat × Word) :=
  let f := natLE ((bs.drop 1).take 1)
  ([Reg.TARGET, Reg.VMAX, Reg.ACCEL, Reg.DECEL, Reg.JOG_V].zipIdx.filter fun x => f.testBit x.2).map fun x => (x.1, recW bs (4 + 4 * x.2))

/-- The record is executed: its writes, then the MA_CTRL bit of its OP, with origin HOST0; the read index advances. -/
def State.mcmdExec (s : State) (n : Ma) (r : Ring) (bs : List Byte) : State :=
  let s := (mcmdRegs bs).foldl (fun (s : State) x => s.regWrite .host0 (maReg n x.1) x.2 0) s
  let b := (mcmdBits (natLE (bs.take 1))).getD 0
  let s : State := if b = 0 then s else s.regWrite .host0 (maReg n Reg.MA_CTRL) (toW b) 0
  ({ s with mcmd := s.mcmd.set n.val { s.mcmd[n] with wait := none, taken := true } n.isLt }).ringAdvance r

/-- A record has been taken, to be executed in stoke `due`. -/
def State.mcmdWait (s : State) (n : Ma) (bs : List Byte) (due : Nat) : State :=
  { s with mcmd := s.mcmd.set n.val ⟨some bs, due, true⟩ n.isLt }

/-- The device takes the record at the head of an axis's ring, while none waits and none has been taken in the stoke. Before
RUN there is no stoke: a record without AT is executed at once. -/
def State.mcmdTake (s : State) (n : Ma) (bs : List Byte) : State :=
  match s.findRing 4 n.val with
  | none => s
  | some r =>
    let u := s.rings[r]
    let m := s.mcmd[n]
    if u.st ≠ .run ∨ u.closing = true ∨ u.dev = u.host ∨ m.wait.isSome = true ∨ (m.taken = true ∧ s.time.running = true) ∨ bs.length < 32 then s
    else if (mcmdBits (natLE (bs.take 1))).isNone then s.ringStop r 3
    else
      let a := recW bs 0x18
      let d := (a - s.stoke32).toInt
      if (natLE ((bs.drop 1).take 1)).testBit 5 = false ∨ (d = 0 ∧ s.time.running = true) then s.mcmdExec n r bs
      else if d < 0 then (s.bump (ringReg r Reg.MCMD_LATE_CNT)).mcmdWait n bs (s.stoke32 + 1#32).toNat
      else s.mcmdWait n bs a.toNat

/-- A record whose stoke of execution is the present one is executed. -/
def State.mcmdDue (s : State) (n : Ma) : State :=
  match s.mcmd[n].wait, s.findRing 4 n.val with
  | some bs, some r => if s.mcmd[n].due = s.stoke32.toNat ∧ s.rings[r].st = .run then s.mcmdExec n r bs else s
  | _, _ => s

end Sys2Proof.Machine
end

