-- ==== Sys2Proof/Machine/Ports.lean ====
section
/-! DEFINITION. The ports beside BAR0: the safety SPI port, the service UART, the test access port and the SRAM window (R19, R20, R399–R403, R442). -/

namespace Sys2Proof.Machine
open Sys2Proof

/-! The safety port (R399–R402). -/

/-- What a transaction answers: STATUS, with DATA where R400 gives it. -/
structure SafeAns where
  status : Nat
  data : Option Word
  deriving DecidableEq, Repr

/-- Done, without data. -/
def SafeAns.done : SafeAns := ⟨0, none⟩
/-- Refused. -/
def SafeAns.refused : SafeAns := ⟨2, none⟩

/-- A transaction: the response to the one before leaves, then the command acts. DATA that no command gives is left open. -/
def State.safeTrans (s : State) (crc : Bool) (f : State → State × SafeAns) : State :=
  let s := s.out (.safe s.safe.status s.safe.seq s.safe.data)
  let s := if crc then s else s.bump (accReg Reg.SAFE_CRC_ERR_CNT)
  let (s, a) := if crc then f s else (s, ⟨1, none⟩)
  let (w, s) := match a.data with
    | some w => (w, s)
    | none => s.freshWord
  { s with safe := { s.safe with status := a.status, data := w, seq := if a.status = 0 then (s.safe.seq + 1) % 256 else s.safe.seq } }

/-- A LIFT that waits no longer reaches the holds that a later command sets. -/
def State.holdsAgain (s : State) (kind mask : Nat) : State :=
  { s with safe := { s.safe with holdDue := s.safe.holdDue.map fun x => if x.1 = kind then (x.1, x.2 - (x.2 &&& mask)) else x } }

/-- INHIBIT: DISARM, with its hold, for each channel of the mask. -/
def State.safeInhibit (s : State) (mask : Nat) : State :=
  (all24.filter fun (c : Ch) => mask.testBit c.val).foldl (fun (s : State) (c : Ch) => s.regWrite .safe (chReg c Reg.LAS_CTRL) 2#32 0)
    (s.holdsAgain 1 mask)

/-- MSTOP: a stop, with its hold, for each axis of the mask. -/
def State.safeStop (s : State) (mask : Nat) (hard : Bool) : State :=
  (all8.filter fun (n : Ma) => mask.testBit n.val).foldl
    (fun (s : State) (n : Ma) => s.regWrite .safe (maReg n Reg.MA_CTRL) (if hard then 8#32 else 4#32) 0) (s.holdsAgain 3 mask)

/-- PCAP: only a cap at or below the value in force is taken. -/
def State.safePcap (s : State) (c : Nat) (cap : Nat) : State × SafeAns :=
  if h : c < 24 then
    let ch : Ch := ⟨c, h⟩
    let a := chReg ch Reg.LAS_PCAP
    if cap ≤ s.creg16 ch Reg.LAS_PCAP then ((s.holdsAgain 2 (2 ^ c)).regWrite .safe a (toW cap) 0, .done)
    else (s.denyWith .safe a (s.peek a) (toW cap), .refused)
  else (s, .refused)

/-- Holds named by a LIFT are cleared; no value changes (R401). -/
def State.safeLift (s : State) (kind mask : Nat) : State :=
  { s with safe :=
    { s.safe with
      inh := if kind = 1 then vmapi s.safe.inh (fun c h => h && !mask.testBit c.val) else s.safe.inh,
      pcap := if kind = 2 then vmapi s.safe.pcap (fun c h => h && !mask.testBit c.val) else s.safe.pcap,
      stop := if kind = 3 then vmapi s.safe.stop (fun n h => h && !mask.testBit n.val) else s.safe.stop } }

/-- What waits for a boundary on the safety port: LIFTs, and the watchdog's flag. -/
def State.safeBoundary (s : State) : State :=
  let l := s.safe.holdDue
  let s := { s with safe := { s.safe with holdDue := [], wdDue := false, wd := s.safe.wd || s.safe.wdDue } }
  l.foldl (fun (s : State) x => s.safeLift x.1 x.2) s

/-- LIFT. -/
def State.safeLiftCmd (s : State) (kind mask : Nat) : State × SafeAns :=
  if kind = 0 ∨ 3 < kind then (s, .refused)
  else
    let s := { s with safe := { s.safe with holdDue := s.safe.holdDue ++ [(kind, mask)] } }
    (s.atOnce State.safeBoundary, .done)

/-- READ. -/
def State.safeRead (s : State) (what : Nat) : State × SafeAns :=
  if what = 0 then (s, ⟨0, some (toW s.safeStatus)⟩)
  else if what = 1 then (s, ⟨0, some (toW s.lsafeStatus)⟩)
  else if what = 2 then (s, ⟨0, some (lo32 s.headSeq)⟩)
  else (s, .refused)

/-- The watchdog has expired (R402). -/
def State.safeWatchdog (s : State) : State :=
  if s.regF (accReg Reg.SAFE_CFG) 16 1 = 1 then
    let s := (s.safeInhibit 0xFFFFFF).safeStop 0xFF false
    ({ s with safe := { s.safe with wdDue := true } }).atOnce State.safeBoundary
  else s

/-! The service port (R403). -/

/-- SVC_STATUS. -/
def State.svcStatus (s : State) : Nat := bitAt s.svc.unlocked 0 + bitAt s.svc.lockout 1

/-- A reply leaves. -/
def State.svcReply (s : State) (bs : List Byte) : State := s.out (.svc bs)

/-- A read frame: answered, locked or not. -/
def State.svcRead (s : State) (a : Nat) : State :=
  if a % 4 ≠ 0 then s
  else
    let v := s.readValue a
    let s := s.readEffect a
    s.svcReply (bytesLE v)

/-- A write frame: discarded while the port is locked. -/
def State.svcWrite (s : State) (a : Nat) (v : Word) (aux : Nat) : State :=
  if s.svc.unlocked then (if a % 4 = 0 then s.regWrite .svc a v aux else s.refuse .svc a v) else s

/-- 32 fresh random bytes. -/
def State.freshBytes (s : State) : List Byte × State :=
  ((Config.freeBytes s.free ++ bz 32).take 32, { s with free := s.free + 1 })

/-- A challenge frame. -/
def State.svcChallenge (s : State) : State :=
  if s.svc.lockout then s
  else
    let (r, s) := s.freshBytes
    ({ s with svc := { s.svc with challenge := some r, drawn := s.svc.drawn + 1 } }).svcReply r

/-- The response verifies with the key of SVC_CFG.KEY_SLOT over the challenge and the device identifier. -/
def State.svcVerify (s : State) (ch sig : List Byte) : Bool :=
  let k := ix4 (s.regF (accReg Reg.SVC_CFG) 0 2)
  match s.fuse.keys[k] with
  | some key => !s.fuse.revoked[k] && ecdsaOk (sha256 (ch ++ s.fuse.uid)) key (natBE (sig.take 32)) (natBE ((sig.drop 32).take 32))
  | none => false

/-- A response frame: the port unlocks, or the failure counts; the third locks it against challenges. -/
def State.svcResponse (s : State) (sig : List Byte) : State :=
  match s.svc.challenge with
  | none => s
  | some ch =>
    let old := s.svcStatus
    if s.svcVerify ch sig then
      let s := { s with svc := { s.svc with unlocked := true, fails := 0, challenge := none } }
      s.logEvent 0xF0 0 1 old s.svcStatus
    else
      let n := s.svc.fails + 1
      let s := s.bump (accReg Reg.SVC_FAIL_CNT)
      let s := { s with svc := { s.svc with challenge := none, fails := if 3 ≤ n then 0 else n, lockout := s.svc.lockout || decide (3 ≤ n) } }
      s.logEvent 0xF0 0 2 old s.svcStatus

/-- IDLE_S seconds without a frame lock the port. -/
def State.svcIdle (s : State) : State := { s with svc := { s.svc with unlocked := false, challenge := none } }
/-- 60 s end the lockout. -/
def State.svcLockoutEnd (s : State) : State := { s with svc := { s.svc with lockout := false } }

/-! The test access port (R442). -/

/-- The TAP's instruction register, and the data that the data register gave. -/
def State.tapOut (s : State) (ir v : Nat) : State := ({ s with damper := { s.damper with ir := ir, dr := v } }).out (.data v)

/-- IDCODE. -/
def State.idcode (s : State) : Nat := (s.fuse.stepDigit % 16) * 2 ^ 28 + 0x7240 * 2 ^ 12 + 0x5A7 * 2 + 1

/-- An item of an engine's state; none where the spec gives no layout or no item. -/
def Core.itemAt (u : Core) (i : Nat) : Option Word :=
  if h : i < 32 then some (u.w[i]'h)
  else if i = 0x20 then some (toW u.pc)
  else if i = 0x21 then some (toW (bitAt u.v 0 + bitAt u.c 1 + bitAt u.n 2 + bitAt u.z 3))
  else if i = 0x22 then some (toW u.fstat.toNat)
  else if i = 0x23 then some (toW u.cycle)
  else none

/-- What a freeze read finds: the data, where the spec tells it, and whether the word is uncorrectable. -/
def State.freezeWord (s : State) (space a : Nat) : Option Word × Bool :=
  if space = 0 then (some (s.peek a), false)
  else if space = 1 then (some (s.word a), s.isBad a)
  else if space = 2 then
    if h : a / 0x1000 < 28 then ((s.eng[a / 0x1000]'h).itemAt (a % 0x800 / 4), false) else (none, false)
  else (none, false)

/-- FRZ_ADDR. -/
def State.frzAddr (s : State) (space : Fin 4) (a : Word) : State :=
  { s with damper := { s.damper with ir := 0x10, space := space.val, addr := a.toNat } }

/-- FRZ_DATA: data, check bits, uncorrectable; then the next address. The check bits, and an item without a layout, are left open. -/
def State.frzData (s : State) : State :=
  let d := s.damper
  let (v, s) : Nat × State :=
    if d.frozen then
      let (w, ue) := s.freezeWord d.space d.addr
      let (k, s) := s.freshWord
      let (w, s) : Word × State := match w with
        | some w => (w, s)
        | none => s.freshWord
      (w.toNat + (k.toNat % 128) * 2 ^ 32 + bitAt ue 39, s)
    else (2 ^ 39, s)
  ({ s with damper := { s.damper with addr := (d.addr + 4) % 2 ^ 32 } }).tapOut 0x11 v

/-! The SRAM window (R19, R20, R355). -/

/-- The IMEM of a reserve, where the mirrors are kept without a stated place (R272). -/
def resImem (a : Nat) : Bool := decide (0x1600000 + 0x20000 * 24 ≤ a) && decide (a < 0x1980000) && decide ((a - 0x1600000) % 0x20000 < 0x10000)

/-- The bytes at a place of BAR2 that the spec lays out: not the reserves' IMEM, the calibration values, nor the compressor, staging, lane and log regions. -/
def laidOut (a : Nat) : Bool :=
  let r := regionOf a
  r == 0 || r == 1 || (r == 2 && !resImem a) || r == 3 || r == 4 || (r == 5 && decide (a < 0x247C000)) || r == 6 || r == 11

/-- One word of the window. -/
def State.bar2Word (s : State) (a : Nat) : Word × State :=
  if 0x3000000 ≤ a then (0#32, s)
  else if s.isBad a then (0xFFFFFFFF#32, if regionOf a = 6 then (s.countUe a).traceFlag a else s.countUe a)
  else if laidOut a then (s.word a, s)
  else s.freshWord

/-- `n` words from an address. -/
def State.bar2Words (s : State) (a : Nat) : Nat → List Word × State
  | 0 => ([], s)
  | n + 1 =>
    let (w, s) := s.bar2Word a
    let (ws, s) := State.bar2Words s (a + 4) n
    (w :: ws, s)

/-- The place is writable by the origin: a dark and flat map by HOST0 while its pipeline is STOPPED (R237), the scratch area by both hosts. -/
def State.bar2Writable (s : State) (org : Origin) (a : Nat) : Bool :=
  (regionOf a == 3 && (a - 0x1980000) % 0x60000 < 0x40000 && org == .host0 && s.cam[ix24 ((a - 0x1980000) / 0x60000)].st == .stopped) || (regionOf a == 11 && (org == .host0 || org == .host1))

/-- One word is written, refused, or discarded past the memory. -/
def State.bar2Put (s : State) (org : Origin) (a : Nat) (v : Word) : State :=
  if 0x3000000 ≤ a then s
  else if s.bar2Writable org a then s.put a (bytesLE v)
  else if s.logBlocks org then s.bump (accReg Reg.LOG_BLOCK_CNT)
  else s.denyWith org a (s.word a) v

/-- A read of `n` words; before READY and while frozen it reads ones (R433, R441). -/
def State.bar2Read (s : State) (a n : Nat) : State :=
  if s.boot.stage ≠ .ready ∨ s.damper.frozen then s.out (.data 0xFFFFFFFF)
  else
    let (ws, s) := s.bar2Words (a / 4 * 4) n
    s.out (.data (natLE (ws.flatMap bytesLE)))

/-- A write of words. -/
def State.bar2Write (s : State) (org : Origin) (a : Nat) (ws : List Word) : State :=
  if s.boot.stage ≠ .ready ∨ s.damper.frozen then s
  else ws.zipIdx.foldl (fun (s : State) x => s.bar2Put org (a / 4 * 4 + 4 * x.2) x.1) s

end Sys2Proof.Machine
end

