-- ==== Sys2Proof/Machine/Boundary.lean ====
section
/-! DEFINITION. The boundary that ends stoke k and begins stoke k + 1 (R14, R15, R29, R30): what the units did in the stoke, what commits, and what the next stoke begins with. -/

namespace Sys2Proof.Machine
open Sys2Proof

/-- What the boundary notes of stoke k before anything of it commits. -/
structure Ended where
  k : Nat
  /-- Core cycles of the stoke. -/
  len : Nat
  /-- TAI at the stoke's beginning. -/
  sec : Nat
  ns : Nat
  /-- Channels in layer during the stoke, and their telemetry flags. -/
  layer : List Bool
  flags : List Nat
  /-- How each channel's stoke ended. -/
  ends : List StokeEnd
  /-- Photodiode statistics of the stoke, PD_E and PD_B. -/
  pe : List PdStat
  pb : List PdStat
  deriving DecidableEq, Repr

/-- Photodiode samples due in stoke k (R174). -/
def pdDue (n k : Nat) : Nat := ((k + 1) * n + 249) / 250 - (k * n + 249) / 250

/-- The delivery of a channel. -/
def chanIn (i : BoundaryIn) (c : Ch) : ChanIn := nthD i.chans c.val ChanIn.none
/-- The report of a cluster. -/
def clusterIn (i : BoundaryIn) (k : Cl) : ClIn := nthD i.cls k.val ClIn.none

/-! The end of stoke k. -/

/-- Bits of CH_STATE that tell of one stoke, and the trigger that was committed for it, fall away. -/
def State.oneStoke (s : State) (c : Ch) : State :=
  s.modCh c fun x => { x with refused := false, resumed := false, replay := false, newBank := false, cleared := false, restamped := false, traceTrig := false }

/-- Cameras, illumination and programs reach the end of the stoke. -/
def State.bdRun (s : State) (inp : BoundaryIn) : State :=
  let t := s.stokeCyc - 1
  let s := all24.foldl (fun (s : State) (m : Cam) =>
    let s := (s.camRun m t).frameTimeout m (nthD inp.frames m.val [])
    s.statForce m s.cam[m].done.length) s
  let s := all4.foldl (fun (s : State) (c : Fin 4) => s.illShift c) s
  s.forCh fun s c => (s.engStop c).oneStoke c

/-- What is noted of the stoke, but for the ends of programs. -/
def State.bdNote (s : State) (inp : BoundaryIn) (len : Nat) : Ended :=
  let k := s.time.cnt
  let m := pdDue s.stokeCyc k
  { k := k, len := len, sec := s.time.taiSec, ns := s.time.taiQ / 4,
    layer := all24.map fun (c : Ch) => s.ch[c].inLayer, flags := all24.map fun (c : Ch) => s.telFlags c, ends := [],
    pe := all24.map fun (c : Ch) => pdStats m (s.dipSuspect (dieOf c)) ((chanIn inp c).pdE.take m),
    pb := all24.map fun (c : Ch) => pdStats m (s.dipSuspect (dieOf c)) ((chanIn inp c).pdB.take m) }

/-- One channel's units in stoke k, on the values committed before it (R14): loop, window, servo, laser port. -/
def State.bdUnits (s : State) (inp : BoundaryIn) (e : Ended) (c : Ch) : State :=
  let i := chanIn inp c
  let pe := nthD e.pe c.val PdStat.start
  let pb := nthD e.pb c.val PdStat.start
  let em := nthD s.las[c].histOn 0 false
  let pw := nthD s.las[c].histCode 0 0
  let dE := s.darkE c
  let dB := s.darkB c
  let l := s.loopCompute c dE dB em pw
  let s := (s.servoCompute c).modLoop c fun _ => l
  let s := ((s.taCommit c e.k).lasEnd c i.mon).winDose c
  s.winCi c em pw dB

/-- Stoke k carries no invalid flag of R176 for a channel. -/
def Ended.valid (e : Ended) (c : Ch) : Bool := (nthD e.pe c.val PdStat.start).valid && (nthD e.pb c.val PdStat.start).valid

/-- One channel's samples of calibration from stoke k, once every unit has reached its end; `v` is the state in which the stoke ran. -/
def State.bdSamples (s v : State) (inp : BoundaryIn) (e : Ended) (c : Ch) : State :=
  let pe := nthD e.pe c.val PdStat.start
  let s := s.darkSample c pe (nthD e.pb c.val PdStat.start)
  let s := all3.foldl (fun (s : State) (a : Ax) => s.revSample c a (v.sv[c].ax[a].st == .run) (e.valid c)) s
  let ok := nthD s.las[c].histOn 0 false && pe.valid
  ((s.xingFind c e.k).pdKeep c e.k ((chanIn inp c).pdE.take (pdDue s.stokeCyc e.k)) ok).xingStep c e.k

/-- Every unit of the device in stoke k. -/
def State.bdWork (s : State) (inp : BoundaryIn) (e : Ended) : State :=
  let v := s
  let s := s.forCh fun s c => s.bdUnits inp e c
  let s := s.forCh fun s c => s.bdSamples v inp e c
  let s := all24.foldl (fun (s : State) (m : Cam) => s.camDarkStep m e.valid) s
  let s := s.bladeTravel
  all8.foldl (fun (s : State) (n : Ma) => s.motorEnd n (nthD inp.mas n.val MaIn.none)) s

/-! What commits. -/

/-- A stoke that was withheld or overran repeats the mirror of the stoke before, in its reserved window (R33, R270, R273). -/
def State.mirrorRepeat (s : State) (inp : BoundaryIn) (ends : List StokeEnd) (c : Ch) : State :=
  let r := nthD ends c.val .good
  if s.ch[c].running && (r == .withheld || r == .overrun) && !s.inFault c then
    s.mirrorTake c ((clusterIn inp (clusterOf c)).crcBad.contains (inCluster c))
  else s

/-- Mismatches are found, and each channel's stoke ends one way or another. -/
def State.bdEnds (s : State) (inp : BoundaryIn) : State × List StokeEnd :=
  let s := all4.foldl (fun (s : State) (k : Cl) => s.clFind k (clusterIn inp k)) s
  let ends := all24.map fun (c : Ch) => s.stokeEnd c (s.clWithheld c)
  let s := s.forCh fun s c => s.stokeSettle c (nthD ends c.val .good)
  (s.forCh fun s c => s.mirrorRepeat inp ends c, ends)

/-- The channels whose staged port writes commit. -/
def goodCh (ends : List StokeEnd) (c : Ch) : Bool := nthD ends c.val .good == .good

/-- Port writes and every other staged write commit on one edge (R29, R31). -/
def State.bdWrites (s : State) (ends : List StokeEnd) (k : Nat) : State :=
  let s := s.forCh fun s c => if goodCh ends c then s.portsCommit c k else s
  let s := s.resolve false
  let s := s.forCh fun s c => if goodCh ends c then s.taPorts c else s
  s.safeBoundary

/-- Faults and layers of one channel: a clear, a fault, the end of a layer, the start of one. -/
def State.bdLayer (s : State) (ends : List StokeEnd) (c : Ch) : State :=
  let s := s.faultClear c
  let f := s.faultEnter c
  let s := f.1
  let s : State := if f.2 && s.ch[c].fault != 1 then s.modLas c fun l => { l with fNext := true } else s
  let s : State := if goodCh ends c && s.layerEnds c then s.leaveLayer c else s
  let r := s.layerStart c
  let s : State := if r.2 then r.1.evPulse 3 else r.1
  s.modCh c fun x => { x with began := r.2, faulted := f.2, stage := [] }

/-- Failovers, faults and layers; then the restarts of vector paths, which see the boundary's other effects. -/
def State.bdState (s : State) (ends : List StokeEnd) : State :=
  let s := all4.foldl (fun (s : State) (k : Cl) => s.clFailover k) s
  let s := s.forCh fun s c => s.vecStopFault c
  let s := s.forCh fun s c => s.bdLayer ends c
  s.resolve true

/-- Estimators 0 to 4 of channel i, 5 of pipeline i. -/
def State.bdEst (s : State) (i : Fin 24) : State :=
  let s := ([0, 1, 2, 3, 4, 5] : List (Fin 6)).foldl (fun (s : State) (n : Fin 6) => s.estStep n i) s
  (s.estRamp 0 i).estRamp 5 i

/-- The units of a channel take what the boundary commits for them. -/
def State.bdChan (s : State) (c : Ch) : State :=
  let s := (s.servoRamps c).loopActs c
  let s := (s.svKill c).svHold c
  s.gridSwap c

/-- Calibration, servo, loop and laser ports. -/
def State.bdCommit (s : State) : State :=
  let s := all24.foldl (fun (s : State) (i : Fin 24) => s.bdEst i) s
  s.forCh fun s c => s.bdChan c

/-- The gang exchange, the ember map, the guard and the barriers at the boundary that ends stoke k. -/
def State.bdShared (s : State) (inp : BoundaryIn) (e : Ended) : State :=
  let k := e.k
  let s := ((s.heardStep).framesMerge k).emApplyDue
  let s := s.forCh fun s c => s.emForm c k
  let s := s.forCh fun (s : State) c =>
    let v := (s.servoInputs c (chanIn inp c)).modLoop c fun l => { l with pdE := nthD e.pe c.val PdStat.start, pdB := nthD e.pb c.val PdStat.start }
    s.traceStep v c s.ch[c].faulted
  let s : State := if 1 ≤ s.hk.level then s.traceThrottle else s
  let s := ((s.planSettle k).planExpire k).trailRemove k
  let s := all4.foldl (fun (s : State) (d : Fin 4) => s.frameMiss k d) s
  let s := s.gdStates k
  s.forCh fun s c => s.syncStep c k

/-! The beginning of stoke k + 1. -/

/-- Laser ports, deposits and the guard's paths move on by one stoke. -/
def State.bdOutputs (s : State) (e : Ended) (ends : List StokeEnd) (c : Ch) : State :=
  let s := (s.lasEdges c (nthD e.layer c.val false)).lasBegin c
  let s := s.stokeMask c (nthD ends c.val .good)
  (s.emShift c).gdLocal c e.k

/-- The inputs taken in stoke k take their place for stoke k + 1 (R15). -/
def State.bdInputs (s : State) (inp : BoundaryIn) (e : Ended) : State :=
  let s := all24.foldl (fun (s : State) (m : Cam) => ((s.camShift m).camStopped m).statDeliver m) s
  s.forCh fun (s : State) c =>
    let em := nthD s.las[c].histOn 0 false
    (s.servoInputs c (chanIn inp c)).loopInputs c (nthD e.pe c.val PdStat.start) (nthD e.pb c.val PdStat.start) em

/-- Deposits formed and plans committed leave for the gang, and are due here at the next boundary (R205, R208). -/
def State.bdGang (s : State) (k : Nat) : State :=
  let s := s.frameOut (s.gangFrame (k + 1))
  { s with em := { s.em with due := s.em.due ++ s.em.own, own := [] }, gd := { s.gd with sent := [] } }

/-- Mirrors, pairs and the reserve's own cycle (R272, R276–R283). -/
def State.bdCluster (s : State) (inp : BoundaryIn) (ends : List StokeEnd) (k : Cl) : State :=
  let i := clusterIn inp k
  let ran (j : Fin 6) : Bool := let e := s.eng[s.engOf (chanOf k j)]; e.entry != .fault && e.cycle != 0
  let s := all6.foldl (fun (s : State) (j : Fin 6) =>
    let c := chanOf k j
    if s.ch[c].running && goodCh ends c && !s.inFault c then s.mirrorSend c (i.crcBad.contains j) else s) s
  let old := s.cl[k].pairs
  let s := s.clCycle k i ran
  all6.foldl (fun (s : State) (j : Fin 6) => if (s.cl[k].pairs[j]).st = (old[j]).st then s.pairStep k j (ran j) i.shadowItem else s) s

/-- Engines come to rest and the entries of the next stoke start (R89). -/
def State.bdEntries (s : State) : State :=
  let s := { s with eng := vmap s.eng Core.rest }
  s.forCh fun (s : State) c => s.entryStart c s.ch[c].began s.ch[c].faulted

/-- The count, TAI and the instants of the state move on to the next stoke, by the `n` core cycles of the stoke that ends (R36, R37). -/
def State.bdTime (s : State) (n : Nat) : State :=
  let fresh := s.gang.fresh
  let s := (s.gangStep n).ppsHoldover.lsafeStep
  let s := s.forCh fun s c => s.modCh c fun x => { x with restamped := (fresh || s.gang.fresh) && x.running, evtFlag := x.evtNext, evtNext := false }
  let q := s.time.taiQ + 5 * n
  let s := s.modGang fun g => { g with fresh := false }
  let s := s.modTime fun x => { x with cnt := (x.cnt + 1) % 2 ^ 64, taiSec := (x.taiSec + q / secQ) % 2 ^ 40, taiQ := q % secQ, armAt := none }
  { s with now := 0, clk := ⟨0, []⟩,
           evt := { s.evt with lines := vmap s.evt.lines fun (l : EvLine) => l.back n,
                               acts := s.evt.acts.map fun a => (a.1, a.2 - n) } }

/-- Port snapshots (R30). -/
def State.bdSnaps (s : State) : State :=
  s.forCh fun (s : State) c =>
    let l := if s.entryRuns c then s.snapshot c s.time.cnt (s.time.taiSec, s.time.taiQ) else []
    s.modCh c fun x => { x with snap := l }

/-- What the rings carried in the stoke may have met an uncorrectable word of their staging: it is counted, and the descriptor or record is
refetched or sent again, so nothing else comes of it (R19). -/
def State.stagingMet (s : State) : State := if allRings.any fun r => s.rings[r].st == .run then (s.ueMet 8).2 else s

/-- Rings, and the records of stoke k. -/
def State.bdRecords (s : State) (e : Ended) : State :=
  let s := s.forCh fun s c => s.telemetry c e.k (nthD e.flags c.val 0) e.ns e.sec
  let s := all24.foldl (fun (s : State) (m : Cam) => s.archDrop m) s
  let s := s.ringsAge.stagingMet
  if (e.k + 1) % 65536 = 0 then s.bankMirror else s

/-- Axes and their command rings begin the next stoke. -/
def State.bdAxes (s : State) (k : Nat) : State :=
  let s := all8.foldl (fun (s : State) (n : Ma) => s.motorBegin n) s
  let s := all8.foldl (fun (s : State) (n : Ma) => s.maTelemetry n k) s
  let s := { s with mcmd := vmap s.mcmd fun (u : McmdU) => { u with taken := false } }
  all8.foldl (fun (s : State) (n : Ma) => s.mcmdDue n) s

/-- The log's entries of the boundary enter the chain, and what the boundary has set off is done. -/
def State.bdClose (s : State) : State :=
  let s := s.suppressEnd.batchEnd
  let s := s.setReg Reg.GLB_STATUS (toW s.glbStatus)
  if s.damper.stopAtBoundary then s.freeze else s.settle

/-- The boundary, first part: the stoke ends. -/
def State.boundaryEnd (s : State) (inp : BoundaryIn) : State × Ended :=
  let n := s.stokeCyc
  let s := s.bdRun inp
  let s := (({ s with now := n }).evPulse 1).batchStart
  let s := all8.foldl (fun (s : State) (n : Ma) => s.mcmdDue n) s
  let e := s.bdNote inp n
  let r := (s.bdWork inp e).bdEnds inp
  (r.1, { e with ends := r.2 })

/-- The boundary, second part: the guard's check of stoke k for pin stoke k + 1 stands on what was in force in stoke k (R214, R215);
then the laser ports move on from the stoke that ends, and everything commits. -/
def State.boundaryCommit (s : State) (inp : BoundaryIn) (e : Ended) : State :=
  let s := s.forCh fun s c => s.backstop c (e.k + 1)
  (((((s.forCh fun s c => s.lasArmStep c).lsafeTripped.bdWrites e.ends e.k).bdState e.ends).bdCommit).bdShared inp e)

/-- The boundary, third part: the next stoke begins. -/
def State.boundaryBegin (s : State) (inp : BoundaryIn) (e : Ended) : State :=
  let s := s.forCh fun s c => (s.bdOutputs e e.ends c).taFlags c
  let s := (s.bdInputs inp e).bdGang e.k
  let s := all4.foldl (fun (s : State) (k : Cl) => s.bdCluster inp e.ends k) s
  let s := ((s.bdRecords e).lanesStep.bdEntries.bdTime e.len).stampOut
  (s.bdAxes e.k).bdSnaps.bdClose

/-- The boundary that ends the present stoke. -/
def State.boundary (s : State) (inp : BoundaryIn) : State :=
  let r := s.boundaryEnd inp
  (r.1.boundaryCommit inp r.2).boundaryBegin inp r.2

/-- STOKE_BOUNDARY: nothing happens while the stoke does not run or the main die stands still. -/
def execStokeBoundary (inp : BoundaryIn) (s : State) : Ans :=
  if s.halted || !s.time.running then .next s else .next (s.boundary inp)

end Sys2Proof.Machine
end

