-- ==== Sys2Proof/Machine/CamCmd.lean ====
section
/-! DEFINITION. Commands of the camera pipelines and the estimators (R228–R269). -/

namespace Sys2Proof.Machine
open Sys2Proof

/-- CAM_START. -/
def execCamStart (org : Origin) (m : Cam) (t : Nat) (s : State) : Ans := s.actWrite t org (camReg m Reg.CAM_CTRL) 1#32 0
/-- CAM_STOP. -/
def execCamStop (org : Origin) (m : Cam) (t : Nat) (s : State) : Ans := s.actWrite t org (camReg m Reg.CAM_CTRL) 2#32 0
/-- CAM_ABORT. -/
def execCamAbort (org : Origin) (m : Cam) (t : Nat) (s : State) : Ans := s.actWrite t org (camReg m Reg.CAM_CTRL) 4#32 0
/-- CAM_STOPPED: while the stoke runs, STOKE_BOUNDARY brings it about. -/
def execCamStopped (m : Cam) (t : Nat) (s : State) : Ans := s.early t fun s => (s.camRun m s.now).camStopped m
/-- CAM_BIND_WRITE. -/
def execCamBindWrite (org : Origin) (m : Cam) (val : Word) (t : Nat) (s : State) : Ans := s.actWrite t org (camReg m Reg.CAM_BIND) val 0
/-- CAM_TRIG_REQ. -/
def execCamTrigReq (org : Origin) (m : Cam) (t : Nat) (s : State) : Ans := s.actWrite t org (camReg m Reg.CAM_TRIG_REQ) 1#32 0
/-- TRIGGER_REQUEST: the pipeline's own requests up to the instant, or one of the event matrix (R229). -/
def execTriggerRequest (m : Cam) (t : Nat) (s : State) : Ans := s.act t fun s => s.camEvent m s.now
/-- EXPOSURE_END. -/
def execExposureEnd (m : Cam) (t : Nat) (s : State) : Ans := s.act t fun s => s.camRun m s.now
/-- SET_MEMBER_RISE. -/
def execSetMemberRise (m : Cam) (t : Nat) (s : State) : Ans := s.act t fun s => s.camRun m s.now
/-- FRAME_START. -/
def execFrameStart (m : Cam) (t : Nat) (s : State) : Ans := s.act t fun s => s.frameStart m s.now
/-- FRAME_END: with the lines received. -/
def execFrameEnd (m : Cam) (lines : List (List Nat)) (t : Nat) (s : State) : Ans := s.act t fun s => s.frameEnd m s.now lines
/-- FRAME_TIMEOUT: with the lines received so far. -/
def execFrameTimeout (m : Cam) (lines : List (List Nat)) (t : Nat) (s : State) : Ans := s.edge t fun s => s.frameTimeout m lines
/-- PULSE_MISSED. -/
def execPulseMissed (m : Cam) (t : Nat) (s : State) : Ans := s.act t fun s => s.camRun m s.now
/-- STAT_RECORD_COMPLETE. -/
def execStatRecordComplete (m : Cam) (t : Nat) (s : State) : Ans := s.act t fun s => s.statComplete m
/-- ARCHIVE_WRITE: the next record of an archive ring meets the descriptors that the host has posted (address and length). -/
def execArchiveWrite (r : Ring) (descs : List (Nat × Nat)) (t : Nat) (s : State) : Ans := s.act t fun s => s.archiveWrite r descs
/-- CAM_TRC_ARM. -/
def execCamTrcArm (org : Origin) (m : Cam) (t : Nat) (s : State) : Ans := s.actWrite t org (camReg m Reg.CAM_TRC_CTRL) 1#32 0
/-- CAM_TRC_TRIG. -/
def execCamTrcTrig (org : Origin) (m : Cam) (t : Nat) (s : State) : Ans := s.actWrite t org (camReg m Reg.CAM_TRC_CTRL) 2#32 0
/-- CAM_TRC_ABORT. -/
def execCamTrcAbort (org : Origin) (m : Cam) (t : Nat) (s : State) : Ans := s.actWrite t org (camReg m Reg.CAM_TRC_CTRL) 4#32 0

/-! Estimators: 0 to 4 of channel i, 5 of pipeline i. -/

/-- EST_CFG_WRITE. -/
def execEstCfgWrite (org : Origin) (n : Fin 6) (k : Fin 24) (val : Word) (t : Nat) (s : State) : Ans := s.actWrite t org (estBase n k) val 0
/-- EST_START. -/
def execEstStart (org : Origin) (n : Fin 6) (k : Fin 24) (t : Nat) (s : State) : Ans := s.actWrite t org (estBase n k + 4) 1#32 0
/-- EST_ABORT. -/
def execEstAbort (org : Origin) (n : Fin 6) (k : Fin 24) (t : Nat) (s : State) : Ans := s.actWrite t org (estBase n k + 4) 2#32 0

/-- The step of an estimator in a state, commanded by itself before RUN; while the stoke runs, STOKE_BOUNDARY brings it about (R251). -/
def State.estEarly (s : State) (n : Fin 6) (k : Fin 24) (st : EstState) : State := if (s.est n k).st = st then s.estStep n k else s
/-- EST_INTERVAL_EXPIRE. -/
def execEstIntervalExpire (n : Fin 6) (k : Fin 24) (t : Nat) (s : State) : Ans := s.early t fun s => s.estEarly n k .idle
/-- EST_COUNT_MET. -/
def execEstCountMet (n : Fin 6) (k : Fin 24) (t : Nat) (s : State) : Ans := s.early t fun s => s.estEarly n k .collect
/-- EST_DECISION. -/
def execEstDecision (n : Fin 6) (k : Fin 24) (t : Nat) (s : State) : Ans := s.early t fun s => s.estEarly n k .evaluate
/-- EST_RAMP_END. -/
def execEstRampEnd (n : Fin 6) (k : Fin 24) (t : Nat) (s : State) : Ans := s.early t fun s => s.estEarly n k .ramp
/-- XING_EVALUATE: crossings whose last sample has arrived. -/
def execXingEvaluate (c : Ch) (t : Nat) (s : State) : Ans := s.act t fun s => if s.time.cnt = 0 then s else s.xingStep c (s.time.cnt - 1)

end Sys2Proof.Machine
end

