-- ==== Sys2Proof/Machine/ChannelCmd.lean ====
section
/-! DEFINITION. Commands of a channel's program, vector path and barrier (R33, R34, R88–R95, R106–R133). -/

namespace Sys2Proof.Machine
open Sys2Proof

/-- The budget of a running entry has ended at an instant: the entry's own budget is spent. -/
def State.budgetEnds (s : State) (c : Ch) (fault : Bool) : State :=
  let e := s.engOf c
  let u := s.eng[e]
  if u.run = .run ∧ (u.entry = .fault ↔ fault = true) ∧ s.engBudget e ≤ s.now then s.engOver c e else s

/-- FAULT_ENTRY_OVERRUN: cycle 200 comes with the FAULT entry running (R93). -/
def execFaultEntryOverrun (c : Ch) (t : Nat) (s : State) : Ans := s.act t fun s => s.budgetEnds c true
/-- BUDGET_OVERRUN: the program budget ends with the program running (R33). -/
def execBudgetOverrun (c : Ch) (t : Nat) (s : State) : Ans := s.act t fun s => s.budgetEnds c false
/-- DOUBLE_OVERRUN: two overruns in a row are a fault of cause 0x02 (R34). -/
def execDoubleOverrun (c : Ch) (t : Nat) (s : State) : Ans :=
  s.act t fun s => if 2 ≤ s.ch[c].overruns ∧ s.inFault c = false ∧ s.ch[c].faultDue.contains 2 = false then s.faultDue c 2 else s
/-- ENG_TRAP_CLR. -/
def execEngTrapClr (org : Origin) (c : Ch) (t : Nat) (s : State) : Ans := s.actWrite t org (chReg c Reg.ENG_TRAP_CLR) 1#32 0
/-- LAYER_CTRL_REQ. -/
def execLayerCtrlReq (org : Origin) (c : Ch) (t : Nat) (s : State) : Ans := s.actWrite t org (chReg c Reg.LAYER_CTRL) 1#32 0
/-- FAULT_CLEAR. -/
def execFaultClear (org : Origin) (c : Ch) (t : Nat) (s : State) : Ans := s.actWrite t org (chReg c Reg.FAULT_CTRL) 1#32 0
/-- FAULT_RESUME: RESUME is written with CLEAR (R95). -/
def execFaultResume (org : Origin) (c : Ch) (t : Nat) (s : State) : Ans := s.actWrite t org (chReg c Reg.FAULT_CTRL) 3#32 0
/-- PROG_LOAD. -/
def execProgLoad (org : Origin) (c : Ch) (t : Nat) (s : State) : Ans := s.actWrite t org (chReg c Reg.PROG_CTRL) 1#32 0
/-- LOAD_DONE: the image at the head of the loader's queue has been read, or the host read failed. -/
def execLoadDone (data : Option (List Byte)) (t : Nat) (s : State) : Ans := s.act t fun s => s.loadDone data
/-- PROG_SWITCH. -/
def execProgSwitch (org : Origin) (c : Ch) (t : Nat) (s : State) : Ans := s.actWrite t org (chReg c Reg.PROG_CTRL) 2#32 0
/-- PROG_RUN; `aux` is the DEV_IDX of the vector ring's index block (R115). -/
def execProgRun (org : Origin) (c : Ch) (aux t : Nat) (s : State) : Ans := s.actWrite t org (chReg c Reg.PROG_CTRL) 4#32 aux
/-- PROG_HALT. -/
def execProgHalt (org : Origin) (c : Ch) (t : Nat) (s : State) : Ans := s.actWrite t org (chReg c Reg.PROG_CTRL) 8#32 0
/-- LUT_SWAP. -/
def execLutSwap (org : Origin) (c : Ch) (t : Nat) (s : State) : Ans := s.actWrite t org (chReg c Reg.PROG_CTRL) 16#32 0
/-- RECORD_PREFETCH: a slot of the channel's ring has been read, or the read failed. -/
def execRecordPrefetch (c : Ch) (data : Option (List Byte)) (t : Nat) (s : State) : Ans := s.act t fun s => s.prefetch c data
/-- VEC_RESTART; `aux` is the DEV_IDX of the index block (R115). -/
def execVecRestart (org : Origin) (c : Ch) (aux t : Nat) (s : State) : Ans := s.actWrite t org (chReg c Reg.VEC_CTRL) 1#32 aux
/-- BARRIER_RELEASE. -/
def execBarrierRelease (c : Ch) (t : Nat) (s : State) : Ans := s.atLast t fun s => s.syncRelease c s.time.cnt
/-- A barrier times out at the boundary that ends stoke k: judged with the arrivals that the boundary merges first, since a release comes
before a timeout (R132). -/
def State.syncExpire (s : State) (c : Ch) (k : Nat) : State :=
  if ((s.framesMerge k).sync[c]).releaseDue k then s else s.syncTimeout c k

/-- BARRIER_TIMEOUT. -/
def execBarrierTimeout (c : Ch) (t : Nat) (s : State) : Ans := s.atLast t fun s => s.syncExpire c s.time.cnt

end Sys2Proof.Machine
end

