-- ==== Sys2Proof/Machine/ClusterCmd.lean ====
section
/-! DEFINITION. Commands of the clusters (R270–R286). -/

namespace Sys2Proof.Machine
open Sys2Proof

/-- FAILOVER: mismatches that have been found are handled (R271, R274). While the stoke runs, STOKE_BOUNDARY finds and handles them. -/
def execFailover (k : Cl) (t : Nat) (s : State) : Ans := s.early t fun s => s.clFailover k
/-- BIST_DONE: the outcome of the self-test of a channel's pair; before RUN it takes effect at once (R32). -/
def execBistDone (c : Ch) (pass : Bool) (t : Nat) (s : State) : Ans := s.act t fun s => (s.bistDone c pass).atOnce fun s => s.bistEnd c
/-- SHADOW_DONE. -/
def execShadowDone (c : Ch) (t : Nat) (s : State) : Ans := s.act t fun s => s.shadowDone c
/-- PAIR_REVERT. -/
def execPairRevert (c : Ch) (t : Nat) (s : State) : Ans := s.early t fun s => s.pairRevert c
/-- CL_SWAP_TAKE. -/
def execClSwapTake (org : Origin) (k : Cl) (t : Nat) (s : State) : Ans := s.actWrite t org (clReg k Reg.CL_SWAP_CTRL) 1#32 0
/-- SWAP_PREP_DONE. -/
def execSwapPrepDone (k : Cl) (t : Nat) (s : State) : Ans := s.early t fun s => s.swapPrepDone k
/-- CL_SWAP_RETURN. -/
def execClSwapReturn (org : Origin) (k : Cl) (t : Nat) (s : State) : Ans := s.actWrite t org (clReg k Reg.CL_SWAP_CTRL) 2#32 0
/-- CHANNEL_RETURN. -/
def execChannelReturn (c : Ch) (t : Nat) (s : State) : Ans := s.early t fun s => s.channelReturn c
/-- CL_SWAP_ABORT. -/
def execClSwapAbort (org : Origin) (k : Cl) (t : Nat) (s : State) : Ans := s.actWrite t org (clReg k Reg.CL_SWAP_CTRL) 4#32 0

end Sys2Proof.Machine
end

