-- ==== Sys2Proof/Machine/Flow.lean ====
section
/-! DEFINITION. Control flow, the special registers and END (R56, R70–R75, R85). -/

namespace Sys2Proof.Machine
open Sys2Proof

/-- A taken transfer: the loops it leaves go, and the program counter moves. -/
def jumpTo (e : Fin 28) (cost tgt : Nat) : Act := .go cost (fun s => s.modEng e fun u => u.leave tgt) (.to tgt)

/-- B: a reserved condition is illegal; a taken target outside the bank traps. -/
def execB (c : Ch) (cond : BitVec 5) (off : BitVec 16) (s : State) : Ans :=
  .next (s.tuikin c [] false true fun u e =>
    if !condOk cond then .trap 0x01
    else if !condHolds cond u.flg then .go 1 id .seq
    else
      let t := (u.pc : Int) + off.toInt
      if 0 ≤ t ∧ t ≤ 0x1FFF then jumpTo e 2 t.toNat else .trap 0x0A)
/-- J. -/
def execJ (c : Ch) (target : BitVec 13) (s : State) : Ans := .next (s.tuikin c [] false true fun _ e => jumpTo e 2 target.toNat)
/-- CALL: the ninth nested call traps; the loop stack stands (R74). -/
def execCall (c : Ch) (target : BitVec 13) (s : State) : Ans :=
  .next (s.tuikin c [] false true fun u e =>
    if 8 ≤ u.calls.length then .trap 0x06
    else .go 2 (fun s => s.modEng e fun u => { u with calls := (u.pc + 1) :: u.calls }) (.to target.toNat))
/-- RET. -/
def execRet (c : Ch) (s : State) : Ans :=
  .next (s.tuikin c [] false true fun u e =>
    match u.calls with
    | [] => .trap 0x07
    | a :: r => .go 2 (fun s => s.modEng e fun u => { u with calls := r }) (.to a))
/-- JT: the bounded table jump of R71, its table read from the active bank. -/
def execJt (c : Ch) (a : Reg) (n : BitVec 10) (s : State) : Ans :=
  .next (s.tuikin c [a] false true fun u e =>
    let w := u.pc + 1 + min (u.r a).toNat n.toNat
    let ad := imemBase (ownEng c) s.ch[c].bankB + 4 * w
    let v := s.word ad
    if 0x1FFF < w then .trap 0x01
    else if s.isBad ad then .ue ad
    else if 0x2000 ≤ v.toNat then .trap 0x01
    else jumpTo e 3 v.toNat)
/-- LOOP (R72, R73): the end is judged for a count of 0 too. -/
def execLoop (c : Ch) (n : BitVec 10) (b : Reg) (max : BitVec 11) (s : State) : Ans :=
  .next (s.tuikin c [b] false true fun u e =>
    if n = 0#10 ∨ max = 0#11 then .trap 0x01
    else
      let count := min (u.r b).toNat max.toNat
      if (match u.loops with
          | f :: _ => decide (f.stop ≤ u.pc + n.toNat)
          | [] => false) && (count == 0 || decide (u.loops.length < 4)) then .trap 0x01
      else if count = 0 then .go 2 id (.to (u.pc + 1 + n.toNat))
      else if 4 ≤ u.loops.length then .trap 0x05
      else .go 1 (fun s => s.modEng e fun u => { u with loops := ⟨u.pc + 1, u.pc + n.toNat, count⟩ :: u.loops }) (.to (u.pc + 1)))
/-- END (R75); `diff`: the two cores reach it in different cycles (R53). -/
def execEndEntry (c : Ch) (diff : Bool) (s : State) : Ans :=
  .next (s.tuikin c [] false true fun _ _ => if diff then .differ 5 else .go 1 id .fin)

/-- The value of a special register (R56). -/
def State.special (s : State) (c : Ch) (u : Core) (sel : Nat) : Word :=
  match sel with
  | 0 => u.fstat.zeroExtend 32
  | 1 => toW u.cycle
  | 2 => toW u.loops.length
  | 3 => toW u.calls.length
  | 4 => toW (entryCode u.entry)
  | 5 => if u.entry = .fault then s.ch[c].trapInfo else 0#32
  | _ => if s.ch[c].bankB then 1#32 else 0#32

/-- MFS: of FSTAT it waits for every binary32 result (R58); a select above 6 traps (R56). -/
def execMfs (c : Ch) (d : Reg) (sel : Fin 32) (s : State) : Ans :=
  .next (s.tuikin c [d] (sel.val == 0) false fun u e =>
    if 6 < sel.val then .trap 0x01 else .go 1 (putReg e d (s.special c u sel.val)) .seq)
/-- MTS: of FSTAT alone (R56). -/
def execMts (c : Ch) (a : Reg) (sel : Fin 32) (s : State) : Ans :=
  .next (s.tuikin c [a] (sel.val == 0) false fun u e =>
    if sel.val ≠ 0 then .trap 0x01
    else
      let v := (u.r a).extractLsb' 0 5
      .go 1 (fun s => s.modEng e fun u => { u with fstat := v }) .seq)

end Sys2Proof.Machine
end

