-- ==== Sys2Proof/Machine/Fpu.lean ====
section
/-! DEFINITION. The binary32 instructions (R57, R58, R69). -/

namespace Sys2Proof.Machine
open Sys2Proof

/-- A result of the unit with its FSTAT flags. -/
def fRes (r : Nat × FFlags) : Word × FFlags := (toW r.1, r.2)
/-- A subnormal operand taken as zero of the same sign (R57). -/
def flushW (a : Word) : Word := if fld a 23 8 = 0 then a &&& 0x80000000#32 else a
/-- FMAC: one rounding; 0 × ∞ with a quiet NaN addend leaves NV open (log entry 11). -/
def fmacW (d a b : Word) : Word × FFlags :=
  match mulExact (f32 a) (f32 b), f32 d with
  | none, .nan false => (0x7FC00000#32, { nv := Config.fmaQuiet d.toNat a.toNat b.toNat })
  | _, _ => fRes (fmt32.fmaV (f32 d) (f32 a) (f32 b))
/-- The sign and value order of FMIN and FMAX: −0 < +0 (R69). -/
def fLess (a b : Word) : Bool := flt a b || (fcmp a b == some .eq && bit a 31 && !bit b 31)
/-- FMIN (R57, R69): a NaN operand yields the other operand. -/
def fminW (a b : Word) : Word × FFlags :=
  (if fIsNan a then (if fIsNan b then 0x7FC00000#32 else flushW b) else if fIsNan b then flushW a
    else flushW (if fLess b a then b else a), sigFlags a b)
/-- FMAX. -/
def fmaxW (a b : Word) : Word × FFlags :=
  (if fIsNan a then (if fIsNan b then 0x7FC00000#32 else flushW b) else if fIsNan b then flushW a
    else flushW (if fLess a b then b else a), sigFlags a b)
/-- FCVTWS and FCVTQS: a × 2^s to the nearest integer, saturated (R69). -/
def fToW (a : Word) (s : Nat) : Word × FFlags :=
  match f32 a with
  | .nan _ => (0#32, { nv := true })
  | .inf n => (if n then 0x80000000#32 else 0x7FFFFFFF#32, { nv := true })
  | .fin n m e =>
    let r := rintV n m (e + s)
    if r.1 < -2147483648 ∨ 2147483647 < r.1 then (sat32 r.1, { nv := true }) else (intW r.1, { nx := r.2 })
/-- FCVTSW and FCVTSQ: a / 2^s as binary32 (R69). -/
def wToF (a : Word) (s : Nat) : Word × FFlags := fRes (fmt32.round (a.toInt < 0) a.toInt.natAbs (-(s : Int)))

/-! Latency 3. -/

/-- FADD. -/
def execFadd (c : Ch) (d a b : Reg) (s : State) : Ans :=
  .next (s.fpuOp c [a, b] d 1 3 fun u => fRes (fmt32.addV (f32 (u.r a)) (f32 (u.r b))))
/-- FSUB. -/
def execFsub (c : Ch) (d a b : Reg) (s : State) : Ans :=
  .next (s.fpuOp c [a, b] d 1 3 fun u => fRes (fmt32.addV (f32 (u.r a)) (f32 (u.r b)).neg))
/-- FMUL. -/
def execFmul (c : Ch) (d a b : Reg) (s : State) : Ans :=
  .next (s.fpuOp c [a, b] d 1 3 fun u => fRes (fmt32.mulV (f32 (u.r a)) (f32 (u.r b))))
/-- FMAC. -/
def execFmac (c : Ch) (d a b : Reg) (s : State) : Ans := .next (s.fpuOp c [a, b] d 1 3 fun u => fmacW (u.r d) (u.r a) (u.r b))
/-- FCVTWS. -/
def execFcvtws (c : Ch) (d a : Reg) (s : State) : Ans := .next (s.fpuOp c [a] d 1 3 fun u => fToW (u.r a) 0)
/-- FCVTSW. -/
def execFcvtsw (c : Ch) (d a : Reg) (s : State) : Ans := .next (s.fpuOp c [a] d 1 3 fun u => wToF (u.r a) 0)
/-- FCVTQS. -/
def execFcvtqs (c : Ch) (d a : Reg) (sh : Fin 32) (s : State) : Ans := .next (s.fpuOp c [a] d 1 3 fun u => fToW (u.r a) sh.val)
/-- FCVTSQ. -/
def execFcvtsq (c : Ch) (d a : Reg) (sh : Fin 32) (s : State) : Ans := .next (s.fpuOp c [a] d 1 3 fun u => wToF (u.r a) sh.val)

/-! One cycle. -/

/-- FMIN. -/
def execFmin (c : Ch) (d a b : Reg) (s : State) : Ans := .next (s.fpuOp c [a, b] d 1 1 fun u => fminW (u.r a) (u.r b))
/-- FMAX. -/
def execFmax (c : Ch) (d a b : Reg) (s : State) : Ans := .next (s.fpuOp c [a, b] d 1 1 fun u => fmaxW (u.r a) (u.r b))
/-- FABS. -/
def execFabs (c : Ch) (d a : Reg) (s : State) : Ans := .next (s.fpuOp c [a] d 1 1 fun u => (fabs (u.r a), {}))
/-- FNEG. -/
def execFneg (c : Ch) (d a : Reg) (s : State) : Ans := .next (s.fpuOp c [a] d 1 1 fun u => (fneg (u.r a), {}))
/-- FCMP. -/
def execFcmp (c : Ch) (a b : Reg) (s : State) : Ans :=
  .next (s.tuikin c [a, b] false false fun u e =>
    let fl := sigFlags (u.r a) (u.r b)
    let f := fcmpFlags (u.r a) (u.r b)
    .go 1 (fun s => s.modEng e fun u => { u.setFlg f with pend := u.pend ++ [⟨0, fl, u.cycle + 1⟩] }) .seq)

/-! Sixteen cycles. -/

/-- FDIV. -/
def execFdiv (c : Ch) (d a b : Reg) (s : State) : Ans :=
  .next (s.fpuOp c [a, b] d 16 16 fun u => fRes (fmt32.divV (f32 (u.r a)) (f32 (u.r b))))
/-- FSQRT. -/
def execFsqrt (c : Ch) (d a : Reg) (s : State) : Ans := .next (s.fpuOp c [a] d 16 16 fun u => fRes (fmt32.sqrtV (f32 (u.r a))))

end Sys2Proof.Machine
end

