-- ==== Sys2Proof/Machine/HostCmd.lean ====
section
/-! DEFINITION. Commands of the host link, the rings, the lanes and the registers (R9, R354–R394, R396–R408). -/

namespace Sys2Proof.Machine
open Sys2Proof

/-- LINK_DOWN. -/
def execLinkDown (kind : DownKind) (t : Nat) (s : State) : Ans := s.act t fun s => s.linkDown kind
/-- PCIE_LINK_UP: the rate and width trained, and the bus-master bits that the host has set. -/
def execPcieLinkUp (rate width : Nat) (bm0 bm1 : Bool) (t : Nat) (s : State) : Ans := s.act t fun s => s.linkUp rate width bm0 bm1
/-- RING_ENABLE; `aux` is the DEV_IDX of the ring's index block (R357). -/
def execRingEnable (org : Origin) (r : Ring) (aux t : Nat) (s : State) : Ans := s.actWrite t org (ringReg r Reg.RING_CTRL) 1#32 aux
/-- RING_DISABLE. -/
def execRingDisable (org : Origin) (r : Ring) (t : Nat) (s : State) : Ans := s.actWrite t org (ringReg r Reg.RING_CTRL) 2#32 0
/-- RING_DISABLE_DONE. -/
def execRingDisableDone (r : Ring) (t : Nat) (s : State) : Ans := s.act t fun s => s.ringDisabled r
/-- RING_DOORBELL. -/
def execRingDoorbell (org : Origin) (r : Ring) (val : Word) (t : Nat) (s : State) : Ans := s.actWrite t org (ringReg r Reg.RING_DOORBELL) val 0
/-- INT_ACK: of a vector. -/
def execIntAck (org : Origin) (v : Fin 256) (t : Nat) (s : State) : Ans := s.actWrite t org (hostReg Reg.INT_ACK) (toW v.val) 0
/-- INT_PEND_CLEAR: bits of word w. -/
def execIntPendClear (org : Origin) (w : Fin 8) (val : Word) (t : Nat) (s : State) : Ans :=
  s.actWrite t org (hostReg (Reg.INT_PEND + 4 * w.val)) val 0
/-- RING_INT_STOKES. -/
def execRingIntStokes (r : Ring) (t : Nat) (s : State) : Ans := s.act t fun s => s.ringAge r
/-- MSIX_VECTOR_UNMASK. -/
def execMsixVectorUnmask (v : Fin 256) (t : Nat) (s : State) : Ans := s.act t fun s => s.vecUnmask v.val

/-! Lanes: port 0 EAST, 1 WEST. -/

/-- PORT_EN. -/
def execPortEn (org : Origin) (p : Fin 2) (t : Nat) (s : State) : Ans := s.actWrite t org (portReg p Reg.PORT_CTRL) 1#32 0
/-- PORT_DIS. -/
def execPortDis (org : Origin) (p : Fin 2) (t : Nat) (s : State) : Ans := s.actWrite t org (portReg p Reg.PORT_CTRL) 2#32 0
/-- PORT_RETRAIN: with FORCE. -/
def execPortRetrain (org : Origin) (p : Fin 2) (force : Bool) (t : Nat) (s : State) : Ans :=
  s.actWrite t org (portReg p Reg.PORT_CTRL) (toW (4 + bitAt force 3)) 0
/-- PORT_TRAIN_DONE: figure of merit, CTLE and DFE taps of each lane (R388). -/
def execPortTrainDone (p : Fin 2) (lanes : List (Nat × Nat × List Word)) (t : Nat) (s : State) : Ans := s.act t fun s => s.portTrainDone p lanes
/-- CODEWORD_LOCK: the lane number received on each lane, inverted lanes, and the skew in symbols. -/
def execCodewordLock (p : Fin 2) (order : List Nat) (inv : List Bool) (skew t : Nat) (s : State) : Ans :=
  s.act t fun s => s.codewordLock p order inv skew
/-- IDENTITY_PACKET: the partner's device number, whether it is the timing master, whether it is an EB3120. -/
def execIdentityPacket (p : Fin 2) (dev : Fin 4) (tm compat : Bool) (t : Nat) (s : State) : Ans := s.act t fun s => s.identity p dev tm compat
/-- RTT_PROBE: a probe has returned after a time in units of 100 ps. -/
def execRttProbe (p : Fin 2) (time t : Nat) (s : State) : Ans := s.act t fun s => s.rttProbe p time
/-- TRAIN_TIMEOUT. -/
def execTrainTimeout (p : Fin 2) (t : Nat) (s : State) : Ans := s.act t fun s => s.trainTimeout p
/-- PORT_LOSS: `n` packets had not been acknowledged. -/
def execPortLoss (p : Fin 2) (n t : Nat) (s : State) : Ans := s.act t fun s => s.portLoss p n
/-- GANG_FRAME: a frame arrives, before the reserved window or in it (R383). Before RUN there is no window. One that meets an uncorrectable word of
the lane buffers is dropped and never replayed (R19, R381). -/
def execGangFrame (p : Fin 2) (f : GangFrame) (t : Nat) (s : State) : Ans :=
  s.act t fun s =>
    let r := s.laneMet
    if r.1 then r.2 else r.2.frameIn p f (!s.time.running || decide (s.now + 400 < s.stokeCyc))
/-- PACKET_REPLAY: packets replayed, codewords not correctable and symbols corrected. -/
def execPacketReplay (p : Fin 2) (n uncorr corr t : Nat) (s : State) : Ans := s.act t fun s => s.packetReplay p n uncorr corr
/-- PEER_MESSAGE: taken from a send ring, whose next slot holds the bytes, or received on the lanes. -/
def execPeerMessage (r : Option Ring) (bytes : List Byte) (t : Nat) (s : State) : Ans :=
  s.act t fun s => match r with
    | some r => s.peerSend r bytes
    | none => s.laneMet.2.peerIn bytes
/-- PEER_MSG_TIMEOUT. -/
def execPeerMsgTimeout (t : Nat) (s : State) : Ans := s.act t State.msgTimeout
/-- FORWARDED_ARCHIVE: a record of member d for dst, whole or cut off; `room` is whether the staging has the space. -/
def execForwardedArchive (d dst : Fin 4) (room : Bool) (bytes : Option (List Byte)) (t : Nat) (s : State) : Ans :=
  s.act t fun s => s.laneMet.2.archiveIn d dst room bytes
/-- ELECTRICAL_IDLE. -/
def execElectricalIdle (p : Fin 2) (t : Nat) (s : State) : Ans := s.act t fun s => s.portIdle p
/-- IDLE_EXIT. -/
def execIdleExit (p : Fin 2) (t : Nat) (s : State) : Ans := s.act t fun s => s.portWake p

/-! Registers and the log. -/

/-- Host origins reach the registers by BAR0, with byte enables. -/
def isHost : Origin → Bool
  | .host0 | .host1 => true
  | _ => false
/-- REGISTER_WRITE; `aux` is the DEV_IDX of an index block that the write's effect reads. -/
def execRegisterWrite (org : Origin) (addr : Nat) (be : BitVec 4) (val : Word) (aux t : Nat) (s : State) : Ans :=
  if s.boot.inReset || s.hk.shut then .next s
  else s.actAlways t fun s => if isHost org then s.barWrite org addr be val aux else s.regWrite org addr val aux
/-- REGISTER_READ: a BAR0 read. -/
def execRegisterRead (addr : Nat) (be : BitVec 4) (t : Nat) (s : State) : Ans :=
  if s.boot.inReset || s.hk.shut then .next s
  else s.actAlways t fun s => let r := s.barRead addr be; r.2.out (.data r.1.toNat)
/-- BAR2_ACCESS: a write of words, or a read of `n` words. -/
def execBar2Access (org : Origin) (addr : Nat) (ws : Option (List Word)) (n t : Nat) (s : State) : Ans :=
  if s.boot.inReset || s.hk.shut then .next s
  else s.actAlways t fun s => match ws with
    | some l => s.bar2Write org addr l
    | none => s.bar2Read addr n
/-- SUPPRESS_WINDOW_END: before RUN (R396). -/
def execSuppressWindowEnd (t : Nat) (s : State) : Ans := s.early t State.suppressEnd
/-- LOG_DRAIN. -/
def execLogDrain (t : Nat) (s : State) : Ans := s.act t State.logDrain
/-- PEER_HEAD_SEND. -/
def execPeerHeadSend (t : Nat) (s : State) : Ans := s.act t State.headSend
/-- PEER_HEAD: SEQ and head of member d arrive for dst. -/
def execPeerHead (d dst : Fin 4) (seq : Nat) (head : List Byte) (t : Nat) (s : State) : Ans := s.act t fun s => s.laneMet.2.headIn d dst seq head

end Sys2Proof.Machine
end

