-- ==== Sys2Proof/Machine/Codec.lean ====
section
/-! DEFINITION. The instruction words of the Tuikin engines (R59, R64–R85): an encoder and a decoder, and the illegal word. -/

namespace Sys2Proof.Machine
open Sys2Proof

/-! Fields (R59). -/

/-- Format R: opcode, d, a, b, s and function. -/
def encR (op : Nat) (d a b : Reg) (s f : Nat) : Nat := op * 67108864 + d.val * 2097152 + a.val * 65536 + b.val * 2048 + s * 64 + f
/-- Format I: opcode, d, a and immediate. -/
def encI (op : Nat) (d a : Reg) (imm : Nat) : Nat := op * 67108864 + d.val * 2097152 + a.val * 65536 + imm
/-- Bits [31:26]. -/
def opOf (w : Nat) : Nat := w / 67108864 % 64
/-- A register number from bit `lo`. -/
def regOf (w lo : Nat) : Reg := ⟨w / 2 ^ lo % 32, Nat.mod_lt _ (by decide)⟩
/-- A 5-bit field from bit `lo`. -/
def f5 (w lo : Nat) : Fin 32 := ⟨w / 2 ^ lo % 32, Nat.mod_lt _ (by decide)⟩

/-- The value where a condition holds. -/
def onlyIf (b : Bool) (i : Instr) : Option Instr := if b then some i else none

/-- Major opcode 0x00: the ALU (R65). -/
def decAlu (c : Ch) (d a b : Reg) (s f : Nat) : Option Instr :=
  match f with
  | 0 => onlyIf (s == 0) (.add c d a b)
  | 1 => onlyIf (s == 0) (.sub c d a b)
  | 2 => onlyIf (s == 0) (.and c d a b)
  | 3 => onlyIf (s == 0) (.or c d a b)
  | 4 => onlyIf (s == 0) (.xor c d a b)
  | 5 => onlyIf (s == 0) (.andn c d a b)
  | 6 => onlyIf (s == 0) (.shl c d a b)
  | 7 => onlyIf (s == 0) (.shr c d a b)
  | 8 => onlyIf (s == 0) (.sar c d a b)
  | 9 => onlyIf (s == 0) (.ror c d a b)
  | 10 => onlyIf (s == 0) (.min c d a b)
  | 11 => onlyIf (s == 0) (.max c d a b)
  | 12 => onlyIf (s == 0) (.minu c d a b)
  | 13 => onlyIf (s == 0) (.maxu c d a b)
  | 14 => onlyIf (s == 0) (.slt c d a b)
  | 15 => onlyIf (s == 0) (.sltu c d a b)
  | 16 => onlyIf (s == 0) (.adds c d a b)
  | 17 => onlyIf (s == 0) (.subs c d a b)
  | 32 => onlyIf (s == 0) (.mul c d a b)
  | 33 => onlyIf (s == 0) (.mulh c d a b)
  | 34 => onlyIf (s == 0) (.mulhu c d a b)
  | 37 => onlyIf (s == 0) (.mac c d a b)
  | 40 => onlyIf (s == 0) (.div c d a b)
  | 41 => onlyIf (s == 0) (.divu c d a b)
  | 42 => onlyIf (s == 0) (.rem c d a b)
  | 43 => onlyIf (s == 0) (.remu c d a b)
  | 18 => onlyIf (s == 0 && b == 0) (.abs c d a)
  | 19 => onlyIf (s == 0 && b == 0) (.clz c d a)
  | 20 => onlyIf (condOk (BitVec.ofNat 5 s)) (.sel c d a b (BitVec.ofNat 5 s))
  | 24 => onlyIf (s == 0 && d == 0) (.cmp c a b)
  | 25 => onlyIf (s == 0 && d == 0) (.tst c a b)
  | 35 => some (.qmul c d a b ⟨s % 32, Nat.mod_lt _ (by decide)⟩)
  | 38 => some (.qmac c d a b ⟨s % 32, Nat.mod_lt _ (by decide)⟩)
  | 44 => some (.qdiv c d a b ⟨s % 32, Nat.mod_lt _ (by decide)⟩)
  | _ => none

/-- Major opcode 0x01: binary32 (R69). -/
def decFpu (c : Ch) (d a b : Reg) (s f : Nat) : Option Instr :=
  match f with
  | 0 => onlyIf (s == 0) (.fadd c d a b)
  | 1 => onlyIf (s == 0) (.fsub c d a b)
  | 2 => onlyIf (s == 0) (.fmul c d a b)
  | 3 => onlyIf (s == 0) (.fmac c d a b)
  | 4 => onlyIf (s == 0) (.fmin c d a b)
  | 5 => onlyIf (s == 0) (.fmax c d a b)
  | 9 => onlyIf (s == 0) (.fdiv c d a b)
  | 6 => onlyIf (s == 0 && b == 0) (.fabs c d a)
  | 7 => onlyIf (s == 0 && b == 0) (.fneg c d a)
  | 10 => onlyIf (s == 0 && b == 0) (.fsqrt c d a)
  | 12 => onlyIf (s == 0 && b == 0) (.fcvtws c d a)
  | 13 => onlyIf (s == 0 && b == 0) (.fcvtsw c d a)
  | 8 => onlyIf (s == 0 && d == 0) (.fcmp c a b)
  | 14 => onlyIf (b == 0) (.fcvtqs c d a ⟨s % 32, Nat.mod_lt _ (by decide)⟩)
  | 15 => onlyIf (b == 0) (.fcvtsq c d a ⟨s % 32, Nat.mod_lt _ (by decide)⟩)
  | _ => none

/-- SHI (R67). -/
def decShi (c : Ch) (d a : Reg) (imm : Nat) : Option Instr :=
  onlyIf (decide (imm < 128)) (.shi c d a ⟨imm / 32 % 4, Nat.mod_lt _ (by decide)⟩ ⟨imm % 32, Nat.mod_lt _ (by decide)⟩)
/-- BF (R68). -/
def decBf (c : Ch) (d a : Reg) (imm : Nat) : Option Instr :=
  let pos : Fin 32 := ⟨imm / 32 % 32, Nat.mod_lt _ (by decide)⟩
  let l : Fin 32 := ⟨imm % 32, Nat.mod_lt _ (by decide)⟩
  match imm / 1024 with
  | 0 => some (.extu c d a pos l)
  | 1 => some (.exts c d a pos l)
  | 2 => some (.ins c d a pos l)
  | _ => none

/-- The instruction that a word is, with no difference between the cores; none for every word that R59 and R86 call illegal. -/
def decodeWord (c : Ch) (w : Nat) : Option Instr :=
  let d := regOf w 21
  let a := regOf w 16
  let b := regOf w 11
  let s := w / 64 % 32
  let imm := w % 65536
  let i : BitVec 16 := BitVec.ofNat 16 imm
  match opOf w with
  | 0 => decAlu c d a b s (w % 64)
  | 1 => decFpu c d a b s (w % 64)
  | 2 => some (.addi c d a i)
  | 3 => some (.andi c d a i)
  | 4 => some (.ori c d a i)
  | 5 => some (.xori c d a i)
  | 16 => some (.ldw c d a i)
  | 17 => some (.ldh c d a i)
  | 18 => some (.ldhu c d a i)
  | 19 => some (.ldb c d a i)
  | 20 => some (.ldbu c d a i)
  | 24 => some (.prd c d a i)
  | 6 => onlyIf (a == 0) (.lui c d i)
  | 7 => decShi c d a imm
  | 8 => onlyIf (d == 0) (.cmpi c a i)
  | 10 => decBf c d a imm
  | 21 => some (.stw c d a i false)
  | 22 => some (.sth c d a i false)
  | 23 => some (.stb c d a i false)
  | 25 => some (.pwr c d a i false)
  | 26 => onlyIf (a == 0 && imm == 0 && d.val % 8 == 0 && d != 0) (.pop c d false)
  | 27 => onlyIf (imm % 4096 == 0) (.lut c d a ⟨imm / 8192 % 8, Nat.mod_lt _ (by decide)⟩ (imm / 4096 % 2 == 1))
  | 28 => onlyIf (w % 2048 == 0) (.emq c d a b false)
  | 29 => onlyIf (imm == 0) (.gdq c d a false)
  | 32 => onlyIf (a == 0 && condOk (BitVec.ofNat 5 d.val)) (.b c (BitVec.ofNat 5 d.val) i)
  | 33 => onlyIf (d == 0 && a == 0 && decide (imm < 8192)) (.j c (BitVec.ofNat 13 imm))
  | 34 => onlyIf (d == 0 && a == 0 && decide (imm < 8192)) (.call c (BitVec.ofNat 13 imm))
  | 35 => onlyIf (w % 67108864 == 0) (.ret c)
  | 36 => onlyIf (d == 0 && decide (imm < 1024)) (.jt c a (BitVec.ofNat 10 imm))
  | 37 => onlyIf (w / 65536 % 1024 != 0 && w % 2048 != 0) (.loop c (BitVec.ofNat 10 (w / 65536 % 1024)) b (BitVec.ofNat 11 (w % 2048)))
  | 38 => onlyIf (w % 67108864 == 0) (.endEntry c false)
  | 39 => onlyIf (a == 0 && decide (imm ≤ 6)) (.mfs c d ⟨imm % 32, Nat.mod_lt _ (by decide)⟩)
  | 40 => onlyIf (d == 0 && imm == 0) (.mts c a 0)
  | _ => none

/-- The word of an instruction that an engine issues; none for every other command. A difference between the cores is no part of it. -/
def encodeOp (i : Instr) : Option Nat :=
  match i with
  | .add _ d a b => some (encR 0 d a b 0 0)
  | .sub _ d a b => some (encR 0 d a b 0 1)
  | .and _ d a b => some (encR 0 d a b 0 2)
  | .or _ d a b => some (encR 0 d a b 0 3)
  | .xor _ d a b => some (encR 0 d a b 0 4)
  | .andn _ d a b => some (encR 0 d a b 0 5)
  | .shl _ d a b => some (encR 0 d a b 0 6)
  | .shr _ d a b => some (encR 0 d a b 0 7)
  | .sar _ d a b => some (encR 0 d a b 0 8)
  | .ror _ d a b => some (encR 0 d a b 0 9)
  | .min _ d a b => some (encR 0 d a b 0 10)
  | .max _ d a b => some (encR 0 d a b 0 11)
  | .minu _ d a b => some (encR 0 d a b 0 12)
  | .maxu _ d a b => some (encR 0 d a b 0 13)
  | .slt _ d a b => some (encR 0 d a b 0 14)
  | .sltu _ d a b => some (encR 0 d a b 0 15)
  | .adds _ d a b => some (encR 0 d a b 0 16)
  | .subs _ d a b => some (encR 0 d a b 0 17)
  | .mul _ d a b => some (encR 0 d a b 0 32)
  | .mulh _ d a b => some (encR 0 d a b 0 33)
  | .mulhu _ d a b => some (encR 0 d a b 0 34)
  | .mac _ d a b => some (encR 0 d a b 0 37)
  | .div _ d a b => some (encR 0 d a b 0 40)
  | .divu _ d a b => some (encR 0 d a b 0 41)
  | .rem _ d a b => some (encR 0 d a b 0 42)
  | .remu _ d a b => some (encR 0 d a b 0 43)
  | .abs _ d a => some (encR 0 d a 0 0 18)
  | .clz _ d a => some (encR 0 d a 0 0 19)
  | .sel _ d a b k => some (encR 0 d a b k.toNat 20)
  | .cmp _ a b => some (encR 0 0 a b 0 24)
  | .tst _ a b => some (encR 0 0 a b 0 25)
  | .qmul _ d a b s => some (encR 0 d a b s.val 35)
  | .qmac _ d a b s => some (encR 0 d a b s.val 38)
  | .qdiv _ d a b s => some (encR 0 d a b s.val 44)
  | .fadd _ d a b => some (encR 1 d a b 0 0)
  | .fsub _ d a b => some (encR 1 d a b 0 1)
  | .fmul _ d a b => some (encR 1 d a b 0 2)
  | .fmac _ d a b => some (encR 1 d a b 0 3)
  | .fmin _ d a b => some (encR 1 d a b 0 4)
  | .fmax _ d a b => some (encR 1 d a b 0 5)
  | .fdiv _ d a b => some (encR 1 d a b 0 9)
  | .fabs _ d a => some (encR 1 d a 0 0 6)
  | .fneg _ d a => some (encR 1 d a 0 0 7)
  | .fsqrt _ d a => some (encR 1 d a 0 0 10)
  | .fcvtws _ d a => some (encR 1 d a 0 0 12)
  | .fcvtsw _ d a => some (encR 1 d a 0 0 13)
  | .fcmp _ a b => some (encR 1 0 a b 0 8)
  | .fcvtqs _ d a s => some (encR 1 d a 0 s.val 14)
  | .fcvtsq _ d a s => some (encR 1 d a 0 s.val 15)
  | .addi _ d a i => some (encI 2 d a i.toNat)
  | .andi _ d a i => some (encI 3 d a i.toNat)
  | .ori _ d a i => some (encI 4 d a i.toNat)
  | .xori _ d a i => some (encI 5 d a i.toNat)
  | .ldw _ d a i => some (encI 16 d a i.toNat)
  | .ldh _ d a i => some (encI 17 d a i.toNat)
  | .ldhu _ d a i => some (encI 18 d a i.toNat)
  | .ldb _ d a i => some (encI 19 d a i.toNat)
  | .ldbu _ d a i => some (encI 20 d a i.toNat)
  | .prd _ d a i => some (encI 24 d a i.toNat)
  | .lui _ d i => some (encI 6 d 0 i.toNat)
  | .shi _ d a k n => some (encI 7 d a (k.val * 32 + n.val))
  | .cmpi _ a i => some (encI 8 0 a i.toNat)
  | .extu _ d a p l => some (encI 10 d a (p.val * 32 + l.val))
  | .exts _ d a p l => some (encI 10 d a (1024 + p.val * 32 + l.val))
  | .ins _ d a p l => some (encI 10 d a (2048 + p.val * 32 + l.val))
  | .stw _ d a i _ => some (encI 21 d a i.toNat)
  | .sth _ d a i _ => some (encI 22 d a i.toNat)
  | .stb _ d a i _ => some (encI 23 d a i.toNat)
  | .pwr _ d a i _ => some (encI 25 d a i.toNat)
  | .pop _ d _ => some (encI 26 d 0 0)
  | .lut _ d a t m => some (encI 27 d a (t.val * 8192 + (if m then 4096 else 0)))
  | .emq _ d a b _ => some (encR 28 d a b 0 0)
  | .gdq _ d a _ => some (encI 29 d a 0)
  | .b _ k o => some (32 * 67108864 + k.toNat * 2097152 + o.toNat)
  | .j _ x => some (encI 33 0 0 x.toNat)
  | .call _ x => some (encI 34 0 0 x.toNat)
  | .ret _ => some (encI 35 0 0 0)
  | .jt _ a n => some (encI 36 0 a n.toNat)
  | .loop _ n b m => some (37 * 67108864 + n.toNat * 65536 + b.val * 2048 + m.toNat)
  | .endEntry _ _ => some (encI 38 0 0 0)
  | .mfs _ d k => some (encI 39 d 0 k.val)
  | .mts _ a k => some (encI 40 0 a k.val)
  | _ => none

/-- An instruction word that R59 and R86 call illegal (R59): the engine traps with code 0x01. A word that is an instruction is the
business of that instruction's own command. -/
def illegalWord (w : Word) : Bool := (decodeWord 0 w.toNat).isNone

end Sys2Proof.Machine
end

