-- ==== Sys2Proof/Machine/Illegal.lean ====
section
/-! DEFINITION. ILLEGAL_INSTRUCTION (R59, R86, R87). -/

namespace Sys2Proof.Machine
open Sys2Proof

/-- ILLEGAL_INSTRUCTION: the engine of a channel issues a word that is no instruction, and takes trap 0x01. With a word that is an
instruction the command says that the two cores do not trap alike there: one traps where the other does not, or in another cycle, or
with another code; the stoke is then mismatched (R53, R87). DESIGN CHOICE (log entry 4): no other row of the table carries this
difference. -/
def execIllegalInstruction (c : Ch) (w : Word) (s : State) : Ans :=
  .next (s.tuikin c [] false false fun _ _ => if illegalWord w then .trap 0x01 else .differ 5)

end Sys2Proof.Machine
end

