-- ==== Sys2Proof/Machine/MemPort.lean ====
section
/-! DEFINITION. Loads, stores, ports, POP and LUT (R76–R81, R98). -/

namespace Sys2Proof.Machine
open Sys2Proof

/-- The words of DMEM that an access of `n` bytes at a BAR2 offset touches have an uncorrectable error. -/
def State.dmemBad (s : State) (a n : Nat) : Option Nat := ((List.range n).map (a + ·)).find? s.isBad

/-- A load of `n` bytes (R76). -/
def State.loadOp (s : State) (c : Ch) (d a : Reg) (imm : BitVec 16) (n : Nat) (ext : Nat → Word) : State :=
  s.tuikin c [a, d] false false fun u e =>
    match dmemAddr (u.r a) imm n with
    | none => .trap 0x02
    | some ad =>
      let p := s.dmemOf c + ad
      match s.dmemBad p n with
      | some x => .ue x
      | none => .go 2 (putReg e d (ext (natLE (s.bytes p n)))) .seq

/-- LDW. -/
def execLdw (c : Ch) (d a : Reg) (imm : BitVec 16) (s : State) : Ans := .next (s.loadOp c d a imm 4 toW)
/-- LDH. -/
def execLdh (c : Ch) (d a : Reg) (imm : BitVec 16) (s : State) : Ans := .next (s.loadOp c d a imm 2 fun n => intW (sx 16 n))
/-- LDHU. -/
def execLdhu (c : Ch) (d a : Reg) (imm : BitVec 16) (s : State) : Ans := .next (s.loadOp c d a imm 2 toW)
/-- LDB. -/
def execLdb (c : Ch) (d a : Reg) (imm : BitVec 16) (s : State) : Ans := .next (s.loadOp c d a imm 1 fun n => intW (sx 8 n))
/-- LDBU. -/
def execLdbu (c : Ch) (d a : Reg) (imm : BitVec 16) (s : State) : Ans := .next (s.loadOp c d a imm 1 toW)

/-- A store of `n` bytes, at once (R76); `diff`: the trailing core's copy differs (R52, R53). A part of a word that is
uncorrectable stays so. -/
def State.storeOp (s : State) (c : Ch) (d a : Reg) (imm : BitVec 16) (n : Nat) (diff : Bool) : State :=
  s.tuikin c [a, d] false false fun u _ =>
    match dmemAddr (u.r a) imm n with
    | none => .trap 0x02
    | some ad =>
      let bs := (bytesLE (u.r d)).take n
      let p := s.dmemOf c + ad
      if diff then .differ 1
      else .go 1 (fun s => if n = 4 then s.put p bs else s.setBytes p bs) .seq

/-- STW. -/
def execStw (c : Ch) (d a : Reg) (imm : BitVec 16) (diff : Bool) (s : State) : Ans := .next (s.storeOp c d a imm 4 diff)
/-- STH. -/
def execSth (c : Ch) (d a : Reg) (imm : BitVec 16) (diff : Bool) (s : State) : Ans := .next (s.storeOp c d a imm 2 diff)
/-- STB. -/
def execStb (c : Ch) (d a : Reg) (imm : BitVec 16) (diff : Bool) (s : State) : Ans := .next (s.storeOp c d a imm 1 diff)

/-- PRD (R77–R79): the snapshot, or the live value of an immediate port; an unmapped port reads 0. -/
def execPrd (c : Ch) (d a : Reg) (imm : BitVec 16) (s : State) : Ans :=
  .next (s.tuikin c [a, d] false false fun u e =>
    match portAddr (u.r a) imm with
    | none => .trap 0x03
    | some p =>
      let v := match s.immPort c p u.popped with
        | some v => v
        | none => alGet (fun _ => 0#32) s.ch[c].snap p
      .go 4 (putReg e d v) .seq)

/-- PWR (R77, R78, R93): the value is staged for the boundary. -/
def execPwr (c : Ch) (d a : Reg) (imm : BitVec 16) (diff : Bool) (s : State) : Ans :=
  .next (s.tuikin c [a, d] false false fun u _ =>
    match portAddr (u.r a) imm with
    | none => .trap 0x03
    | some p =>
      if !s.portOk c p (u.entry == .fault) then .trap 0x04
      else if diff then .differ 2
      else .go 1 (fun s => s.modCh c fun x => { x with stage := x.stage ++ [(p, u.r d)] }) .seq)

/-- The eight registers from d on take the words of a record. -/
def Core.putRec (u : Core) (d : Nat) : List Word → Core
  | [] => u
  | w :: ws => Core.putRec (if h : d < 32 then u.put ⟨d, h⟩ w else u) (d + 1) ws

/-- POP (R80, R111, R112): any destination but 8, 16 and 24 is illegal. An uncorrectable slot leaves V clear, on a stopped path too. -/
def execPop (c : Ch) (d : Reg) (diff : Bool) (s : State) : Ans :=
  .next (s.tuikin c ((List.range 8).map fun i => (⟨(d.val + i) % 32, Nat.mod_lt _ (by decide)⟩ : Reg)) false false fun u e =>
    if d.val % 8 ≠ 0 ∨ d.val = 0 then .trap 0x01
    else if diff then .differ 3
    else
      .go 6 (fun s =>
        let stopped := s.vecStopped c
        let r := s.vecPop c u.popped
        match r.1 with
        | some bs => r.2.modEng e fun u => { (u.putRec d.val (wordsLE bs)).setFlg ⟨false, false, false, stopped⟩ with popped := u.popped + 1 }
        | none => r.2.modEng e fun u =>
            { (u.putRec d.val (List.replicate 8 0#32)).setFlg ⟨true, false, false, stopped && s.vec[c].buf[u.popped]?.isNone⟩ with emptyPops := u.emptyPops + (if stopped then 0 else 1) }) .seq)

/-- R81: the table look-up. -/
def lutW (t : List Word) (m : Bool) (x : Word) : Word :=
  let n := t.length
  if n = 0 then 0#32
  else if !m then nthD t (min x.toNat (n - 1)) 0#32
  else
    let i := x.toNat / 1024
    if n - 1 ≤ i then nthD t (n - 1) 0#32
    else
      let a := (nthD t i 0#32).toInt
      let b := (nthD t (i + 1) 0#32).toInt
      intW (a + ((b - a) * (x.toNat % 1024 : Nat) + 512).fdiv 1024)

/-- The entries of a table that a look-up reads (R81). -/
def lutReads (t : List Word) (m : Bool) (x : Word) : List Nat :=
  let n := t.length
  if n = 0 then []
  else if !m then [min x.toNat (n - 1)]
  else
    let i := x.toNat / 1024
    if n - 1 ≤ i then [n - 1] else [i, i + 1]

/-- A look-up has met the uncorrectable ones of its entries: the channel uses the last good value, and the word is counted (R19). -/
def State.lutMet (s : State) (c : Ch) (t : Nat) (is : List Nat) : State :=
  is.foldl (fun (s : State) i => let a := lutSetAt c.val + 4096 * t + 4 * i; if s.isBad a then s.countUe a else s) s

/-- LUT. -/
def execLut (c : Ch) (d a : Reg) (t : Fin 8) (m : Bool) (s : State) : Ans :=
  .next (s.tuikin c [d, a] false false fun u e =>
    let tab := nthD s.ch[c].luts t.val []
    .go 2 (fun s => putReg e d (lutW tab m (u.r a)) (s.lutMet c t.val (lutReads tab m (u.r a)))) .seq)

end Sys2Proof.Machine
end

