-- ==== Sys2Proof/Machine/MotionCmd.lean ====
section
/-! DEFINITION. Commands of the motion axes, encoders, probes and compare units (R287–R328). -/

namespace Sys2Proof.Machine
open Sys2Proof

/-- MA_ENABLE. -/
def execMaEnable (org : Origin) (n : Ma) (t : Nat) (s : State) : Ans := s.actWrite t org (maReg n Reg.MA_CTRL) 1#32 0
/-- MA_DISABLE. -/
def execMaDisable (org : Origin) (n : Ma) (t : Nat) (s : State) : Ans := s.actWrite t org (maReg n Reg.MA_CTRL) 2#32 0
/-- MA_STOP. -/
def execMaStop (org : Origin) (n : Ma) (t : Nat) (s : State) : Ans := s.actWrite t org (maReg n Reg.MA_CTRL) 4#32 0
/-- MA_HARD_STOP. -/
def execMaHardStop (org : Origin) (n : Ma) (t : Nat) (s : State) : Ans := s.actWrite t org (maReg n Reg.MA_CTRL) 8#32 0
/-- MA_GO. -/
def execMaGo (org : Origin) (n : Ma) (t : Nat) (s : State) : Ans := s.actWrite t org (maReg n Reg.MA_CTRL) 16#32 0
/-- MA_JOG. -/
def execMaJog (org : Origin) (n : Ma) (t : Nat) (s : State) : Ans := s.actWrite t org (maReg n Reg.MA_CTRL) 32#32 0
/-- MA_HOME. -/
def execMaHome (org : Origin) (n : Ma) (t : Nat) (s : State) : Ans := s.actWrite t org (maReg n Reg.MA_CTRL) 64#32 0
/-- MA_CLEAR. -/
def execMaClear (org : Origin) (n : Ma) (t : Nat) (s : State) : Ans := s.actWrite t org (maReg n Reg.MA_CTRL) 128#32 0
/-- POS_SET. -/
def execPosSet (org : Origin) (n : Ma) (val : Word) (t : Nat) (s : State) : Ans := s.actWrite t org (maReg n Reg.POS_SET) val 0
/-- DECEL_WRITE. -/
def execDecelWrite (org : Origin) (n : Ma) (val : Word) (t : Nat) (s : State) : Ans := s.actWrite t org (maReg n Reg.DECEL) val 0
/-- TARGET_REACHED: the landing stoke has ended (R296). -/
def execTargetReached (n : Ma) (t : Nat) (s : State) : Ans := s.early t fun s => s.maLanded n
/-- STANDSTILL (R301). -/
def execStandstill (n : Ma) (t : Nat) (s : State) : Ans := s.early t fun s => s.maStandstill n
/-- OVERCURRENT: a current sample of a coil, in codes (R294). -/
def execOvercurrent (n : Ma) (sample : Int) (t : Nat) (s : State) : Ans := s.act t fun s => s.maSample n sample
/-- STALL: the count has reached STALL_STOKES (R308). -/
def execStall (n : Ma) (t : Nat) (s : State) : Ans :=
  s.act t fun s =>
    let u := s.ma[n].m
    if u.stall ≠ 0 ∧ s.maF n Reg.STALL_STOKES 0 16 ≤ u.stall then
      ((s.modMa n fun u => { u with stall := 0 }).bump (maReg n Reg.STALL_CNT)).maFault n 1 (s.now / 8 + 1)
    else s
/-- DEV_FAULT: three deviating stokes in a row, not yet announced (R309). -/
def execDevFault (n : Ma) (t : Nat) (s : State) : Ans :=
  s.act t fun s =>
    let u := s.ma[n].m
    if 3 ≤ u.devRun ∧ u.all.testBit 3 = false then s.maFault n 4 (s.now / 8 + 1) else s

/-- Raw transitions of an input are counted and leave it at a level, which has been stable for `us` µs; whether the filtered
level follows (R303). -/
def State.limRaw (s : State) (n : Ma) (i : Fin 3) (edges us : Nat) (level : Bool) : State × Bool :=
  let pass := decide (s.maF n Reg.LIM_CFG 16 10 ≤ us) && (s.ma[n].m).lims[i].filt != level
  ((s.addCnt (maReg n (Reg.TRANS_CNT + 4 * i.val)) edges).modMa n fun u => u.modLim i fun l => { l with raw := level }, pass)
/-- LIMIT_INPUT: an input, 0 LIMP, 1 LIMN, 2 HOME, is asserted. -/
def execLimitInput (n : Ma) (k : Fin 3) (edges us t : Nat) (s : State) : Ans :=
  s.act t fun s => let r := s.limRaw n k edges us true; if r.2 then r.1.limAssert n k else r.1
/-- LIMIT_INPUT_RELEASE: an input goes inactive. -/
def execLimitInputRelease (n : Ma) (k : Fin 3) (edges us t : Nat) (s : State) : Ans :=
  s.act t fun s => let r := s.limRaw n k edges us false; if r.2 then r.1.limRelease n k else r.1
/-- HOMING_RANGE_FAIL: SEARCH has travelled HOME_RANGE (R305). -/
def execHomingRangeFail (n : Ma) (t : Nat) (s : State) : Ans :=
  s.act t fun s =>
    let u := s.ma[n].m
    let m := s.now / 8
    if u.home = .search ∧ u.found = false ∧ u.going = true ∧ (s.maR n Reg.HOME_RANGE).toNat * 65536 ≤ (u.accAt m - u.hstart).natAbs then
      s.maFault n 5 (m + 1)
    else s
/-- LIM_CLR. -/
def execLimClr (org : Origin) (n : Ma) (val : Word) (t : Nat) (s : State) : Ans := s.actWrite t org (maReg n Reg.LIM_CLR) val 0
/-- MCMD_RECORD: the record at the head of an axis's command ring, 32 bytes. -/
def execMcmdRecord (n : Ma) (bytes : List Byte) (t : Nat) (s : State) : Ans := s.act t fun s => s.mcmdTake n bytes

/-! Encoders, probes and compare units. -/

/-- ENC_FRAME: whether the encoder was ready at motion clock 0, and the bits of its frame, the first bit the highest. -/
def execEncFrame (n : Ma) (ready : Bool) (bits t : Nat) (s : State) : Ans := s.act t fun s => s.encFrame n ready bits
/-- ENC_FAULT: ENC_ERR_STOKES invalid stokes, not yet announced (R316). -/
def execEncFault (n : Ma) (t : Nat) (s : State) : Ans :=
  s.act t fun s =>
    let k := s.maF n Reg.ENC_ERR_STOKES 0 8
    if k ≠ 0 ∧ k ≤ (s.ma[n].e).invalid ∧ (s.ma[n].m).all.testBit 6 = false then s.maFault n 7 (s.now / 8 + 1) else s
/-- QUADRATURE_EDGE: the new levels of filtered A and B. -/
def execQuadratureEdge (n : Ma) (a b : Bool) (t : Nat) (s : State) : Ans := s.act t fun s => s.quadEdge n a b
/-- INDEX_EVENT: a rising edge of filtered Z. -/
def execIndexEvent (n : Ma) (t : Nat) (s : State) : Ans := s.act t fun s => s.indexEvent n
/-- IDX_ARM. -/
def execIdxArm (org : Origin) (n : Ma) (t : Nat) (s : State) : Ans := s.actWrite t org (maReg n Reg.IDX_CTRL) 1#32 0
/-- PROBE_TRIGGER: a filtered edge of probe input u to a level; a contact for blades that name the unit (R320, R347). -/
def execProbeTrigger (u : Fin 4) (level : Bool) (t : Nat) (s : State) : Ans :=
  s.act t fun s => let r := s.prbEdge u level; if r.2 then r.1.bladeContact u else r.1
/-- PRB_REARM: of probe unit u. -/
def execPrbRearm (org : Origin) (u : Fin 4) (t : Nat) (s : State) : Ans := s.actWrite t org (prbReg Reg.PRB_CTRL) (toW (2 ^ u.val)) 0
/-- CMP_ARM. -/
def execCmpArm (org : Origin) (n : Ma) (t : Nat) (s : State) : Ans := s.actWrite t org (maReg n Reg.CMP_CTRL) 1#32 0
/-- CMP_DISARM. -/
def execCmpDisarm (org : Origin) (n : Ma) (t : Nat) (s : State) : Ans := s.actWrite t org (maReg n Reg.CMP_CTRL) 2#32 0
/-- CMP_HIT: crossings of the accumulator up to the instant fire (R325); those of the feedback fire as it moves. -/
def execCmpHit (n : Ma) (t : Nat) (s : State) : Ans := s.act t fun s => s.cmpRun n (s.now / 8)
/-- CMP_PULSE_END: a pulse whose clocks have passed ends. -/
def execCmpPulseEnd (n : Ma) (t : Nat) (s : State) : Ans :=
  s.act t fun s => if (s.ma[n].c).until_ ≤ (s.now / 8 : Nat) then s.modCmp n fun c => { c with until_ := -1000000 } else s
/-- FWD_CLOCK_EDGE. -/
def execFwdClockEdge (n : Ma) (rise : Bool) (t : Nat) (s : State) : Ans := s.act t fun s => s.fwdEdge n rise
/-- FWD_MONO_EXPIRE. -/
def execFwdMonoExpire (n : Ma) (t : Nat) (s : State) : Ans := s.act t fun s => s.fwdMono n

end Sys2Proof.Machine
end

