-- ==== Sys2Proof/Machine/PowerCmd.lean ====
section
/-! DEFINITION. Commands of power, reset, boot, fuses, the damper and the TAP (R422, R429–R443). -/

namespace Sys2Proof.Machine
open Sys2Proof

/-- POWER_UP. -/
def execPowerUp (s : State) : Ans := .next s.powerUp
/-- MAIN_POWER_LOSS. -/
def execMainPowerLoss (s : State) : Ans := .next s.powerLoss
/-- RST_N: the pin's level, with the straps as they stand. -/
def execRstN (high : Bool) (straps : Straps) (s : State) : Ans := .next (s.rstN high straps)
/-- RAIL_RESET: by a rail's monitor. -/
def execRailReset (m : Fin 12) (s : State) : Ans := .next (s.railReset m)
/-- RAIL_RESET_RELEASE: with the straps as they stand. -/
def execRailResetRelease (m : Fin 12) (straps : Straps) (s : State) : Ans := .next (s.railRelease m straps)
/-- BOOT_ROM_DONE: whether the self-check passed. -/
def execBootRomDone (ok : Bool) (t : Nat) (s : State) : Ans := s.act t fun s => s.romDone ok
/-- BOOT_SRAM_DONE: BAR2 offsets of the words whose read-back failed. -/
def execBootSramDone (bad : List Nat) (t : Nat) (s : State) : Ans := s.act t fun s => s.sramDone bad
/-- BOOT_FETCH_DONE: the image, or a read error. -/
def execBootFetchDone (data : Option (List Byte)) (t : Nat) (s : State) : Ans := s.act t fun s => s.fetchDone data
/-- BOOT_VERIFY_DONE. -/
def execBootVerifyDone (t : Nat) (s : State) : Ans := s.act t State.verifyDone
/-- BOOT_APPLY_DONE; `aux` is the DEV_IDX of index blocks that CONFIG pairs read. -/
def execBootApplyDone (aux t : Nat) (s : State) : Ans := s.act t fun s => s.applyDone aux
/-- BOOT_GO. -/
def execBootGo (org : Origin) (t : Nat) (s : State) : Ans := s.actWrite t org Reg.BOOT_CTRL 1#32 0
/-- KEY_PROGRAM. -/
def execKeyProgram (org : Origin) (k : Fin 4) (t : Nat) (s : State) : Ans := s.actWrite t org Reg.KEY_CTRL (toW (k.val + 256)) 0
/-- KEY_REVOKE. -/
def execKeyRevoke (org : Origin) (k : Fin 4) (t : Nat) (s : State) : Ans := s.actWrite t org Reg.KEY_CTRL (toW (k.val + 512)) 0
/-- SET_SECURE. -/
def execSetSecure (org : Origin) (t : Nat) (s : State) : Ans := s.actWrite t org Reg.KEY_CTRL 0x10000#32 0
/-- FUSE_WRITE_DONE. -/
def execFuseWriteDone (t : Nat) (s : State) : Ans := s.act t State.fuseDone

/-- DAMPER_N: the pin falls, or rises. -/
def execDamperN (low : Bool) (t : Nat) (s : State) : Ans :=
  s.actAlways t fun s =>
    if low then (if s.damper.pinLow then s else s.damperEngage true) else { s with damper := { s.damper with pinLow := false } }
/-- DMP_ENGAGE. -/
def execDmpEngage (org : Origin) (t : Nat) (s : State) : Ans := s.actWrite t org (dbgReg Reg.DMP_CTRL) 1#32 0
/-- DMP_RELEASE. -/
def execDmpRelease (org : Origin) (t : Nat) (s : State) : Ans := s.actWrite t org (dbgReg Reg.DMP_CTRL) 2#32 0
/-- DAMPER_RELEASE: the clocks start again; the banked domain gives seconds and nanoseconds, and the frozen interval in ms. -/
def execDamperRelease (sec ns ms : Nat) (s : State) : Ans :=
  if s.boot.inReset || s.hk.shut then .next s else .next ((s.damperRestart sec ns ms).settle)

/-- IDCODE. -/
def execIdcode (s : State) : Ans := .next (s.tapOut 1 s.idcode)
/-- BYPASS: the register captures 0. -/
def execBypass (s : State) : Ans := .next (s.tapOut 0xFF 0)
/-- FRZ_ADDR: a space and an address. -/
def execFrzAddr (space : Fin 4) (a : Word) (s : State) : Ans := .next (s.frzAddr space a)
/-- FRZ_DATA. -/
def execFrzData (s : State) : Ans := .next s.frzData
/-- FRZ_ENGAGE: through the TAP. -/
def execFrzEngage (t : Nat) (s : State) : Ans := s.actAlways t fun s => ({ s with damper := { s.damper with ir := 0x12 } }).dmpCtrl 1#32
/-- FRZ_RELEASE: through the TAP. -/
def execFrzRelease (t : Nat) (s : State) : Ans := s.actAlways t fun s => ({ s with damper := { s.damper with ir := 0x12 } }).dmpCtrl 2#32

end Sys2Proof.Machine
end

