-- ==== Sys2Proof/Machine/Query.lean ====
section
/-! DEFINITION. The queries of the ember map and of the draught guard (R82–R84). -/

namespace Sys2Proof.Machine
open Sys2Proof

/-- EMQ (R82, R84). -/
def execEmq (c : Ch) (d a b : Reg) (diff : Bool) (s : State) : Ans :=
  .next (s.tuikin c [a, b, d] false false fun u e =>
    if u.entry = .fault ∨ 8 ≤ u.emqs then .trap 0x08
    else if diff then .differ 4
    else .go 24 (fun s =>
      let r := s.emQuery (u.r a).toInt (u.r b).toInt
      r.2.modEng e fun u => { (u.put d r.1.1).setFlg ⟨r.1.2.1, false, false, r.1.2.2⟩ with emqs := u.emqs + 1 }) .seq)

/-- GDQ (R83, R84): the descriptor lies in the engine's DMEM. -/
def execGdq (c : Ch) (d a : Reg) (diff : Bool) (s : State) : Ans :=
  .next (s.tuikin c [a, d] false false fun u e =>
    let x := (u.r a).toNat
    let p := s.dmemOf c + x
    if u.entry = .fault ∨ 8 ≤ u.gdqs then .trap 0x08
    else if x % 4 ≠ 0 ∨ 0xFFE0 < x then .trap 0x02
    else match ((List.range 8).map fun i => p + 4 * i).find? s.isBad with
      | some q => .ue q
      | none =>
        if diff then .differ 4
        else
          let r := s.gdQuery c ((List.range 8).map fun i => s.word (p + 4 * i))
          let w := match r with
            | some n => toW n
            | none => 0xFFFFFFFF#32
          .go 12 (fun s => s.modEng e fun u =>
            { (u.put d w).setFlg ⟨r == some 0, false, r.isNone, false⟩ with gdqs := u.gdqs + 1 }) .seq)

end Sys2Proof.Machine
end

