-- ==== Sys2Proof/Machine/SafeCmd.lean ====
section
/-! DEFINITION. Commands of the safety and service ports and of housekeeping (R399–R428). -/

namespace Sys2Proof.Machine
open Sys2Proof

/-- INHIBIT: channels of the mask; `crc`: the transaction's CRC and clock count are good. -/
def execInhibit (mask : BitVec 24) (crc : Bool) (t : Nat) (s : State) : Ans := s.act t fun s => s.safeTrans crc fun s => (s.safeInhibit mask.toNat, SafeAns.done)
/-- PCAP: a cap for a channel. -/
def execPcap (c : BitVec 8) (cap : BitVec 16) (crc : Bool) (t : Nat) (s : State) : Ans :=
  s.act t fun s => s.safeTrans crc fun s => s.safePcap c.toNat cap.toNat
/-- MSTOP: axes of the mask, by a ramp or a hard stop. -/
def execMstop (mask : BitVec 8) (hard : Bool) (crc : Bool) (t : Nat) (s : State) : Ans :=
  s.act t fun s => s.safeTrans crc fun s => (s.safeStop mask.toNat hard, SafeAns.done)
/-- LIFT: holds of a kind. -/
def execLift (kind : BitVec 8) (mask : BitVec 24) (crc : Bool) (t : Nat) (s : State) : Ans :=
  s.act t fun s => s.safeTrans crc fun s => s.safeLiftCmd kind.toNat mask.toNat
/-- SAFE_READ. -/
def execSafeRead (what : BitVec 8) (crc : Bool) (t : Nat) (s : State) : Ans := s.act t fun s => s.safeTrans crc fun s => s.safeRead what.toNat
/-- PING; `unknown`: the transaction's command is none of R400's. -/
def execPing (unknown crc : Bool) (t : Nat) (s : State) : Ans :=
  s.act t fun s => s.safeTrans crc fun s => (s, if unknown then ⟨3, none⟩ else SafeAns.done)
/-- SAFE_WATCHDOG. -/
def execSafeWatchdog (t : Nat) (s : State) : Ans := s.act t State.safeWatchdog

/-- SVC_READ. -/
def execSvcRead (addr t : Nat) (s : State) : Ans := s.act t fun s => s.svcRead addr
/-- SVC_WRITE. -/
def execSvcWrite (addr : Nat) (val : Word) (aux t : Nat) (s : State) : Ans := s.act t fun s => s.svcWrite addr val aux
/-- SVC_CHALLENGE. -/
def execSvcChallenge (t : Nat) (s : State) : Ans := s.act t State.svcChallenge
/-- SVC_RESPONSE: a signature, 64 bytes. -/
def execSvcResponse (sig : List Byte) (t : Nat) (s : State) : Ans := s.act t fun s => s.svcResponse sig
/-- SVC_LOCK. -/
def execSvcLock (org : Origin) (t : Nat) (s : State) : Ans := s.actWrite t org (accReg Reg.SVC_CTRL) 1#32 0
/-- SVC_IDLE_TIMEOUT. -/
def execSvcIdleTimeout (t : Nat) (s : State) : Ans := s.act t State.svcIdle
/-- SVC_LOCKOUT_END. -/
def execSvcLockoutEnd (t : Nat) (s : State) : Ans := s.act t State.svcLockoutEnd

/-- Too few die sensors are valid (R420). -/
def State.dieLost (s : State) : Bool := decide (s.dieValid < 3)
/-- HK_ROUND_END: temperatures of the 22 inputs in 1/64 °C with their fault codes, and the 12 rails: mean and lowest sample in mV,
and whether the rail ends the round below its warning level. While the stoke runs a round ends with every 512th stoke (R412). -/
def execHkRoundEnd (temps : List (Int × Nat)) (rails : List (Nat × Nat × Bool)) (t : Nat) (s : State) : Ans :=
  s.edge t fun s =>
    if s.time.running && s.time.cnt % 512 != 511 then s
    else
      let s := s.hkEval temps rails
      let s := all4.foldl (fun (s : State) (c : Fin 4) => s.illCeil c) s
      let s := s.atOnce State.lanesThrottle
      let s : State := if 1 ≤ s.hk.level then s.atOnce State.traceThrottle else s
      if s.dieLost then s.shutdown true else s
/-- HK_OVERRIDE_RELEASE. -/
def execHkOverrideRelease (org : Origin) (t : Nat) (s : State) : Ans := s.actWrite t org (hkReg Reg.HK_OVERRIDE) 1#32 0
/-- DIP_GATE_WRITE. -/
def execDipGateWrite (org : Origin) (val : Word) (t : Nat) (s : State) : Ans := s.actWrite t org (hkReg Reg.DIP_GATE_STOKES) val 0
/-- THERMAL_SHUTDOWN: a comparator trips, or die sensors are lost. -/
def execThermalShutdown (lost : Bool) (t : Nat) (s : State) : Ans :=
  if lost && !s.dieLost then .next s else .next ((if s.halted then s else s.advance t).shutdown lost)
/-- SHUTDOWN_RESTART: two seconds have passed below 90 °C (R421). -/
def execShutdownRestart (s : State) : Ans := .next s.shutdownRestart
/-- SUPPLY_DIP: a rail falls below its warning level, or recovers from there; `mv` is the lowest value seen. VBANK that recovers is low no more. -/
def execSupplyDip (m : Fin 12) (ends : Bool) (mv t : Nat) (s : State) : Ans :=
  s.act t fun s =>
    if ends then
      let s := s.dipEnd m mv
      if m.val = 11 then { s with bank := { s.bank with low := false } } else s
    else s.dipBegin m mv
/-- VBANK_LOW (R426). -/
def execVbankLow (t : Nat) (s : State) : Ans :=
  s.actAlways t fun s =>
    let old := s.bankStatus
    let s : State := { s with bank := { s.bank with low := true } }
    if s.halted then s else s.logEvent 0xC2 11 2 old s.bankStatus
/-- BANK_CONTENTS_LOST: VBANK has fallen below 1.5 V. -/
def execBankContentsLost (s : State) : Ans := .next { s with bank := { s.bank with lostNow := true } }

end Sys2Proof.Machine
end

