-- ==== Sys2Proof/Machine/ServoCmd.lean ====
section
/-! DEFINITION. Commands of the servo, the laser port, the loop and the trace (R134–R197). -/

namespace Sys2Proof.Machine
open Sys2Proof

/-- SERVO_FAULT: a count has reached its limit (R151). While the stoke runs the axis freezes at the boundary alone, once the servo has
computed the stoke (R146). -/
def execServoFault (c : Ch) (a : Ax) (t : Nat) (s : State) : Ans := s.early t fun s => s.servoFault c a
/-- SV_CTRL_WRITE. -/
def execSvCtrlWrite (org : Origin) (c : Ch) (val : Word) (t : Nat) (s : State) : Ans := s.actWrite t org (chReg c Reg.SV_CTRL) val 0
/-- SV_CLEAR. -/
def execSvClear (org : Origin) (c : Ch) (t : Nat) (s : State) : Ans := s.actWrite t org (chReg c Reg.SV_CLEAR) 1#32 0
/-- PARAM_APPLY. -/
def execParamApply (org : Origin) (c : Ch) (a : Ax) (t : Nat) (s : State) : Ans := s.actWrite t org (axReg c a Reg.SV_PARAM_APPLY) 1#32 0
/-- TRIM_TGT_WRITE: target i of DX, DY, ROT and SCALE. -/
def execTrimTgtWrite (org : Origin) (c : Ch) (k : Fin 4) (val : Word) (t : Nat) (s : State) : Ans :=
  s.actWrite t org (chReg c (Reg.TRIM_DX_TGT + 4 * k.val)) val 0
/-- PD_TGT_WRITE: offset, or gain, of an axis's detector. -/
def execPdTgtWrite (org : Origin) (c : Ch) (a : Ax) (gain : Bool) (val : Word) (t : Nat) (s : State) : Ans :=
  s.actWrite t org (axReg c a (if gain then Reg.SV_PD_GAIN_TGT else Reg.SV_PD_OFFSET_TGT)) val 0
/-- Ramps at their N-th stoke stand at their target (R149). -/
def State.rampEnds (s : State) (c : Ch) : State :=
  let v := s.sv[c]
  let s : State := if v.n ≤ v.m then
      s.modSv c fun v => { v with dx := RampQ.at_ v.dx.target, dy := RampQ.at_ v.dy.target, rot := RampQ.at_ v.rot.target, scale := RampQ.at_ v.scale.target }
    else s
  all3.foldl (fun (s : State) (a : Ax) => s.modAx c a fun x =>
    if x.pdN ≤ x.pdM then { x with pdOff := RampQ.at_ x.pdOff.target, pdGain := RampQ.at_ x.pdGain.target } else x) s
/-- TRIM_RAMP_END: the applied value of a ramp at its end is its target. -/
def execTrimRampEnd (c : Ch) (t : Nat) (s : State) : Ans := s.act t fun s => s.rampEnds c
/-- GRID_LOAD_XY. -/
def execGridLoadXy (org : Origin) (c : Ch) (t : Nat) (s : State) : Ans := s.actWrite t org (chReg c Reg.GRID_CTRL) 1#32 0
/-- GRID_LOAD_F. -/
def execGridLoadF (org : Origin) (c : Ch) (t : Nat) (s : State) : Ans := s.actWrite t org (chReg c Reg.GRID_CTRL) 2#32 0
/-- GRID_LOAD_DONE: the block of a channel's load has been read, or the host read failed. -/
def execGridLoadDone (c : Ch) (block : Option (List Byte)) (t : Nat) (s : State) : Ans :=
  s.act t fun s => (s.gridDone c block).atOnce fun s => s.gridSwap c
/-- GRID_SWAP. While the stoke runs the boundary makes the exchange, once the servo has computed the stoke with the grids that were active
in it (R138, R153). -/
def execGridSwap (c : Ch) (t : Nat) (s : State) : Ans := s.early t fun s => s.gridSwap c
/-- GRID_ABORT. -/
def execGridAbort (org : Origin) (c : Ch) (t : Nat) (s : State) : Ans := s.actWrite t org (chReg c Reg.GRID_CTRL) 4#32 0

/-! The laser port. -/

/-- Before RUN a trip that has acted on the pins reaches the state at once (R32). -/
def State.tripNow (s : State) (c : Ch) : State :=
  s.atOnce fun s => if s.las[c].tripDue = 0 then s else s.lasTrip c s.las[c].tripDue
/-- LAS_ARM. -/
def execLasArm (org : Origin) (c : Ch) (t : Nat) (s : State) : Ans := s.actWrite t org (chReg c Reg.LAS_CTRL) 1#32 0
/-- LAS_DISARM. -/
def execLasDisarm (org : Origin) (c : Ch) (t : Nat) (s : State) : Ans := s.actWrite t org (chReg c Reg.LAS_CTRL) 2#32 0
/-- READY_ACTIVE: the pin has been active for a number of motion clocks (R164, R167). -/
def execReadyActive (c : Ch) (clocks t : Nat) (s : State) : Ans :=
  s.act t fun s => if s.lasFilter c clocks then (s.lasReady c true).atOnce fun s => s.lasArmStep c else s
/-- READY_TIMEOUT: at the end of the stoke, as every transition of the arm state (R164). -/
def execReadyTimeout (c : Ch) (t : Nat) (s : State) : Ans := s.atLast t fun s => s.readyTimeout c
/-- ALARM: the pin has had a level for a number of motion clocks. -/
def execAlarm (c : Ch) (active : Bool) (clocks t : Nat) (s : State) : Ans :=
  s.act t fun s => if s.lasFilter c clocks then (s.lasAlarm c active).tripNow c else s
/-- READY_LOST: the pin has been inactive for a number of motion clocks. -/
def execReadyLost (c : Ch) (clocks t : Nat) (s : State) : Ans :=
  s.act t fun s => if s.lasFilter c clocks then (s.lasReady c false).tripNow c else s
/-- GATE_EDGE: the edges scheduled up to an instant play (R161). -/
def execGateEdge (c : Ch) (t : Nat) (s : State) : Ans := s.act t fun s => s.gatePlay c (s.now + 1)
/-- MON_DEVIATION. -/
def execMonDeviation (c : Ch) (t : Nat) (s : State) : Ans := s.act t fun s => s.monDeviate c
/-- LSAFE_ASSERT: input A, or B. Before RUN the trip reaches every port at once. -/
def execLsafeAssert (b : Bool) (t : Nat) (s : State) : Ans :=
  if s.halted then .next (s.lsafePin b true)
  else s.act t fun s => (s.lsafeAssert b).atOnce fun s => if s.lsafe.tripDue then (s.forCh fun s c => s.lasTrip c 6).lsafeTripped else s
/-- LSAFE_RELEASE: input A, or B. -/
def execLsafeRelease (b : Bool) (t : Nat) (s : State) : Ans :=
  if s.halted then .next (s.lsafePin b false) else s.act t fun s => s.lsafeRelease b
/-- LSAFE_DISC. -/
def execLsafeDisc (t : Nat) (s : State) : Ans := s.act t State.lsafeDisc
/-- LSAFE_CLR. -/
def execLsafeClr (org : Origin) (t : Nat) (s : State) : Ans := s.actWrite t org Reg.LSAFE_CLR 1#32 0

/-! The loop. -/

/-- LOOP_MODE: a mode, with FORCE. -/
def execLoopMode (org : Origin) (c : Ch) (mode : Fin 4) (force : Bool) (t : Nat) (s : State) : Ans :=
  s.actWrite t org (chReg c Reg.LOOP_MODE) (toW (mode.val + bitAt force 8)) 0
/-- LOSS_REVERT. -/
def execLossRevert (c : Ch) (t : Nat) (s : State) : Ans :=
  s.edge t fun s => if s.loop[c].dueLost then (s.modLoop c fun l => { l with dueLost := false }).loopLost c else s
/-- FREEZE_REVERT. -/
def execFreezeRevert (c : Ch) (t : Nat) (s : State) : Ans :=
  s.edge t fun s => if s.loop[c].dueFrozen then (s.modLoop c fun l => { l with dueFrozen := false }).loopFrozen c else s
/-- CAM_AGE_DROP. -/
def execCamAgeDrop (c : Ch) (t : Nat) (s : State) : Ans :=
  s.edge t fun s => if s.loop[c].dueAged then (s.modLoop c fun l => { l with dueAged := false }).loopAged c else s
/-- SHAPE_RETURN. -/
def execShapeReturn (c : Ch) (t : Nat) (s : State) : Ans :=
  s.edge t fun s =>
    let l := s.loop[c]
    if l.autoDue && l.mode == .track && l.camAge == 0 && bit (s.creg c Reg.LOOP_CFG) 3 then s.shapeReturn c else s
/-- BLEND_END: no offset is left once the blend has reached m = N; what remained of it is dropped (R186). -/
def execBlendEnd (c : Ch) (t : Nat) (s : State) : Ans :=
  s.act t fun s => s.modLoop c fun l => if l.blendLeft = 0 then { l with blendD := 0#32, blendN := 0 } else l
/-- COEF_WRITE: the coefficient at an offset of the channel's block (R192). Another offset is no coefficient, and nothing is written. -/
def execCoefWrite (org : Origin) (c : Ch) (off : Nat) (val : Word) (t : Nat) (s : State) : Ans :=
  if isCoef off then s.actWrite t org (chReg c off) val 0 else .next s
/-- LOOP_TRIM_WRITE. -/
def execLoopTrimWrite (org : Origin) (c : Ch) (val : Word) (t : Nat) (s : State) : Ans := s.actWrite t org (chReg c Reg.LOOP_TRIM) val 0

/-! The trace. -/

/-- TRACE_ARM. -/
def execTraceArm (org : Origin) (c : Ch) (t : Nat) (s : State) : Ans := s.actWrite t org (chReg c Reg.TRACE_CTRL) 1#32 0
/-- TRACE_TRIG: the host's trigger. -/
def execTraceTrig (org : Origin) (c : Ch) (t : Nat) (s : State) : Ans := s.actWrite t org (chReg c Reg.TRACE_CTRL) 2#32 0
/-- TRACE_ABORT. -/
def execTraceAbort (org : Origin) (c : Ch) (t : Nat) (s : State) : Ans := s.actWrite t org (chReg c Reg.TRACE_CTRL) 4#32 0
/-- TRACE_DONE: the last record after the trigger has been stored. -/
def execTraceDone (c : Ch) (t : Nat) (s : State) : Ans :=
  s.act t fun s =>
    let u := s.trace[c]
    if u.st = .post ∧ u.trigDue = false ∧ u.postLeft = 0 then (s.modTrace c fun u => { u with st := .idle, done := true }).chCause c 3 else s

end Sys2Proof.Machine
end

