-- ==== Sys2Proof/Machine/SharedCmd.lean ====
section
/-! DEFINITION. Commands of the ember map, the guard and the SRAM's scrubber (R19–R21, R201–R221). -/

namespace Sys2Proof.Machine
open Sys2Proof

/-- LATE_DEPOSIT: deposits of a late frame are applied at the first boundary after it came (R208): those of gang frames that lie
two stokes or more before the stoke that ends. -/
def execLateDeposit (t : Nat) (s : State) : Ans :=
  s.edge t fun s =>
    let late (d : Deposit) : Bool := decide (d.m + 1 < s.time.cnt)
    let rest := s.em.due.filter fun d => !late d
    let s' := ({ s with em := { s.em with due := s.em.due.filter late } }).emApplyDue
    { s' with em := { s'.em with due := rest } }
/-- EM_FRAME_LOST: a member's frames that have been missing for 64 stokes (R208). -/
def execEmFrameLost (d : Fin 4) (t : Nat) (s : State) : Ans := s.edge t fun s => s.frameLost s.time.cnt d
/-- EM_CFG_WRITE. -/
def execEmCfgWrite (org : Origin) (val : Word) (t : Nat) (s : State) : Ans := s.actWrite t org (emReg Reg.EM_CFG) val 0
/-- EM_CLEAR. -/
def execEmClear (org : Origin) (t : Nat) (s : State) : Ans := s.actWrite t org (emReg Reg.EM_CTRL) 1#32 0
/-- EM_CLEAR_DONE. -/
def execEmClearDone (t : Nat) (s : State) : Ans := s.act t State.emClearDone

/-- An uncorrectable word of a reserve's memories makes the reserve unhealthy, at the next boundary while the stoke runs (R19, R281). -/
def State.reserveUe (s : State) (a : Nat) : State :=
  all4.foldl (fun (s : State) (k : Cl) =>
    let b := imemBase (resEng k) false
    if b ≤ a ∧ a < b + 0x20000 then (s.modCl k fun u => { u with ueDue := true }).atOnce fun s => s.clReserve k else s) s

/-- The scrubber meets the word at a BAR2 offset from READY on (R21, R440): it is good, correctable or uncorrectable; a good word
of the ember map may be rewritten (R201). -/
def State.scrub (s : State) (a : Nat) (corr ue : Bool) : State :=
  let a := a / 4 * 4
  if s.boot.stage ≠ .ready ∨ 0x3000000 ≤ a then s
  else if ue || s.isBad a then
    (({ s with bad := if s.bad.contains a then s.bad else a :: s.bad }).countUe a).reserveUe a
  else
    let s : State := if corr then s.bump (dbgReg (Reg.MEM_CE_CNT + 4 * regionOf a)) else s
    if a < 0x1000000 then s.emScrub a else s
/-- SCRUB. -/
def execScrub (a : Nat) (corr ue : Bool) (t : Nat) (s : State) : Ans := s.act t fun s => s.scrub a corr ue
/-- TRAIL_REMOVE. -/
def execTrailRemove (t : Nat) (s : State) : Ans := s.edge t fun s => s.trailRemove s.time.cnt
/-- PLAN_EXPIRE. -/
def execPlanExpire (t : Nat) (s : State) : Ans := s.edge t fun s => s.planExpire s.time.cnt

end Sys2Proof.Machine
end

