-- ==== Sys2Proof/Machine/TimeCmd.lean ====
section
/-! DEFINITION. Commands of time and the gang (R26–R49). -/

namespace Sys2Proof.Machine
open Sys2Proof

/-- STOKE_RUN: STOKE_CTRL.RUN is written. -/
def execStokeRun (org : Origin) (t : Nat) (s : State) : Ans := s.actWrite t org (stkReg Reg.STOKE_CTRL) 1#32 0
/-- STOKE_CFG_WRITE. -/
def execStokeCfgWrite (org : Origin) (val : Word) (t : Nat) (s : State) : Ans := s.actWrite t org (stkReg Reg.STOKE_CFG) val 0
/-- PPS_ARM: PPS_CTRL.ARM is written, with AUTO_REARM beside it. -/
def execPpsArm (org : Origin) (auto : Bool) (t : Nat) (s : State) : Ans :=
  s.actWrite t org (stkReg Reg.PPS_CTRL) (toW (1 + bitAt auto 1)) 0
/-- PPS_PULSE. -/
def execPpsPulse (t : Nat) (s : State) : Ans := s.act t State.ppsPulse
/-- PPS_HOLDOVER: 1.5 s have passed (R43). -/
def execPpsHoldover (t : Nat) (s : State) : Ans := s.act t State.ppsHoldover
/-- STOKE_STAMP: a stamp arrives on port p, `arr` after the own boundary in units of 100 ps, and is passed on (R46, R382). -/
def execStokeStamp (p : Fin 2) (cnt sec ns rate arr t : Nat) (s : State) : Ans :=
  s.act t fun s => (s.stampPass p cnt sec ns rate).stokeStamp p cnt sec ns rate arr
/-- GANG_ALIGN_STEP. -/
def execGangAlignStep (t : Nat) (s : State) : Ans :=
  s.atLast t fun s => s.alignStep s.stokeCyc
/-- GANG_LOCK. -/
def execGangLock (t : Nat) (s : State) : Ans := s.edge t State.gangLock
/-- GANG_HOLDOVER. -/
def execGangHoldover (t : Nat) (s : State) : Ans := s.edge t State.gangHoldover

end Sys2Proof.Machine
end

