-- ==== Sys2Proof/Machine/Dispatch.lean ====
section
/-! DEFINITION. The dispatch: one arm per command, each one call of its meaning. -/

namespace Sys2Proof.Machine
open Sys2Proof

/-- The effect of a command on everything but the queue. -/
def exec (i : Instr) (s : State) : Host.Outcome State Fault Refusal :=
  match i with
  | .stokeBoundary inp => Sys2Proof.Machine.execStokeBoundary inp s
  | .faultEntryOverrun c t => Sys2Proof.Machine.execFaultEntryOverrun c t s
  | .budgetOverrun c t => Sys2Proof.Machine.execBudgetOverrun c t s
  | .doubleOverrun c t => Sys2Proof.Machine.execDoubleOverrun c t s
  | .stokeRun org t => Sys2Proof.Machine.execStokeRun org t s
  | .stokeCfgWrite org val t => Sys2Proof.Machine.execStokeCfgWrite org val t s
  | .ppsArm org auto t => Sys2Proof.Machine.execPpsArm org auto t s
  | .ppsPulse t => Sys2Proof.Machine.execPpsPulse t s
  | .ppsHoldover t => Sys2Proof.Machine.execPpsHoldover t s
  | .stokeStamp p cnt sec ns rate arr t => Sys2Proof.Machine.execStokeStamp p cnt sec ns rate arr t s
  | .gangAlignStep t => Sys2Proof.Machine.execGangAlignStep t s
  | .gangLock t => Sys2Proof.Machine.execGangLock t s
  | .gangHoldover t => Sys2Proof.Machine.execGangHoldover t s
  | .add c d a b => Sys2Proof.Machine.execAdd c d a b s
  | .sub c d a b => Sys2Proof.Machine.execSub c d a b s
  | .and c d a b => Sys2Proof.Machine.execAnd c d a b s
  | .or c d a b => Sys2Proof.Machine.execOr c d a b s
  | .xor c d a b => Sys2Proof.Machine.execXor c d a b s
  | .andn c d a b => Sys2Proof.Machine.execAndn c d a b s
  | .shl c d a b => Sys2Proof.Machine.execShl c d a b s
  | .shr c d a b => Sys2Proof.Machine.execShr c d a b s
  | .sar c d a b => Sys2Proof.Machine.execSar c d a b s
  | .ror c d a b => Sys2Proof.Machine.execRor c d a b s
  | .min c d a b => Sys2Proof.Machine.execMin c d a b s
  | .max c d a b => Sys2Proof.Machine.execMax c d a b s
  | .minu c d a b => Sys2Proof.Machine.execMinu c d a b s
  | .maxu c d a b => Sys2Proof.Machine.execMaxu c d a b s
  | .slt c d a b => Sys2Proof.Machine.execSlt c d a b s
  | .sltu c d a b => Sys2Proof.Machine.execSltu c d a b s
  | .adds c d a b => Sys2Proof.Machine.execAdds c d a b s
  | .subs c d a b => Sys2Proof.Machine.execSubs c d a b s
  | .abs c d a => Sys2Proof.Machine.execAbs c d a s
  | .clz c d a => Sys2Proof.Machine.execClz c d a s
  | .sel c d a b cond => Sys2Proof.Machine.execSel c d a b cond s
  | .cmp c a b => Sys2Proof.Machine.execCmp c a b s
  | .tst c a b => Sys2Proof.Machine.execTst c a b s
  | .mul c d a b => Sys2Proof.Machine.execMul c d a b s
  | .mulh c d a b => Sys2Proof.Machine.execMulh c d a b s
  | .mulhu c d a b => Sys2Proof.Machine.execMulhu c d a b s
  | .qmul c d a b sh => Sys2Proof.Machine.execQmul c d a b sh s
  | .mac c d a b => Sys2Proof.Machine.execMac c d a b s
  | .qmac c d a b sh => Sys2Proof.Machine.execQmac c d a b sh s
  | .div c d a b => Sys2Proof.Machine.execDiv c d a b s
  | .divu c d a b => Sys2Proof.Machine.execDivu c d a b s
  | .rem c d a b => Sys2Proof.Machine.execRem c d a b s
  | .remu c d a b => Sys2Proof.Machine.execRemu c d a b s
  | .qdiv c d a b sh => Sys2Proof.Machine.execQdiv c d a b sh s
  | .addi c d a imm => Sys2Proof.Machine.execAddi c d a imm s
  | .andi c d a imm => Sys2Proof.Machine.execAndi c d a imm s
  | .ori c d a imm => Sys2Proof.Machine.execOri c d a imm s
  | .xori c d a imm => Sys2Proof.Machine.execXori c d a imm s
  | .lui c d imm => Sys2Proof.Machine.execLui c d imm s
  | .shi c d a k n => Sys2Proof.Machine.execShi c d a k n s
  | .cmpi c a imm => Sys2Proof.Machine.execCmpi c a imm s
  | .extu c d a pos len1 => Sys2Proof.Machine.execExtu c d a pos len1 s
  | .exts c d a pos len1 => Sys2Proof.Machine.execExts c d a pos len1 s
  | .ins c d a pos len1 => Sys2Proof.Machine.execIns c d a pos len1 s
  | .fadd c d a b => Sys2Proof.Machine.execFadd c d a b s
  | .fsub c d a b => Sys2Proof.Machine.execFsub c d a b s
  | .fmul c d a b => Sys2Proof.Machine.execFmul c d a b s
  | .fmac c d a b => Sys2Proof.Machine.execFmac c d a b s
  | .fmin c d a b => Sys2Proof.Machine.execFmin c d a b s
  | .fmax c d a b => Sys2Proof.Machine.execFmax c d a b s
  | .fabs c d a => Sys2Proof.Machine.execFabs c d a s
  | .fneg c d a => Sys2Proof.Machine.execFneg c d a s
  | .fcmp c a b => Sys2Proof.Machine.execFcmp c a b s
  | .fdiv c d a b => Sys2Proof.Machine.execFdiv c d a b s
  | .fsqrt c d a => Sys2Proof.Machine.execFsqrt c d a s
  | .fcvtws c d a => Sys2Proof.Machine.execFcvtws c d a s
  | .fcvtsw c d a => Sys2Proof.Machine.execFcvtsw c d a s
  | .fcvtqs c d a sh => Sys2Proof.Machine.execFcvtqs c d a sh s
  | .fcvtsq c d a sh => Sys2Proof.Machine.execFcvtsq c d a sh s
  | .b c cond off => Sys2Proof.Machine.execB c cond off s
  | .j c target => Sys2Proof.Machine.execJ c target s
  | .call c target => Sys2Proof.Machine.execCall c target s
  | .ret c => Sys2Proof.Machine.execRet c s
  | .jt c a n => Sys2Proof.Machine.execJt c a n s
  | .loop c n b max => Sys2Proof.Machine.execLoop c n b max s
  | .endEntry c diff => Sys2Proof.Machine.execEndEntry c diff s
  | .ldw c d a imm => Sys2Proof.Machine.execLdw c d a imm s
  | .ldh c d a imm => Sys2Proof.Machine.execLdh c d a imm s
  | .ldhu c d a imm => Sys2Proof.Machine.execLdhu c d a imm s
  | .ldb c d a imm => Sys2Proof.Machine.execLdb c d a imm s
  | .ldbu c d a imm => Sys2Proof.Machine.execLdbu c d a imm s
  | .stw c d a imm diff => Sys2Proof.Machine.execStw c d a imm diff s
  | .sth c d a imm diff => Sys2Proof.Machine.execSth c d a imm diff s
  | .stb c d a imm diff => Sys2Proof.Machine.execStb c d a imm diff s
  | .prd c d a imm => Sys2Proof.Machine.execPrd c d a imm s
  | .pwr c d a imm diff => Sys2Proof.Machine.execPwr c d a imm diff s
  | .pop c d diff => Sys2Proof.Machine.execPop c d diff s
  | .lut c d a t m => Sys2Proof.Machine.execLut c d a t m s
  | .emq c d a b diff => Sys2Proof.Machine.execEmq c d a b diff s
  | .gdq c d a diff => Sys2Proof.Machine.execGdq c d a diff s
  | .mfs c d sel => Sys2Proof.Machine.execMfs c d sel s
  | .mts c a sel => Sys2Proof.Machine.execMts c a sel s
  | .engTrapClr org c t => Sys2Proof.Machine.execEngTrapClr org c t s
  | .layerCtrlReq org c t => Sys2Proof.Machine.execLayerCtrlReq org c t s
  | .faultClear org c t => Sys2Proof.Machine.execFaultClear org c t s
  | .faultResume org c t => Sys2Proof.Machine.execFaultResume org c t s
  | .progLoad org c t => Sys2Proof.Machine.execProgLoad org c t s
  | .loadDone data t => Sys2Proof.Machine.execLoadDone data t s
  | .progSwitch org c t => Sys2Proof.Machine.execProgSwitch org c t s
  | .progRun org c aux t => Sys2Proof.Machine.execProgRun org c aux t s
  | .progHalt org c t => Sys2Proof.Machine.execProgHalt org c t s
  | .lutSwap org c t => Sys2Proof.Machine.execLutSwap org c t s
  | .recordPrefetch c data t => Sys2Proof.Machine.execRecordPrefetch c data t s
  | .vecRestart org c aux t => Sys2Proof.Machine.execVecRestart org c aux t s
  | .barrierRelease c t => Sys2Proof.Machine.execBarrierRelease c t s
  | .barrierTimeout c t => Sys2Proof.Machine.execBarrierTimeout c t s
  | .servoFault c a t => Sys2Proof.Machine.execServoFault c a t s
  | .svCtrlWrite org c val t => Sys2Proof.Machine.execSvCtrlWrite org c val t s
  | .svClear org c t => Sys2Proof.Machine.execSvClear org c t s
  | .paramApply org c a t => Sys2Proof.Machine.execParamApply org c a t s
  | .trimTgtWrite org c k val t => Sys2Proof.Machine.execTrimTgtWrite org c k val t s
  | .pdTgtWrite org c a gain val t => Sys2Proof.Machine.execPdTgtWrite org c a gain val t s
  | .trimRampEnd c t => Sys2Proof.Machine.execTrimRampEnd c t s
  | .gridLoadXy org c t => Sys2Proof.Machine.execGridLoadXy org c t s
  | .gridLoadF org c t => Sys2Proof.Machine.execGridLoadF org c t s
  | .gridLoadDone c block t => Sys2Proof.Machine.execGridLoadDone c block t s
  | .gridSwap c t => Sys2Proof.Machine.execGridSwap c t s
  | .gridAbort org c t => Sys2Proof.Machine.execGridAbort org c t s
  | .lasArm org c t => Sys2Proof.Machine.execLasArm org c t s
  | .lasDisarm org c t => Sys2Proof.Machine.execLasDisarm org c t s
  | .readyActive c clocks t => Sys2Proof.Machine.execReadyActive c clocks t s
  | .readyTimeout c t => Sys2Proof.Machine.execReadyTimeout c t s
  | .alarm c active clocks t => Sys2Proof.Machine.execAlarm c active clocks t s
  | .readyLost c clocks t => Sys2Proof.Machine.execReadyLost c clocks t s
  | .gateEdge c t => Sys2Proof.Machine.execGateEdge c t s
  | .monDeviation c t => Sys2Proof.Machine.execMonDeviation c t s
  | .lsafeAssert b t => Sys2Proof.Machine.execLsafeAssert b t s
  | .lsafeRelease b t => Sys2Proof.Machine.execLsafeRelease b t s
  | .lsafeDisc t => Sys2Proof.Machine.execLsafeDisc t s
  | .lsafeClr org t => Sys2Proof.Machine.execLsafeClr org t s
  | .loopMode org c mode force t => Sys2Proof.Machine.execLoopMode org c mode force t s
  | .lossRevert c t => Sys2Proof.Machine.execLossRevert c t s
  | .freezeRevert c t => Sys2Proof.Machine.execFreezeRevert c t s
  | .camAgeDrop c t => Sys2Proof.Machine.execCamAgeDrop c t s
  | .shapeReturn c t => Sys2Proof.Machine.execShapeReturn c t s
  | .blendEnd c t => Sys2Proof.Machine.execBlendEnd c t s
  | .coefWrite org c off val t => Sys2Proof.Machine.execCoefWrite org c off val t s
  | .loopTrimWrite org c val t => Sys2Proof.Machine.execLoopTrimWrite org c val t s
  | .traceArm org c t => Sys2Proof.Machine.execTraceArm org c t s
  | .traceTrig org c t => Sys2Proof.Machine.execTraceTrig org c t s
  | .traceAbort org c t => Sys2Proof.Machine.execTraceAbort org c t s
  | .traceDone c t => Sys2Proof.Machine.execTraceDone c t s
  | .lateDeposit t => Sys2Proof.Machine.execLateDeposit t s
  | .emFrameLost d t => Sys2Proof.Machine.execEmFrameLost d t s
  | .emCfgWrite org val t => Sys2Proof.Machine.execEmCfgWrite org val t s
  | .emClear org t => Sys2Proof.Machine.execEmClear org t s
  | .emClearDone t => Sys2Proof.Machine.execEmClearDone t s
  | .scrub a corr ue t => Sys2Proof.Machine.execScrub a corr ue t s
  | .trailRemove t => Sys2Proof.Machine.execTrailRemove t s
  | .planExpire t => Sys2Proof.Machine.execPlanExpire t s
  | .camStart org m t => Sys2Proof.Machine.execCamStart org m t s
  | .camStop org m t => Sys2Proof.Machine.execCamStop org m t s
  | .camAbort org m t => Sys2Proof.Machine.execCamAbort org m t s
  | .camStopped m t => Sys2Proof.Machine.execCamStopped m t s
  | .camBindWrite org m val t => Sys2Proof.Machine.execCamBindWrite org m val t s
  | .camTrigReq org m t => Sys2Proof.Machine.execCamTrigReq org m t s
  | .triggerRequest m t => Sys2Proof.Machine.execTriggerRequest m t s
  | .exposureEnd m t => Sys2Proof.Machine.execExposureEnd m t s
  | .setMemberRise m t => Sys2Proof.Machine.execSetMemberRise m t s
  | .frameStart m t => Sys2Proof.Machine.execFrameStart m t s
  | .frameEnd m lines t => Sys2Proof.Machine.execFrameEnd m lines t s
  | .frameTimeout m lines t => Sys2Proof.Machine.execFrameTimeout m lines t s
  | .pulseMissed m t => Sys2Proof.Machine.execPulseMissed m t s
  | .statRecordComplete m t => Sys2Proof.Machine.execStatRecordComplete m t s
  | .archiveWrite r descs t => Sys2Proof.Machine.execArchiveWrite r descs t s
  | .camTrcArm org m t => Sys2Proof.Machine.execCamTrcArm org m t s
  | .camTrcTrig org m t => Sys2Proof.Machine.execCamTrcTrig org m t s
  | .camTrcAbort org m t => Sys2Proof.Machine.execCamTrcAbort org m t s
  | .estCfgWrite org n k val t => Sys2Proof.Machine.execEstCfgWrite org n k val t s
  | .estStart org n k t => Sys2Proof.Machine.execEstStart org n k t s
  | .estAbort org n k t => Sys2Proof.Machine.execEstAbort org n k t s
  | .estIntervalExpire n k t => Sys2Proof.Machine.execEstIntervalExpire n k t s
  | .estCountMet n k t => Sys2Proof.Machine.execEstCountMet n k t s
  | .estDecision n k t => Sys2Proof.Machine.execEstDecision n k t s
  | .estRampEnd n k t => Sys2Proof.Machine.execEstRampEnd n k t s
  | .xingEvaluate c t => Sys2Proof.Machine.execXingEvaluate c t s
  | .failover k t => Sys2Proof.Machine.execFailover k t s
  | .bistDone c pass t => Sys2Proof.Machine.execBistDone c pass t s
  | .shadowDone c t => Sys2Proof.Machine.execShadowDone c t s
  | .pairRevert c t => Sys2Proof.Machine.execPairRevert c t s
  | .clSwapTake org k t => Sys2Proof.Machine.execClSwapTake org k t s
  | .swapPrepDone k t => Sys2Proof.Machine.execSwapPrepDone k t s
  | .clSwapReturn org k t => Sys2Proof.Machine.execClSwapReturn org k t s
  | .channelReturn c t => Sys2Proof.Machine.execChannelReturn c t s
  | .clSwapAbort org k t => Sys2Proof.Machine.execClSwapAbort org k t s
  | .maEnable org n t => Sys2Proof.Machine.execMaEnable org n t s
  | .maDisable org n t => Sys2Proof.Machine.execMaDisable org n t s
  | .maStop org n t => Sys2Proof.Machine.execMaStop org n t s
  | .maHardStop org n t => Sys2Proof.Machine.execMaHardStop org n t s
  | .maGo org n t => Sys2Proof.Machine.execMaGo org n t s
  | .maJog org n t => Sys2Proof.Machine.execMaJog org n t s
  | .maHome org n t => Sys2Proof.Machine.execMaHome org n t s
  | .maClear org n t => Sys2Proof.Machine.execMaClear org n t s
  | .posSet org n val t => Sys2Proof.Machine.execPosSet org n val t s
  | .decelWrite org n val t => Sys2Proof.Machine.execDecelWrite org n val t s
  | .targetReached n t => Sys2Proof.Machine.execTargetReached n t s
  | .standstill n t => Sys2Proof.Machine.execStandstill n t s
  | .overcurrent n sample t => Sys2Proof.Machine.execOvercurrent n sample t s
  | .stall n t => Sys2Proof.Machine.execStall n t s
  | .devFault n t => Sys2Proof.Machine.execDevFault n t s
  | .limitInput n k edges us t => Sys2Proof.Machine.execLimitInput n k edges us t s
  | .homingRangeFail n t => Sys2Proof.Machine.execHomingRangeFail n t s
  | .limClr org n val t => Sys2Proof.Machine.execLimClr org n val t s
  | .mcmdRecord n bytes t => Sys2Proof.Machine.execMcmdRecord n bytes t s
  | .encFrame n ready bits t => Sys2Proof.Machine.execEncFrame n ready bits t s
  | .encFault n t => Sys2Proof.Machine.execEncFault n t s
  | .quadratureEdge n a b t => Sys2Proof.Machine.execQuadratureEdge n a b t s
  | .indexEvent n t => Sys2Proof.Machine.execIndexEvent n t s
  | .idxArm org n t => Sys2Proof.Machine.execIdxArm org n t s
  | .probeTrigger u level t => Sys2Proof.Machine.execProbeTrigger u level t s
  | .prbRearm org u t => Sys2Proof.Machine.execPrbRearm org u t s
  | .cmpArm org n t => Sys2Proof.Machine.execCmpArm org n t s
  | .cmpDisarm org n t => Sys2Proof.Machine.execCmpDisarm org n t s
  | .cmpHit n t => Sys2Proof.Machine.execCmpHit n t s
  | .cmpPulseEnd n t => Sys2Proof.Machine.execCmpPulseEnd n t s
  | .evSourceEvent pin level t => Sys2Proof.Machine.execEvSourceEvent pin level t s
  | .illUpdate org c t => Sys2Proof.Machine.execIllUpdate org c t s
  | .illStrobe org c t => Sys2Proof.Machine.execIllStrobe org c t s
  | .strobeRequest c t => Sys2Proof.Machine.execStrobeRequest c t s
  | .strobeOpen c t => Sys2Proof.Machine.execStrobeOpen c t s
  | .strobeClose c lux t => Sys2Proof.Machine.execStrobeClose c lux t s
  | .chainLatch c ret t => Sys2Proof.Machine.execChainLatch c ret t s
  | .testPulse c t => Sys2Proof.Machine.execTestPulse c t s
  | .testPulseEnd c t => Sys2Proof.Machine.execTestPulseEnd c t s
  | .tagPoll g t => Sys2Proof.Machine.execTagPoll g t s
  | .readId g frames t => Sys2Proof.Machine.execReadId g frames t s
  | .tagRead g frames t => Sys2Proof.Machine.execTagRead g frames t s
  | .tagWrite g frames t => Sys2Proof.Machine.execTagWrite g frames t s
  | .tagSign g frames t => Sys2Proof.Machine.execTagSign g frames t s
  | .tagAuthenticate g t => Sys2Proof.Machine.execTagAuthenticate g t s
  | .tagAuthInterval g t => Sys2Proof.Machine.execTagAuthInterval g t s
  | .tagCtrlAuth org g t => Sys2Proof.Machine.execTagCtrlAuth org g t s
  | .tagCtrlWrite org g t => Sys2Proof.Machine.execTagCtrlWrite org g t s
  | .bankMirrorUpdate t => Sys2Proof.Machine.execBankMirrorUpdate t s
  | .xferGo org val t => Sys2Proof.Machine.execXferGo org val t s
  | .linkDown kind t => Sys2Proof.Machine.execLinkDown kind t s
  | .ringEnable org r aux t => Sys2Proof.Machine.execRingEnable org r aux t s
  | .ringDisable org r t => Sys2Proof.Machine.execRingDisable org r t s
  | .ringDisableDone r t => Sys2Proof.Machine.execRingDisableDone r t s
  | .ringDoorbell org r val t => Sys2Proof.Machine.execRingDoorbell org r val t s
  | .intAck org v t => Sys2Proof.Machine.execIntAck org v t s
  | .intPendClear org w val t => Sys2Proof.Machine.execIntPendClear org w val t s
  | .ringIntStokes r t => Sys2Proof.Machine.execRingIntStokes r t s
  | .portEn org p t => Sys2Proof.Machine.execPortEn org p t s
  | .portDis org p t => Sys2Proof.Machine.execPortDis org p t s
  | .portRetrain org p force t => Sys2Proof.Machine.execPortRetrain org p force t s
  | .portTrainDone p lanes t => Sys2Proof.Machine.execPortTrainDone p lanes t s
  | .codewordLock p order inv skew t => Sys2Proof.Machine.execCodewordLock p order inv skew t s
  | .identityPacket p dev tm compat t => Sys2Proof.Machine.execIdentityPacket p dev tm compat t s
  | .rttProbe p time t => Sys2Proof.Machine.execRttProbe p time t s
  | .trainTimeout p t => Sys2Proof.Machine.execTrainTimeout p t s
  | .portLoss p n t => Sys2Proof.Machine.execPortLoss p n t s
  | .gangFrame p f t => Sys2Proof.Machine.execGangFrame p f t s
  | .packetReplay p n uncorr corr t => Sys2Proof.Machine.execPacketReplay p n uncorr corr t s
  | .peerMessage r bytes t => Sys2Proof.Machine.execPeerMessage r bytes t s
  | .peerMsgTimeout t => Sys2Proof.Machine.execPeerMsgTimeout t s
  | .forwardedArchive d dst room bytes t => Sys2Proof.Machine.execForwardedArchive d dst room bytes t s
  | .electricalIdle p t => Sys2Proof.Machine.execElectricalIdle p t s
  | .idleExit p t => Sys2Proof.Machine.execIdleExit p t s
  | .registerWrite org addr be val aux t => Sys2Proof.Machine.execRegisterWrite org addr be val aux t s
  | .suppressWindowEnd t => Sys2Proof.Machine.execSuppressWindowEnd t s
  | .logDrain t => Sys2Proof.Machine.execLogDrain t s
  | .peerHeadSend t => Sys2Proof.Machine.execPeerHeadSend t s
  | .peerHead d dst seq head t => Sys2Proof.Machine.execPeerHead d dst seq head t s
  | .inhibit mask crc t => Sys2Proof.Machine.execInhibit mask crc t s
  | .pcap c cap crc t => Sys2Proof.Machine.execPcap c cap crc t s
  | .mstop mask hard crc t => Sys2Proof.Machine.execMstop mask hard crc t s
  | .lift kind mask crc t => Sys2Proof.Machine.execLift kind mask crc t s
  | .safeRead what crc t => Sys2Proof.Machine.execSafeRead what crc t s
  | .ping unknown crc t => Sys2Proof.Machine.execPing unknown crc t s
  | .safeWatchdog t => Sys2Proof.Machine.execSafeWatchdog t s
  | .svcRead addr t => Sys2Proof.Machine.execSvcRead addr t s
  | .svcWrite addr val aux t => Sys2Proof.Machine.execSvcWrite addr val aux t s
  | .svcChallenge t => Sys2Proof.Machine.execSvcChallenge t s
  | .svcResponse sig t => Sys2Proof.Machine.execSvcResponse sig t s
  | .svcLock org t => Sys2Proof.Machine.execSvcLock org t s
  | .svcIdleTimeout t => Sys2Proof.Machine.execSvcIdleTimeout t s
  | .svcLockoutEnd t => Sys2Proof.Machine.execSvcLockoutEnd t s
  | .hkRoundEnd temps rails t => Sys2Proof.Machine.execHkRoundEnd temps rails t s
  | .hkOverrideRelease org t => Sys2Proof.Machine.execHkOverrideRelease org t s
  | .dipGateWrite org val t => Sys2Proof.Machine.execDipGateWrite org val t s
  | .thermalShutdown lost t => Sys2Proof.Machine.execThermalShutdown lost t s
  | .shutdownRestart => Sys2Proof.Machine.execShutdownRestart s
  | .supplyDip m ends mv t => Sys2Proof.Machine.execSupplyDip m ends mv t s
  | .railReset m => Sys2Proof.Machine.execRailReset m s
  | .vbankLow t => Sys2Proof.Machine.execVbankLow t s
  | .powerUp => Sys2Proof.Machine.execPowerUp s
  | .rstN high straps => Sys2Proof.Machine.execRstN high straps s
  | .bootRomDone ok t => Sys2Proof.Machine.execBootRomDone ok t s
  | .bootSramDone bad t => Sys2Proof.Machine.execBootSramDone bad t s
  | .bootFetchDone data t => Sys2Proof.Machine.execBootFetchDone data t s
  | .bootVerifyDone t => Sys2Proof.Machine.execBootVerifyDone t s
  | .bootApplyDone aux t => Sys2Proof.Machine.execBootApplyDone aux t s
  | .bootGo org t => Sys2Proof.Machine.execBootGo org t s
  | .keyProgram org k t => Sys2Proof.Machine.execKeyProgram org k t s
  | .keyRevoke org k t => Sys2Proof.Machine.execKeyRevoke org k t s
  | .setSecure org t => Sys2Proof.Machine.execSetSecure org t s
  | .fuseWriteDone t => Sys2Proof.Machine.execFuseWriteDone t s
  | .damperN low t => Sys2Proof.Machine.execDamperN low t s
  | .dmpEngage org t => Sys2Proof.Machine.execDmpEngage org t s
  | .dmpRelease org t => Sys2Proof.Machine.execDmpRelease org t s
  | .damperRelease sec ns ms => Sys2Proof.Machine.execDamperRelease sec ns ms s
  | .idcode => Sys2Proof.Machine.execIdcode s
  | .frzAddr space a => Sys2Proof.Machine.execFrzAddr space a s
  | .frzData => Sys2Proof.Machine.execFrzData s
  | .frzEngage t => Sys2Proof.Machine.execFrzEngage t s
  | .frzRelease t => Sys2Proof.Machine.execFrzRelease t s
  | .bypass => Sys2Proof.Machine.execBypass s
  | .registerRead addr be t => Sys2Proof.Machine.execRegisterRead addr be t s
  | .bar2Access org addr ws n t => Sys2Proof.Machine.execBar2Access org addr ws n t s
  | .illegalInstruction c w => Sys2Proof.Machine.execIllegalInstruction c w s
  | .msixVectorUnmask v t => Sys2Proof.Machine.execMsixVectorUnmask v t s
  | .pcieLinkUp rate width bm0 bm1 t => Sys2Proof.Machine.execPcieLinkUp rate width bm0 bm1 t s
  | .limitInputRelease n k edges us t => Sys2Proof.Machine.execLimitInputRelease n k edges us t s
  | .fwdClockEdge n rise t => Sys2Proof.Machine.execFwdClockEdge n rise t s
  | .fwdMonoExpire n t => Sys2Proof.Machine.execFwdMonoExpire n t s
  | .railResetRelease m straps => Sys2Proof.Machine.execRailResetRelease m straps s
  | .mainPowerLoss => Sys2Proof.Machine.execMainPowerLoss s
  | .bankContentsLost => Sys2Proof.Machine.execBankContentsLost s

end Sys2Proof.Machine
end

