-- ==== Sys2Proof/WellFormed.lean ====
section
/-! DEFINITION. The commands that are well formed: operands that can arrive at the hardware, and instructions that are no illegal word (R59, R86). -/

namespace Sys2Proof

/-- An unsigned value of `n` bits. -/
def inU (n v : Nat) : Bool := decide (v < 2 ^ n)
/-- A two's-complement value of `n` bits. -/
def inS (n : Nat) (v : Int) : Bool := decide (-(2 ^ (n - 1)) ≤ v) && decide (v < 2 ^ (n - 1))
/-- A condition code that R64 does not reserve. -/
def condLegal (k : BitVec 5) : Bool := !k.getLsbD 3
/-- The offset of a coefficient in a channel's block (R192). -/
def isCoefOff (o : Nat) : Bool := o % 4 == 0 && (decide (0xA00C ≤ o ∧ o ≤ 0xA058) || decide (0xA200 ≤ o ∧ o ≤ 0xA2FC))

/-- Codes of a channel's converters: 18-bit servo ADC (R134), 16-bit photodiodes (R175) and monitor (R158). -/
def ChanIn.wf (x : ChanIn) : Bool :=
  x.adcX.all (inS 18) && x.adcY.all (inS 18) && x.adcF.all (inS 18) && (x.pdE.all fun p => inU 16 p.1) && (x.pdB.all fun p => inU 16 p.1)
    && x.mon.all (inU 16)
/-- A cluster names one of the seven items of R53. -/
def ClIn.wf (x : ClIn) : Bool := x.pairItem.all (fun p => decide (1 ≤ p.2 ∧ p.2 ≤ 5)) && decide (x.spotItem ≤ 7) && decide (x.shadowItem ≤ 7) && decide (x.resItem ≤ 7)
/-- At most 8 samples of each converter come in a stoke (R288). -/
def MaIn.wf (x : MaIn) : Bool := decide (x.ia.length ≤ 8) && decide (x.ib.length ≤ 8) && decide (x.vbr.length ≤ 8)
/-- No more elements than the device has, each well formed. -/
def BoundaryIn.wf (x : BoundaryIn) : Bool :=
  decide (x.chans.length ≤ 24) && decide (x.mas.length ≤ 8) && decide (x.cls.length ≤ 4) && decide (x.frames.length ≤ 24)
    && x.chans.all ChanIn.wf && x.mas.all MaIn.wf && x.cls.all ClIn.wf && x.frames.all fun ls => ls.all fun l => l.all (inU 12)

/-- The command is well formed. -/
def wellFormed (i : Instr) : Bool :=
  match i with
  | .stokeBoundary inp => inp.wf
  | .faultEntryOverrun _ _ => true
  | .budgetOverrun _ _ => true
  | .doubleOverrun _ _ => true
  | .stokeRun _ _ => true
  | .stokeCfgWrite _ _ _ => true
  | .ppsArm _ _ _ => true
  | .ppsPulse _ => true
  | .ppsHoldover _ => true
  | .stokeStamp _ cnt sec ns rate _ _ => inU 64 cnt && inU 40 sec && decide (ns < 1000000000) && decide (rate < 4)
  | .gangAlignStep _ => true
  | .gangLock _ => true
  | .gangHoldover _ => true
  | .add _ _ _ _ => true
  | .sub _ _ _ _ => true
  | .and _ _ _ _ => true
  | .or _ _ _ _ => true
  | .xor _ _ _ _ => true
  | .andn _ _ _ _ => true
  | .shl _ _ _ _ => true
  | .shr _ _ _ _ => true
  | .sar _ _ _ _ => true
  | .ror _ _ _ _ => true
  | .min _ _ _ _ => true
  | .max _ _ _ _ => true
  | .minu _ _ _ _ => true
  | .maxu _ _ _ _ => true
  | .slt _ _ _ _ => true
  | .sltu _ _ _ _ => true
  | .adds _ _ _ _ => true
  | .subs _ _ _ _ => true
  | .abs _ _ _ => true
  | .clz _ _ _ => true
  | .sel _ _ _ _ cond => condLegal cond
  | .cmp _ _ _ => true
  | .tst _ _ _ => true
  | .mul _ _ _ _ => true
  | .mulh _ _ _ _ => true
  | .mulhu _ _ _ _ => true
  | .qmul _ _ _ _ _ => true
  | .mac _ _ _ _ => true
  | .qmac _ _ _ _ _ => true
  | .div _ _ _ _ => true
  | .divu _ _ _ _ => true
  | .rem _ _ _ _ => true
  | .remu _ _ _ _ => true
  | .qdiv _ _ _ _ _ => true
  | .addi _ _ _ _ => true
  | .andi _ _ _ _ => true
  | .ori _ _ _ _ => true
  | .xori _ _ _ _ => true
  | .lui _ _ _ => true
  | .shi _ _ _ _ _ => true
  | .cmpi _ _ _ => true
  | .extu _ _ _ _ _ => true
  | .exts _ _ _ _ _ => true
  | .ins _ _ _ _ _ => true
  | .fadd _ _ _ _ => true
  | .fsub _ _ _ _ => true
  | .fmul _ _ _ _ => true
  | .fmac _ _ _ _ => true
  | .fmin _ _ _ _ => true
  | .fmax _ _ _ _ => true
  | .fabs _ _ _ => true
  | .fneg _ _ _ => true
  | .fcmp _ _ _ => true
  | .fdiv _ _ _ _ => true
  | .fsqrt _ _ _ => true
  | .fcvtws _ _ _ => true
  | .fcvtsw _ _ _ => true
  | .fcvtqs _ _ _ _ => true
  | .fcvtsq _ _ _ _ => true
  | .b _ cond _ => condLegal cond
  | .j _ _ => true
  | .call _ _ => true
  | .ret _ => true
  | .jt _ _ _ => true
  | .loop _ n _ max => n != 0#10 && max != 0#11
  | .endEntry _ _ => true
  | .ldw _ _ _ _ => true
  | .ldh _ _ _ _ => true
  | .ldhu _ _ _ _ => true
  | .ldb _ _ _ _ => true
  | .ldbu _ _ _ _ => true
  | .stw _ _ _ _ _ => true
  | .sth _ _ _ _ _ => true
  | .stb _ _ _ _ _ => true
  | .prd _ _ _ _ => true
  | .pwr _ _ _ _ _ => true
  | .pop _ d _ => d.val % 8 == 0 && d != 0
  | .lut _ _ _ _ _ => true
  | .emq _ _ _ _ _ => true
  | .gdq _ _ _ _ => true
  | .mfs _ _ sel => decide (sel.val ≤ 6)
  | .mts _ _ sel => sel.val == 0
  | .engTrapClr _ _ _ => true
  | .layerCtrlReq _ _ _ => true
  | .faultClear _ _ _ => true
  | .faultResume _ _ _ => true
  | .progLoad _ _ _ => true
  | .loadDone _ _ => true
  | .progSwitch _ _ _ => true
  | .progRun _ _ _ _ => true
  | .progHalt _ _ _ => true
  | .lutSwap _ _ _ => true
  | .recordPrefetch _ _ _ => true
  | .vecRestart _ _ _ _ => true
  | .barrierRelease _ _ => true
  | .barrierTimeout _ _ => true
  | .servoFault _ _ _ => true
  | .svCtrlWrite _ _ _ _ => true
  | .svClear _ _ _ => true
  | .paramApply _ _ _ _ => true
  | .trimTgtWrite _ _ _ _ _ => true
  | .pdTgtWrite _ _ _ _ _ _ => true
  | .trimRampEnd _ _ => true
  | .gridLoadXy _ _ _ => true
  | .gridLoadF _ _ _ => true
  | .gridLoadDone _ _ _ => true
  | .gridSwap _ _ => true
  | .gridAbort _ _ _ => true
  | .lasArm _ _ _ => true
  | .lasDisarm _ _ _ => true
  | .readyActive _ _ _ => true
  | .readyTimeout _ _ => true
  | .alarm _ _ _ _ => true
  | .readyLost _ _ _ => true
  | .gateEdge _ _ => true
  | .monDeviation _ _ => true
  | .lsafeAssert _ _ => true
  | .lsafeRelease _ _ => true
  | .lsafeDisc _ => true
  | .lsafeClr _ _ => true
  | .loopMode _ _ _ _ _ => true
  | .lossRevert _ _ => true
  | .freezeRevert _ _ => true
  | .camAgeDrop _ _ => true
  | .shapeReturn _ _ => true
  | .blendEnd _ _ => true
  | .coefWrite _ _ off _ _ => isCoefOff off
  | .loopTrimWrite _ _ _ _ => true
  | .traceArm _ _ _ => true
  | .traceTrig _ _ _ => true
  | .traceAbort _ _ _ => true
  | .traceDone _ _ => true
  | .lateDeposit _ => true
  | .emFrameLost _ _ => true
  | .emCfgWrite _ _ _ => true
  | .emClear _ _ => true
  | .emClearDone _ => true
  | .scrub a _ _ _ => a % 4 == 0 && decide (a < 0x3000000)
  | .trailRemove _ => true
  | .planExpire _ => true
  | .camStart _ _ _ => true
  | .camStop _ _ _ => true
  | .camAbort _ _ _ => true
  | .camStopped _ _ => true
  | .camBindWrite _ _ _ _ => true
  | .camTrigReq _ _ _ => true
  | .triggerRequest _ _ => true
  | .exposureEnd _ _ => true
  | .setMemberRise _ _ => true
  | .frameStart _ _ => true
  | .frameEnd _ lines _ => lines.all fun l => l.all (inU 12)
  | .frameTimeout _ lines _ => lines.all fun l => l.all (inU 12)
  | .pulseMissed _ _ => true
  | .statRecordComplete _ _ => true
  | .archiveWrite _ _ _ => true
  | .camTrcArm _ _ _ => true
  | .camTrcTrig _ _ _ => true
  | .camTrcAbort _ _ _ => true
  | .estCfgWrite _ _ _ _ _ => true
  | .estStart _ _ _ _ => true
  | .estAbort _ _ _ _ => true
  | .estIntervalExpire _ _ _ => true
  | .estCountMet _ _ _ => true
  | .estDecision _ _ _ => true
  | .estRampEnd _ _ _ => true
  | .xingEvaluate _ _ => true
  | .failover _ _ => true
  | .bistDone _ _ _ => true
  | .shadowDone _ _ => true
  | .pairRevert _ _ => true
  | .clSwapTake _ _ _ => true
  | .swapPrepDone _ _ => true
  | .clSwapReturn _ _ _ => true
  | .channelReturn _ _ => true
  | .clSwapAbort _ _ _ => true
  | .maEnable _ _ _ => true
  | .maDisable _ _ _ => true
  | .maStop _ _ _ => true
  | .maHardStop _ _ _ => true
  | .maGo _ _ _ => true
  | .maJog _ _ _ => true
  | .maHome _ _ _ => true
  | .maClear _ _ _ => true
  | .posSet _ _ _ _ => true
  | .decelWrite _ _ _ _ => true
  | .targetReached _ _ => true
  | .standstill _ _ => true
  | .overcurrent _ _ _ => true
  | .stall _ _ => true
  | .devFault _ _ => true
  | .limitInput _ _ _ _ _ => true
  | .homingRangeFail _ _ => true
  | .limClr _ _ _ _ => true
  | .mcmdRecord _ bytes _ => bytes.length == 32
  | .encFrame _ _ _ _ => true
  | .encFault _ _ => true
  | .quadratureEdge _ _ _ _ => true
  | .indexEvent _ _ => true
  | .idxArm _ _ _ => true
  | .probeTrigger _ _ _ => true
  | .prbRearm _ _ _ => true
  | .cmpArm _ _ _ => true
  | .cmpDisarm _ _ _ => true
  | .cmpHit _ _ => true
  | .cmpPulseEnd _ _ => true
  | .evSourceEvent _ _ _ => true
  | .illUpdate _ _ _ => true
  | .illStrobe _ _ _ => true
  | .strobeRequest _ _ => true
  | .strobeOpen _ _ => true
  | .strobeClose _ lux _ => lux.all fun l => l.all (inU 16)
  | .chainLatch _ _ _ => true
  | .testPulse _ _ => true
  | .testPulseEnd _ _ => true
  | .tagPoll _ _ => true
  | .readId _ _ _ => true
  | .tagRead _ _ _ => true
  | .tagWrite _ _ _ => true
  | .tagSign _ _ _ => true
  | .tagAuthenticate _ _ => true
  | .tagAuthInterval _ _ => true
  | .tagCtrlAuth _ _ _ => true
  | .tagCtrlWrite _ _ _ => true
  | .bankMirrorUpdate _ => true
  | .xferGo _ _ _ => true
  | .linkDown _ _ => true
  | .ringEnable _ _ _ _ => true
  | .ringDisable _ _ _ => true
  | .ringDisableDone _ _ => true
  | .ringDoorbell _ _ _ _ => true
  | .intAck _ _ _ => true
  | .intPendClear _ _ _ _ => true
  | .ringIntStokes _ _ => true
  | .portEn _ _ _ => true
  | .portDis _ _ _ => true
  | .portRetrain _ _ _ _ => true
  | .portTrainDone _ lanes _ => lanes.length == 4
  | .codewordLock _ order inv _ _ => order.length == 4 && inv.length == 4 && order.all fun n => decide (n < 4)
  | .identityPacket _ _ _ _ _ => true
  | .rttProbe _ _ _ => true
  | .trainTimeout _ _ => true
  | .portLoss _ _ _ => true
  | .gangFrame _ f _ => inU 64 f.stoke
  | .packetReplay _ _ _ _ _ => true
  | .peerMessage _ _ _ => true
  | .peerMsgTimeout _ => true
  | .forwardedArchive _ _ _ _ _ => true
  | .electricalIdle _ _ => true
  | .idleExit _ _ => true
  | .registerWrite _ addr _ _ _ _ => inU 26 addr
  | .suppressWindowEnd _ => true
  | .logDrain _ => true
  | .peerHeadSend _ => true
  | .peerHead _ _ seq head _ => inU 48 seq && head.length == 32
  | .inhibit _ _ _ => true
  | .pcap _ _ _ _ => true
  | .mstop _ _ _ _ => true
  | .lift _ _ _ _ => true
  | .safeRead _ _ _ => true
  | .ping _ _ _ => true
  | .safeWatchdog _ => true
  | .svcRead addr _ => inU 26 addr
  | .svcWrite addr _ _ _ => inU 26 addr
  | .svcChallenge _ => true
  | .svcResponse sig _ => sig.length == 64
  | .svcLock _ _ => true
  | .svcIdleTimeout _ => true
  | .svcLockoutEnd _ => true
  | .hkRoundEnd temps rails _ => temps.length == 22 && rails.length == 12
  | .hkOverrideRelease _ _ => true
  | .dipGateWrite _ _ _ => true
  | .thermalShutdown _ _ => true
  | .shutdownRestart => true
  | .supplyDip _ _ _ _ => true
  | .railReset _ => true
  | .vbankLow _ => true
  | .powerUp => true
  | .rstN _ _ => true
  | .bootRomDone _ _ => true
  | .bootSramDone bad _ => bad.all fun a => a % 4 == 0 && decide (a < 0x3000000)
  | .bootFetchDone _ _ => true
  | .bootVerifyDone _ => true
  | .bootApplyDone _ _ => true
  | .bootGo _ _ => true
  | .keyProgram _ _ _ => true
  | .keyRevoke _ _ _ => true
  | .setSecure _ _ => true
  | .fuseWriteDone _ => true
  | .damperN _ _ => true
  | .dmpEngage _ _ => true
  | .dmpRelease _ _ => true
  | .damperRelease sec ns _ => inU 40 sec && decide (ns < 1000000000)
  | .idcode => true
  | .frzAddr _ _ => true
  | .frzData => true
  | .frzEngage _ => true
  | .frzRelease _ => true
  | .bypass => true
  | .registerRead addr _ _ => inU 26 addr
  | .bar2Access _ addr _ n _ => inU 26 (addr + 4 * n)
  | .illegalInstruction _ _ => true
  | .msixVectorUnmask _ _ => true
  | .pcieLinkUp _ _ _ _ _ => true
  | .limitInputRelease _ _ _ _ _ => true
  | .fwdClockEdge _ _ _ => true
  | .fwdMonoExpire _ _ => true
  | .railResetRelease _ _ => true
  | .mainPowerLoss => true
  | .bankContentsLost => true

end Sys2Proof
end

