-- ==== Sys2Proof/Safety.lean ====
section
/-! DEFINITION. What a safe run is: the canonical form that every step keeps, the conditions under which an instruction issues and completes, those under which a register write is accepted, and what a command answers. -/

namespace Sys2Proof.Machine
open Sys2Proof

/-! The invariant. -/

/-- The registers and the SRAM are in their canonical form. -/
def State.canon (s : State) : Bool := regsWf s.regs && s.sram.wf

/-! What a command answers. -/

/-- The command answers a next state: `u` is the state that the command itself leaves, of which `P` holds, and what follows are
the acts of the event matrix that it set off (R22–R24); where none waits, `u` is the next state. -/
def Answers (o : Ans) (P : State → Prop) : Prop :=
  ∃ u, o = .next u.settle ∧ P u ∧ (u.evt.acts = [] → u.settle = u)

/-- The change log takes entries at once and has room for those of a command (R405, R409, R433). -/
structure State.LogOpen (s : State) : Prop where
  started : s.log.started = true
  single : s.log.batching = false
  room : s.log.held.length < 4000

/-- Between `s` and `u` an entry has joined the log: its OBJECT, KIND, OLD and NEW (R404). -/
def Logs (s u : State) (obj kind : Nat) (old new : Word) : Prop :=
  ∃ e ∈ u.log.held.drop s.log.held.length, e.obj = obj ∧ e.kind = kind ∧ e.old = old ∧ e.new = new

/-! Instructions. -/

/-- The engine that runs a channel, as its program sees it. -/
def State.engC (s : State) (c : Ch) : Core := s.eng[s.engOf c]

/-- The BAR2 offset of the instruction that the channel's engine is about to fetch (R54). -/
def State.fetchAt (s : State) (c : Ch) : Nat := imemBase (ownEng c) s.ch[c].bankB + 4 * (s.engC c).pc

/-- An instruction of the channel's entry issues and its whole cost lies in the budget: the entry runs, the die runs, the word
fetched is good, and an instruction of R73 does not stand at the end of the innermost loop. `uses` are the registers it reads or
writes, `all` makes it wait for every binary32 result (R58), `ctrl` marks the instructions of R73. -/
structure Issues (s : State) (c : Ch) (uses : List Reg) (all ctrl : Bool) (cost : Nat) : Prop where
  runs : (s.engC c).run = .run
  up : s.halted = false
  pos : 0 < cost
  budget : (s.engC c).issueAt uses all + cost ≤ s.engBudget (s.engOf c)
  fetch : s.isBad (s.fetchAt c) = false
  loopEnd : ctrl = true → ∀ f r, (s.engC c).loops = f :: r → (s.engC c).pc ≠ f.stop

/-- The instruction after this one stands in the bank (R54). -/
def State.staysInBank (s : State) (c : Ch) : Prop := (s.engC c).seqNext.pc ≤ 0x1FFF

/-- The engine once an instruction has issued at cycle `t`: stall cycles are counted (R61), the flags usable by then have joined
FSTAT (R58), and the cost is spent (R60, R62). -/
def Core.issued (u : Core) (t cost : Nat) : Core := { u.fold t with cycle := t + cost, stall := u.stall + (t - u.cycle) }

/-- Only the channel's engine changes: the instruction issues, has the effect `f` on the engine's registers, and the program
counter moves on, through the loop's back-edge where one is due (R72). -/
def State.retires (s : State) (c : Ch) (uses : List Reg) (all : Bool) (cost : Nat) (f : Core → Core) : Ans :=
  .next (s.modEng (s.engOf c) fun u => (f (u.issued (u.issueAt uses all) cost)).seqNext)

/-- The same for a transfer of control to a word of the bank. -/
def State.transfers (s : State) (c : Ch) (uses : List Reg) (cost tgt : Nat) (f : Core → Core) : Ans :=
  .next (s.modEng (s.engOf c) fun u => { f (u.issued (u.issueAt uses false) cost) with pc := tgt })

/-- The channel and the destination registers of an instruction; none for every other command and for END, which ends the entry. -/
def engDest (i : Instr) : Option (Ch × List Reg) :=
  match i with
  | .add c d _ _ | .sub c d _ _ | .and c d _ _ | .or c d _ _ | .xor c d _ _ | .andn c d _ _ | .shl c d _ _ | .shr c d _ _
  | .sar c d _ _ | .ror c d _ _ | .min c d _ _ | .max c d _ _ | .minu c d _ _ | .maxu c d _ _ | .slt c d _ _ | .sltu c d _ _
  | .adds c d _ _ | .subs c d _ _ | .mul c d _ _ | .mulh c d _ _ | .mulhu c d _ _ | .mac c d _ _ | .div c d _ _ | .divu c d _ _
  | .rem c d _ _ | .remu c d _ _ | .fadd c d _ _ | .fsub c d _ _ | .fmul c d _ _ | .fmac c d _ _ | .fmin c d _ _ | .fmax c d _ _
  | .fdiv c d _ _ | .sel c d _ _ _ | .qmul c d _ _ _ | .qmac c d _ _ _ | .qdiv c d _ _ _ | .emq c d _ _ _ => some (c, [d])
  | .abs c d _ | .clz c d _ | .fabs c d _ | .fneg c d _ | .fsqrt c d _ | .fcvtws c d _ | .fcvtsw c d _ | .lui c d _ | .mfs c d _ => some (c, [d])
  | .addi c d _ _ | .andi c d _ _ | .ori c d _ _ | .xori c d _ _ | .fcvtqs c d _ _ | .fcvtsq c d _ _ | .ldw c d _ _ | .ldh c d _ _
  | .ldhu c d _ _ | .ldb c d _ _ | .ldbu c d _ _ | .prd c d _ _ | .gdq c d _ _ => some (c, [d])
  | .shi c d _ _ _ | .extu c d _ _ _ | .exts c d _ _ _ | .ins c d _ _ _ | .lut c d _ _ _ => some (c, [d])
  | .pop c d _ => some (c, (List.range 8).map fun k => (⟨(d.val + k) % 32, Nat.mod_lt _ (by decide)⟩ : Reg))
  | .cmp c _ _ | .tst c _ _ | .cmpi c _ _ | .fcmp c _ _ | .mts c _ _ | .b c _ _ | .jt c _ _ => some (c, [])
  | .j c _ | .call c _ => some (c, [])
  | .ret c => some (c, [])
  | .loop c _ _ _ => some (c, [])
  | .stw c _ _ _ _ | .sth c _ _ _ _ | .stb c _ _ _ _ | .pwr c _ _ _ _ => some (c, [])
  | .illegalInstruction c _ => some (c, [])
  | _ => none

/-- The instructions that set the condition flags (R65, R67, R69, R80, R82, R83). -/
def setsFlags (i : Instr) : Bool :=
  match i with
  | .cmp _ _ _ | .tst _ _ _ | .cmpi _ _ _ | .fcmp _ _ _ | .pop _ _ _ | .emq _ _ _ _ _ | .gdq _ _ _ _ => true
  | _ => false

/-- The instructions that store to DMEM (R76). -/
def storesMem (i : Instr) : Bool :=
  match i with
  | .stw _ _ _ _ _ | .sth _ _ _ _ _ | .stb _ _ _ _ _ => true
  | _ => false

/-- The channel whose engine issues an instruction; none for every other command. -/
def engChan (i : Instr) : Option Ch :=
  match i with
  | .endEntry c _ => some c
  | _ => (engDest i).map (·.1)

/-- The instruction with the two cores in agreement, as its word alone tells it. -/
def sameCores (i : Instr) : Instr :=
  match i with
  | .endEntry c _ => .endEntry c false
  | .stw c d a imm _ => .stw c d a imm false
  | .sth c d a imm _ => .sth c d a imm false
  | .stb c d a imm _ => .stb c d a imm false
  | .pwr c d a imm _ => .pwr c d a imm false
  | .pop c d _ => .pop c d false
  | .emq c d a b _ => .emq c d a b false
  | .gdq c d a _ => .gdq c d a false
  | i => i

/-- What a trap leaves (R86, R87): the engine stops with the code and the address of the instruction, one cycle after it issued, its registers and
flags as they stood, memory and every other engine untouched; TRAP_CNT counts it outside the FAULT entry, and ENG_TRAP keeps the first. -/
structure Trapped (s s' : State) (c : Ch) (t code : Nat) : Prop where
  run : (s'.eng[s.engOf c]).run = .trapped
  tcode : (s'.eng[s.engOf c]).trapCode = code
  taddr : (s'.eng[s.engOf c]).trapAddr = (s.engC c).pc
  cycle : (s'.eng[s.engOf c]).cycle = t + 1
  regs : (s'.eng[s.engOf c]).w = (s.engC c).w
  flags : (s'.eng[s.engOf c]).flg = (s.engC c).flg
  others : ∀ e, e ≠ s.engOf c → s'.eng[e] = s.eng[e]
  memory : s'.sram = s.sram
  counted : s'.reg (chReg c Reg.TRAP_CNT) =
    if (s.engC c).entry = .fault then s.reg (chReg c Reg.TRAP_CNT) else satU32 ((s.reg (chReg c Reg.TRAP_CNT)).toNat + 1)
  kept : fld (s.reg (chReg c Reg.ENG_TRAP)) 0 8 ≠ 0 → s'.reg (chReg c Reg.ENG_TRAP) = s.reg (chReg c Reg.ENG_TRAP)
  first : fld (s.reg (chReg c Reg.ENG_TRAP)) 0 8 = 0 →
    fld (s'.reg (chReg c Reg.ENG_TRAP)) 0 8 = code % 256 ∧ s'.reg (chReg c Reg.ENG_TRAP_STOKE) = s.stoke32

/-! Register rows. -/

/-- The register write that a row of the table names: origin, BAR0 address, value, the index-block word that its effect may read, instant
(R50, R107, R118, R155, R173, R198, R211, R251, R260, R285, R313, R339, R355, R375, R393, R411, R428, R444, R445; the bases of R446). -/
def regCmd (i : Instr) : Option (Origin × Nat × Word × Nat × Nat) :=
  match i with
  | .stokeRun org t => some (org, 0x10000 + 0x4, 1#32, 0, t)
  | .stokeCfgWrite org val t => some (org, 0x10000 + 0x0, val, 0, t)
  | .ppsArm org auto t => some (org, 0x10000 + 0x30, BitVec.ofNat 32 (1 + bitAt auto 1), 0, t)
  | .engTrapClr org c t => some (org, 0x100000 + 0x10000 * c.val + 0x120, 1#32, 0, t)
  | .layerCtrlReq org c t => some (org, 0x100000 + 0x10000 * c.val + 0x68, 1#32, 0, t)
  | .faultClear org c t => some (org, 0x100000 + 0x10000 * c.val + 0x74, 1#32, 0, t)
  | .faultResume org c t => some (org, 0x100000 + 0x10000 * c.val + 0x74, 3#32, 0, t)
  | .progLoad org c t => some (org, 0x100000 + 0x10000 * c.val + 0xC, 1#32, 0, t)
  | .progSwitch org c t => some (org, 0x100000 + 0x10000 * c.val + 0xC, 2#32, 0, t)
  | .progRun org c aux t => some (org, 0x100000 + 0x10000 * c.val + 0xC, 4#32, aux, t)
  | .progHalt org c t => some (org, 0x100000 + 0x10000 * c.val + 0xC, 8#32, 0, t)
  | .lutSwap org c t => some (org, 0x100000 + 0x10000 * c.val + 0xC, 16#32, 0, t)
  | .vecRestart org c aux t => some (org, 0x100000 + 0x10000 * c.val + 0x2008, 1#32, aux, t)
  | .svCtrlWrite org c val t => some (org, 0x100000 + 0x10000 * c.val + 0x4400, val, 0, t)
  | .svClear org c t => some (org, 0x100000 + 0x10000 * c.val + 0x4404, 1#32, 0, t)
  | .paramApply org c a t => some (org, 0x100000 + 0x10000 * c.val + (0x4084 + 0x100 * a.val), 1#32, 0, t)
  | .trimTgtWrite org c k val t => some (org, 0x100000 + 0x10000 * c.val + (0x4420 + 4 * k.val), val, 0, t)
  | .pdTgtWrite org c a gain val t => some (org, 0x100000 + 0x10000 * c.val + ((if gain then 0x408C else 0x4088) + 0x100 * a.val), val, 0, t)
  | .gridLoadXy org c t => some (org, 0x100000 + 0x10000 * c.val + 0x446C, 1#32, 0, t)
  | .gridLoadF org c t => some (org, 0x100000 + 0x10000 * c.val + 0x446C, 2#32, 0, t)
  | .gridAbort org c t => some (org, 0x100000 + 0x10000 * c.val + 0x446C, 4#32, 0, t)
  | .lasArm org c t => some (org, 0x100000 + 0x10000 * c.val + 0x8004, 1#32, 0, t)
  | .lasDisarm org c t => some (org, 0x100000 + 0x10000 * c.val + 0x8004, 2#32, 0, t)
  | .lsafeClr org t => some (org, 0x108, 1#32, 0, t)
  | .loopMode org c mode force t => some (org, 0x100000 + 0x10000 * c.val + 0xA000, BitVec.ofNat 32 (mode.val + bitAt force 8), 0, t)
  | .coefWrite org c off val t => if isCoef off then some (org, 0x100000 + 0x10000 * c.val + off, val, 0, t) else none
  | .loopTrimWrite org c val t => some (org, 0x100000 + 0x10000 * c.val + 0xA05C, val, 0, t)
  | .traceArm org c t => some (org, 0x100000 + 0x10000 * c.val + 0xC010, 1#32, 0, t)
  | .traceTrig org c t => some (org, 0x100000 + 0x10000 * c.val + 0xC010, 2#32, 0, t)
  | .traceAbort org c t => some (org, 0x100000 + 0x10000 * c.val + 0xC010, 4#32, 0, t)
  | .emCfgWrite org val t => some (org, 0x400000 + 0x0, val, 0, t)
  | .emClear org t => some (org, 0x400000 + 0x40, 1#32, 0, t)
  | .camStart org m t => some (org, 0x300000 + 0x8000 * m.val + 0x0, 1#32, 0, t)
  | .camStop org m t => some (org, 0x300000 + 0x8000 * m.val + 0x0, 2#32, 0, t)
  | .camAbort org m t => some (org, 0x300000 + 0x8000 * m.val + 0x0, 4#32, 0, t)
  | .camBindWrite org m val t => some (org, 0x300000 + 0x8000 * m.val + 0x8, val, 0, t)
  | .camTrigReq org m t => some (org, 0x300000 + 0x8000 * m.val + 0x120, 1#32, 0, t)
  | .camTrcArm org m t => some (org, 0x300000 + 0x8000 * m.val + 0x48, 1#32, 0, t)
  | .camTrcTrig org m t => some (org, 0x300000 + 0x8000 * m.val + 0x48, 2#32, 0, t)
  | .camTrcAbort org m t => some (org, 0x300000 + 0x8000 * m.val + 0x48, 4#32, 0, t)
  | .estCfgWrite org n k val t => some (org, (if n = 5 then 0x300000 + 0x8000 * k.val + 0x300 else 0x100000 + 0x10000 * k.val + (0xE000 + 0x80 * n.val)), val, 0, t)
  | .estStart org n k t => some (org, (if n = 5 then 0x300000 + 0x8000 * k.val + 0x300 else 0x100000 + 0x10000 * k.val + (0xE000 + 0x80 * n.val)) + 4, 1#32, 0, t)
  | .estAbort org n k t => some (org, (if n = 5 then 0x300000 + 0x8000 * k.val + 0x300 else 0x100000 + 0x10000 * k.val + (0xE000 + 0x80 * n.val)) + 4, 2#32, 0, t)
  | .clSwapTake org k t => some (org, 0x40000 + 0x4000 * k.val + 0xC, 1#32, 0, t)
  | .clSwapReturn org k t => some (org, 0x40000 + 0x4000 * k.val + 0xC, 2#32, 0, t)
  | .clSwapAbort org k t => some (org, 0x40000 + 0x4000 * k.val + 0xC, 4#32, 0, t)
  | .maEnable org n t => some (org, 0x410000 + 0x1000 * n.val + 0x4, 1#32, 0, t)
  | .maDisable org n t => some (org, 0x410000 + 0x1000 * n.val + 0x4, 2#32, 0, t)
  | .maStop org n t => some (org, 0x410000 + 0x1000 * n.val + 0x4, 4#32, 0, t)
  | .maHardStop org n t => some (org, 0x410000 + 0x1000 * n.val + 0x4, 8#32, 0, t)
  | .maGo org n t => some (org, 0x410000 + 0x1000 * n.val + 0x4, 16#32, 0, t)
  | .maJog org n t => some (org, 0x410000 + 0x1000 * n.val + 0x4, 32#32, 0, t)
  | .maHome org n t => some (org, 0x410000 + 0x1000 * n.val + 0x4, 64#32, 0, t)
  | .maClear org n t => some (org, 0x410000 + 0x1000 * n.val + 0x4, 128#32, 0, t)
  | .posSet org n val t => some (org, 0x410000 + 0x1000 * n.val + 0x34, val, 0, t)
  | .decelWrite org n val t => some (org, 0x410000 + 0x1000 * n.val + 0x1C, val, 0, t)
  | .limClr org n val t => some (org, 0x410000 + 0x1000 * n.val + 0xC8, val, 0, t)
  | .idxArm org n t => some (org, 0x410000 + 0x1000 * n.val + 0x490, 1#32, 0, t)
  | .prbRearm org u t => some (org, 0x418000 + 0x10, BitVec.ofNat 32 (2 ^ u.val), 0, t)
  | .cmpArm org n t => some (org, 0x410000 + 0x1000 * n.val + 0x510, 1#32, 0, t)
  | .cmpDisarm org n t => some (org, 0x410000 + 0x1000 * n.val + 0x510, 2#32, 0, t)
  | .illUpdate org c t => some (org, 0x4A0000 + (0x4 + 256 * c.val), 1#32, 0, t)
  | .illStrobe org c t => some (org, 0x4A0000 + (0x4 + 256 * c.val), 2#32, 0, t)
  | .tagCtrlAuth org g t => some (org, 0x4B0000 + 0x8, BitVec.ofNat 32 (g.val + 256), 0, t)
  | .tagCtrlWrite org g t => some (org, 0x4B0000 + 0x8, BitVec.ofNat 32 (g.val + 512), 0, t)
  | .xferGo org val t => some (org, 0x4B0000 + 0x300, val, 0, t)
  | .ringEnable org r aux t => some (org, 0x500000 + 0x100 * r.val + 0x20, 1#32, aux, t)
  | .ringDisable org r t => some (org, 0x500000 + 0x100 * r.val + 0x20, 2#32, 0, t)
  | .ringDoorbell org r val t => some (org, 0x500000 + 0x100 * r.val + 0x18, val, 0, t)
  | .intAck org v t => some (org, 0x508000 + 0x820, BitVec.ofNat 32 v.val, 0, t)
  | .intPendClear org w val t => some (org, 0x508000 + (0x800 + 4 * w.val), val, 0, t)
  | .portEn org p t => some (org, 0x600000 + 0x1000 * p.val + 0x1004, 1#32, 0, t)
  | .portDis org p t => some (org, 0x600000 + 0x1000 * p.val + 0x1004, 2#32, 0, t)
  | .portRetrain org p force t => some (org, 0x600000 + 0x1000 * p.val + 0x1004, BitVec.ofNat 32 (4 + bitAt force 3), 0, t)
  | .svcLock org t => some (org, 0x20000 + 0xC8, 1#32, 0, t)
  | .hkOverrideRelease org t => some (org, 0x30000 + 0x4, 1#32, 0, t)
  | .dipGateWrite org val t => some (org, 0x30000 + 0x184, val, 0, t)
  | .bootGo org t => some (org, 0x218, 1#32, 0, t)
  | .keyProgram org k t => some (org, 0x244, BitVec.ofNat 32 (k.val + 256), 0, t)
  | .keyRevoke org k t => some (org, 0x244, BitVec.ofNat 32 (k.val + 512), 0, t)
  | .setSecure org t => some (org, 0x244, 0x10000#32, 0, t)
  | .dmpEngage org t => some (org, 0x800000 + 0x4, 1#32, 0, t)
  | .dmpRelease org t => some (org, 0x800000 + 0x4, 2#32, 0, t)
  | _ => none

/-- A write of the register `x` at the address `a` is received: the die is up, the register may be written by this origin with this value (R9,
R10, R470), the die is far enough in its boot (R433), and the log takes the entry (R409). -/
structure State.Receives (s : State) (org : Origin) (a : Nat) (val : Word) (x : RegAt) : Prop where
  up : s.halted = false
  named : regAt a = some x
  writable : x.rd.acc ≠ .ro ∧ x.rd.acc ≠ .rc
  origin : s.originOk x org val = true
  ranges : fieldsOk x.rd val = true
  ready : s.boot.stage = .ready ∨ a ≤ 0x2BF ∨ (org ≠ .host0 ∧ org ≠ .host1)
  room : s.log.held.length < 3840

/-- A write as it is received: an RW register takes its fields alone (R8). -/
def recvWrite (org : Origin) (a : Nat) (val : Word) (aux : Nat) (x : RegAt) : Write :=
  ⟨org, a, if x.rd.acc = .rw then BitVec.ofNat 32 (val.toNat &&& fieldMask x.rd) else val, false, aux⟩

/-- A write has its effect where it is received: before RUN, at a register that the spec lets act at once, and of PROG_CTRL a LOAD and a SWITCH that a
rule refuses (R32, R106, R472). -/
def State.actsNow (s : State) (x : RegAt) (w : Write) : Bool :=
  !s.time.running || x.rd.imm || (x.blk == .ch && x.off == Reg.PROG_CTRL && (w.val == 1#32 || (bit w.val 1 && !s.writeOk x w)))

/-- The row's write is accepted and has its effect: `P b u` holds of the states before and after it. While the stoke runs the write waits for the
boundary (R31), where it takes effect from whatever state `b` the boundary then has, unless a rule refuses it; before RUN, and at a register
that the spec lets act at once, the command itself has the effect (R32, R472). -/
def RowActs (s : State) (i : Instr) (P : State → State → Prop) : Prop :=
  ∀ org addr val aux t x, regCmd i = some (org, addr, val, aux, t) → (s.advance t).Receives org addr val x →
    let w := recvWrite org addr val aux x
    ((s.advance t).actsNow x w = false →
      Answers (exec i s) (fun u => u = { s.advance t with staged := s.staged ++ [w] })
      ∧ ∀ b : State, b.time.running = true → b.writeOk x w = true → P b (b.writeEffect x w))
    ∧ ((s.advance t).actsNow x w = true → (s.advance t).writeOk x w = true → Answers (exec i s) (P (s.advance t)))

end Sys2Proof.Machine
end

