-- ==== Sys2Proof/Certificates/Slice0/Obligations.lean ====
section
/-! DEFINITION. The statements for the provers. -/

open Sys2Proof Sys2Proof.Machine

/-! The instruction set of the Tuikin engines (chapter 03). -/

/-- R65, R60, R61: each integer function of one cycle computes its result from the registers as they stand, writes it to w[d] (w0
discards it), costs one cycle beside its stalls, and changes nothing but its own engine. -/
def Obligations.IntegerFunctionsComputeR65 : Prop :=
  ∀ (s : State) (c : Ch) (d a b : Reg), Issues s c [d, a, b] false false 1 → s.staysInBank c →
    let x (u : Core) := u.r a
    let y (u : Core) := u.r b
    let n (u : Core) : Nat := (u.r b).toNat % 32
    let gives (i : Instr) (f : Core → Word) : Prop := exec i s = s.retires c [d, a, b] false 1 fun u => u.put d (f u)
    gives (.add c d a b) (fun u => x u + y u) ∧ gives (.sub c d a b) (fun u => x u - y u)
    ∧ gives (.and c d a b) (fun u => x u &&& y u) ∧ gives (.or c d a b) (fun u => x u ||| y u)
    ∧ gives (.xor c d a b) (fun u => x u ^^^ y u) ∧ gives (.andn c d a b) (fun u => x u &&& ~~~ y u)
    ∧ gives (.shl c d a b) (fun u => x u <<< n u) ∧ gives (.shr c d a b) (fun u => x u >>> n u)
    ∧ gives (.sar c d a b) (fun u => (x u).sshiftRight (n u)) ∧ gives (.ror c d a b) (fun u => (x u).rotateRight (n u))
    ∧ gives (.min c d a b) (fun u => if (y u).slt (x u) then y u else x u)
    ∧ gives (.max c d a b) (fun u => if (x u).slt (y u) then y u else x u)
    ∧ gives (.minu c d a b) (fun u => if (y u).ult (x u) then y u else x u)
    ∧ gives (.maxu c d a b) (fun u => if (x u).ult (y u) then y u else x u)
    ∧ gives (.slt c d a b) (fun u => if (x u).slt (y u) then 1#32 else 0#32)
    ∧ gives (.sltu c d a b) (fun u => if (x u).ult (y u) then 1#32 else 0#32)
    ∧ gives (.adds c d a b) (fun u => BitVec.ofInt 32 (max (-(2 ^ 31)) (min (2 ^ 31 - 1) ((x u).toInt + (y u).toInt))))
    ∧ gives (.subs c d a b) (fun u => BitVec.ofInt 32 (max (-(2 ^ 31)) (min (2 ^ 31 - 1) ((x u).toInt - (y u).toInt))))
    ∧ gives (.mul c d a b) (fun u => x u * y u)
    ∧ gives (.mulh c d a b) (fun u => BitVec.ofInt 32 ((x u).toInt * (y u).toInt / 2 ^ 32))
    ∧ gives (.mulhu c d a b) (fun u => BitVec.ofNat 32 ((x u).toNat * (y u).toNat / 2 ^ 32))
    ∧ gives (.mac c d a b) (fun u => u.r d + x u * y u)

/-- R65: ABS, where the most negative number gives the most positive, CLZ, and the Q products: the exact product and r = 2^(s−1), 0 for s = 0,
are shifted right arithmetically by s; QMAC adds w[d]; both are held to 32 bits. -/
def Obligations.AbsLeadingZerosAndScaledProductsR65 : Prop :=
  ∀ (st : State) (c : Ch) (d a b : Reg) (sh : Fin 32), st.staysInBank c →
    (Issues st c [d, a] false false 1 →
      exec (.abs c d a) st = st.retires c [d, a] false 1 (fun u => u.put d
        (if u.r a = 0x80000000#32 then 0x7FFFFFFF#32 else if (u.r a).msb then -(u.r a) else u.r a))
      ∧ ∃ z : Word → Word, exec (.clz c d a) st = st.retires c [d, a] false 1 (fun u => u.put d (z (u.r a)))
        ∧ z 0#32 = 32#32 ∧ ∀ x : Word, x ≠ 0#32 → (z x).toNat < 32 ∧ x.toNat / 2 ^ (31 - (z x).toNat) = 1)
    ∧ (Issues st c [d, a, b] false false 1 →
      let r : Int := if sh.val = 0 then 0 else 2 ^ (sh.val - 1)
      let q (u : Core) : Int := ((u.r a).toInt * (u.r b).toInt + r) / 2 ^ sh.val
      let sat (i : Int) : Word := BitVec.ofInt 32 (max (-(2 ^ 31)) (min (2 ^ 31 - 1) i))
      exec (.qmul c d a b sh) st = st.retires c [d, a, b] false 1 (fun u => u.put d (sat (q u)))
      ∧ exec (.qmac c d a b sh) st = st.retires c [d, a, b] false 1 (fun u => u.put d (sat ((u.r d).toInt + q u))))

/-- R65, R66, R60: division costs 16 cycles, never traps and sets no flag; its corner cases are those of R66's table. -/
def Obligations.DivisionAndItsCornersR66 : Prop :=
  ∀ (s : State) (c : Ch) (d a b : Reg) (sh : Fin 32), Issues s c [d, a, b] false false 16 → s.staysInBank c →
    let gives (i : Instr) (f : Word → Word → Word) : Prop :=
      exec i s = s.retires c [d, a, b] false 16 fun u => u.put d (f (u.r a) (u.r b))
    let sat (i : Int) : Word := BitVec.ofInt 32 (max (-(2 ^ 31)) (min (2 ^ 31 - 1) i))
    let byZero (x : Word) : Word := if x.msb then 0x80000000#32 else 0x7FFFFFFF#32
    gives (.div c d a b) (fun x y => if y = 0#32 then byZero x
      else if x = 0x80000000#32 ∧ y = 0xFFFFFFFF#32 then 0x7FFFFFFF#32 else BitVec.ofInt 32 (x.toInt.tdiv y.toInt))
    ∧ gives (.divu c d a b) (fun x y => if y = 0#32 then 0xFFFFFFFF#32 else BitVec.ofNat 32 (x.toNat / y.toNat))
    ∧ gives (.rem c d a b) (fun x y => if y = 0#32 then x
      else if x = 0x80000000#32 ∧ y = 0xFFFFFFFF#32 then 0#32 else BitVec.ofInt 32 (x.toInt.tmod y.toInt))
    ∧ gives (.remu c d a b) (fun x y => if y = 0#32 then x else BitVec.ofNat 32 (x.toNat % y.toNat))
    ∧ gives (.qdiv c d a b sh) (fun x y => if y = 0#32 then byZero x else sat ((x.toInt * 2 ^ sh.val).tdiv y.toInt))

/-- R67, R68: the immediate instructions and the bit fields, whose reserved operations decode to nothing; a field that would pass bit 31
ends there. -/
def Obligations.ImmediatesAndBitFieldsR67R68 : Prop :=
  ∀ (s : State) (c : Ch) (d a : Reg) (imm : BitVec 16) (n pos len1 : Fin 32),
    let bf (op : Nat) := decodeWord c (0x0A * 2 ^ 26 + d.val * 2 ^ 21 + a.val * 2 ^ 16 + op * 2 ^ 10 + pos.val * 2 ^ 5 + len1.val)
    bf 0 = some (.extu c d a pos len1) ∧ bf 1 = some (.exts c d a pos len1) ∧ bf 2 = some (.ins c d a pos len1)
    ∧ (∀ op, 3 ≤ op → op < 64 → bf op = none)
    ∧ (s.staysInBank c → Issues s c [d, a] false false 1 →
    let gives (i : Instr) (f : Core → Word) : Prop := exec i s = s.retires c [d, a] false 1 fun u => u.put d (f u)
    let x (u : Core) := u.r a
    let len : Nat := min (len1.val + 1) (32 - pos.val)
    gives (.addi c d a imm) (fun u => x u + imm.signExtend 32) ∧ gives (.andi c d a imm) (fun u => x u &&& imm.zeroExtend 32)
    ∧ gives (.ori c d a imm) (fun u => x u ||| imm.zeroExtend 32) ∧ gives (.xori c d a imm) (fun u => x u ^^^ imm.zeroExtend 32)
    ∧ (Issues s c [d] false false 1 →
        exec (.lui c d imm) s = s.retires c [d] false 1 fun u => u.put d (BitVec.ofNat 32 (imm.toNat * 2 ^ 16)))
    ∧ gives (.shi c d a 0 n) (fun u => x u <<< n.val) ∧ gives (.shi c d a 1 n) (fun u => x u >>> n.val)
    ∧ gives (.shi c d a 2 n) (fun u => (x u).sshiftRight n.val) ∧ gives (.shi c d a 3 n) (fun u => (x u).rotateRight n.val)
    ∧ gives (.extu c d a pos len1) (fun u => BitVec.ofNat 32 ((x u).toNat / 2 ^ pos.val % 2 ^ len))
    ∧ gives (.exts c d a pos len1) (fun u =>
        let f := (x u).toNat / 2 ^ pos.val % 2 ^ len
        if f.testBit (len - 1) then BitVec.ofNat 32 (f + 2 ^ 32 - 2 ^ len) else BitVec.ofNat 32 f)
    ∧ ∃ ins : Word → Word → Word, gives (.ins c d a pos len1) (fun u => ins (u.r d) (x u))
        ∧ ∀ (v w : Word) (i : Nat), i < 32 → (ins v w).getLsbD i =
            if pos.val ≤ i ∧ i < pos.val + len then w.getLsbD (i - pos.val) else v.getLsbD i)

/-- R64, R65, R67, R69: the flags of CMP, CMPI, TST and FCMP, and SEL's choice by a condition; a reserved condition traps with 0x01
and is no completion. -/
def Obligations.FlagsAndConditionsR64R65 : Prop :=
  ∀ (s : State) (c : Ch) (d a b : Reg) (imm : BitVec 16) (k : BitVec 5), s.staysInBank c →
    let sub (x y : Word) : Flg := ⟨x == y, (x - y).msb, y.ule x, decide ((x.toInt - y.toInt) ≠ (x - y).toInt)⟩
    let cond (f : Flg) : Bool := (match (k.extractLsb' 0 3).toNat with
      | 0 => true | 1 => f.z | 2 => f.n | 3 => f.c | 4 => f.v | 5 => f.c && !f.z | 6 => f.n == f.v
      | _ => !f.z && f.n == f.v) != k.getLsbD 4
    (Issues s c [a, b] false false 1 →
      exec (.cmp c a b) s = s.retires c [a, b] false 1 (fun u => u.setFlg (sub (u.r a) (u.r b)))
      ∧ exec (.tst c a b) s = s.retires c [a, b] false 1
          (fun u => u.setFlg ⟨(u.r a &&& u.r b) == 0#32, (u.r a &&& u.r b).msb, false, false⟩)
      ∧ exec (.fcmp c a b) s = s.retires c [a, b] false 1 (fun u =>
          { u.setFlg (match fcmp (u.r a) (u.r b) with
              | some .lt => ⟨false, true, false, false⟩ | some .eq => ⟨true, false, true, false⟩
              | some .gt => ⟨false, false, true, false⟩ | none => ⟨false, false, false, true⟩)
            with pend := u.pend ++ [⟨0, { nv := (f32 (u.r a)).isSig || (f32 (u.r b)).isSig }, (s.engC c).issueAt [a, b] false + 1⟩] }))
    ∧ (Issues s c [a] false false 1 →
      exec (.cmpi c a imm) s = s.retires c [a] false 1 (fun u => u.setFlg (sub (u.r a) (imm.signExtend 32))))
    ∧ (Issues s c [d, a, b] false false 1 → k.getLsbD 3 = false →
      exec (.sel c d a b k) s = s.retires c [d, a, b] false 1 (fun u => u.put d (if cond u.flg then u.r a else u.r b)))

/-- R69, R58, R60: the binary32 instructions: their cost, the result, written where no instruction reads it before it is usable, and the
flags that join FSTAT once it is: 3 cycles after the issue, 1 or 16. -/
def Obligations.BinaryInstructionsCompleteR69 : Prop :=
  ∀ (s : State) (c : Ch) (d a b : Reg) (sh : Fin 32), s.staysInBank c →
    let gives (i : Instr) (uses : List Reg) (cost lat : Nat) (f : Core → Word × FFlags) : Prop :=
      Issues s c (d :: uses) false false cost →
      exec i s = s.retires c (d :: uses) false cost fun u =>
        { u.put d (f u).1 with pend := u.pend ++ [⟨d, (f u).2, (s.engC c).issueAt (d :: uses) false + lat⟩] }
    let w (r : Nat × FFlags) : Word × FFlags := (BitVec.ofNat 32 r.1, r.2)
    let x (u : Core) := f32 (u.r a)
    let y (u : Core) := f32 (u.r b)
    gives (.fadd c d a b) [a, b] 1 3 (fun u => w (fmt32.addV (x u) (y u)))
    ∧ gives (.fsub c d a b) [a, b] 1 3 (fun u => w (fmt32.addV (x u) (y u).neg))
    ∧ gives (.fmul c d a b) [a, b] 1 3 (fun u => w (fmt32.mulV (x u) (y u)))
    ∧ gives (.fmac c d a b) [a, b] 1 3 (fun u => fmacW (u.r d) (u.r a) (u.r b))
    ∧ gives (.fdiv c d a b) [a, b] 16 16 (fun u => w (fmt32.divV (x u) (y u)))
    ∧ gives (.fsqrt c d a) [a] 16 16 (fun u => w (fmt32.sqrtV (x u)))
    ∧ gives (.fcvtws c d a) [a] 1 3 (fun u => fToW (u.r a) 0)
    ∧ gives (.fcvtqs c d a sh) [a] 1 3 (fun u => fToW (u.r a) sh.val)
    ∧ gives (.fcvtsw c d a) [a] 1 3 (fun u => w (fmt32.round (u.r a).msb (u.r a).toInt.natAbs 0))
    ∧ gives (.fcvtsq c d a sh) [a] 1 3 (fun u => w (fmt32.round (u.r a).msb (u.r a).toInt.natAbs (-(sh.val : Int))))
    ∧ gives (.fmin c d a b) [a, b] 1 1 (fun u => fminW (u.r a) (u.r b))
    ∧ gives (.fmax c d a b) [a, b] 1 1 (fun u => fmaxW (u.r a) (u.r b))
    ∧ gives (.fabs c d a) [a] 1 1 (fun u => ((u.r a).setWidth 31 |>.setWidth 32, {}))
    ∧ gives (.fneg c d a) [a] 1 1 (fun u => (u.r a ^^^ BitVec.twoPow 32 31, {}))

/-- R57: whatever the operands, a result of the arithmetic functions is the one quiet NaN 0x7FC0_0000 if it is a NaN, and is never
subnormal. -/
def Obligations.ResultsAreCanonicalR57 : Prop :=
  ∀ x y z : Word,
    let okay (w : Word) : Prop :=
      ((w.toNat / 2 ^ 23 % 256 = 255 ∧ w.toNat % 2 ^ 23 ≠ 0) → w = 0x7FC00000#32) ∧ (w.toNat / 2 ^ 23 % 256 = 0 → w.toNat % 2 ^ 23 = 0)
    okay (fadd x y) ∧ okay (fsub x y) ∧ okay (fmul x y) ∧ okay (fmacW z x y).1 ∧ okay (fdiv x y) ∧ okay (fsqrt x)
    ∧ okay (wToF x 0).1 ∧ okay (fminW x y).1 ∧ okay (fmaxW x y).1

/-- R69: a NaN operand of FMIN and FMAX yields the other operand, −0 lies below +0; FCVTWS and FCVTQS give 0 with NV for a NaN and
saturate with NV. -/
def Obligations.SpecialOperandsR69 : Prop :=
  ∀ x : Word, ∀ n : Nat,
    (fIsNan x = false → x.toNat / 2 ^ 23 % 256 ≠ 0 → (fminW 0x7FC00000#32 x).1 = x ∧ (fmaxW x 0x7FC00000#32).1 = x)
    ∧ (fminW 0#32 0x80000000#32).1 = 0x80000000#32 ∧ (fmaxW 0x80000000#32 0#32).1 = 0#32
    ∧ (fIsNan x = true → fToW x n = (0#32, { nv := true }))
    ∧ (fle 0x4F000000#32 x = true → fToW x n = (0x7FFFFFFF#32, { nv := true }))
    ∧ (flt x 0xCF000000#32 = true → fToW x n = (0x80000000#32, { nv := true }))

/-- R70–R72, R75: a taken branch, J, CALL and RET cost two cycles, a branch not taken and LOOP one, JT three; a transfer removes the loops
whose body it leaves (R74), CALL pushes the address after it, RET takes it back, LOOP sets up its loop or passes over its body. -/
def Obligations.ControlTransfersR70R72 : Prop :=
  ∀ (s : State) (c : Ch), let u := s.engC c
    (∀ k off, Issues s c [] false true 2 → condOk k = true → condHolds k u.flg = true → ∀ tgt : Nat, (tgt : Int) = u.pc + off.toInt →
      tgt ≤ 0x1FFF → exec (.b c k off) s = s.transfers c [] 2 tgt fun v => v.leave tgt)
    ∧ (∀ k off, Issues s c [] false true 1 → s.staysInBank c → condOk k = true → condHolds k u.flg = false →
      exec (.b c k off) s = s.retires c [] false 1 id)
    ∧ (∀ tgt : BitVec 13, Issues s c [] false true 2 →
      exec (.j c tgt) s = s.transfers c [] 2 tgt.toNat fun v => v.leave tgt.toNat)
    ∧ (∀ tgt : BitVec 13, Issues s c [] false true 2 → u.calls.length < 8 →
      exec (.call c tgt) s = s.transfers c [] 2 tgt.toNat fun v => { v with calls := (u.pc + 1) :: v.calls })
    ∧ (∀ a r, Issues s c [] false true 2 → u.calls = a :: r → a ≤ 0x1FFF →
      exec (.ret c) s = s.transfers c [] 2 a fun v => { v with calls := r })
    ∧ (∀ (a : Reg) (n : BitVec 10), Issues s c [a] false true 3 →
      let w := u.pc + 1 + min (u.r a).toNat n.toNat
      let x := s.word (imemBase (ownEng c) s.ch[c].bankB + 4 * w)
      w ≤ 0x1FFF → s.isBad (imemBase (ownEng c) s.ch[c].bankB + 4 * w) = false → x.toNat < 0x2000 →
      exec (.jt c a n) s = s.transfers c [a] 3 x.toNat fun v => v.leave x.toNat)
    ∧ (∀ (n : BitVec 10) (b : Reg) (m : BitVec 11), Issues s c [b] false true 1 → n ≠ 0#10 → m ≠ 0#11 → u.r b ≠ 0#32 →
      u.loops.length < 4 → (∀ f r, u.loops = f :: r → u.pc + n.toNat < f.stop) → u.pc < 0x1FFF →
      exec (.loop c n b m) s = s.transfers c [b] 1 (u.pc + 1) fun v =>
        { v with loops := ⟨u.pc + 1, u.pc + n.toNat, min (u.r b).toNat m.toNat⟩ :: v.loops })
    ∧ (∀ (n : BitVec 10) (b : Reg) (m : BitVec 11), Issues s c [b] false true 2 → n ≠ 0#10 → m ≠ 0#11 → u.r b = 0#32 →
      (∀ f r, u.loops = f :: r → u.pc + n.toNat < f.stop) → u.pc + 1 + n.toNat ≤ 0x1FFF → exec (.loop c n b m) s = s.transfers c [b] 2 (u.pc + 1 + n.toNat) id)

/-- R75, R58, R63: END of the STOKE entry ends the stoke's program, END of the LAYER entry starts the STOKE entry with registers, flags, loops and
calls cleared, END of the FAULT entry has run the FAULT entry; FSTAT is gathered, results still waiting are dropped. -/
def Obligations.EndFinishesTheEntryR75 : Prop :=
  ∀ (s : State) (c : Ch), Issues s c [] false true 1 → s.canon = true →
    let u := s.engC c
    let t := u.issueAt [] false
    let f := (u.fold t).fstat
    ∃ s', exec (.endEntry c false) s = .next s' ∧ (∀ e, e ≠ s.engOf c → s'.eng[e] = s.eng[e]) ∧ s'.sram = s.sram
      ∧ s'.reg (chReg c Reg.ENG_FSTAT) = s.reg (chReg c Reg.ENG_FSTAT) ||| f.zeroExtend 32
      ∧ (∀ a, a ≠ chReg c Reg.ENG_FSTAT → s'.reg a = s.reg a)
      ∧ (let v := s'.eng[s.engOf c]
         v.cycle = t + 1 ∧ v.pend = [] ∧
         match u.entry with
         | .stoke => v.run = .idle ∧ s'.ch = s.ch
         | .fault => v.run = .idle ∧ s'.ch[c].fRan = true
         | .layer => v.run = .run ∧ v.entry = .stoke ∧ v.w = Vector.replicate 32 0#32 ∧ v.flg = ⟨false, false, false, false⟩
             ∧ v.fstat = 0#5 ∧ v.loops = [] ∧ v.calls = [] ∧ ∀ m, s.ch[c].active = some m → v.pc = m.entryStoke)

/-- R76, R60: a load of a word, halfword or byte from DMEM, little-endian, extended as its mnemonic says; nothing but its engine changes. -/
def Obligations.LoadsReadDmemR76 : Prop :=
  ∀ (s : State) (c : Ch) (d a : Reg) (imm : BitVec 16), Issues s c [a, d] false false 2 → s.staysInBank c →
    let at_ : Int := ((s.engC c).r a).toInt + imm.toInt
    let p : Nat := 0x1600000 + 0x20000 * (s.dmemEng c).val + 0x10000 + at_.toNat
    let good (n : Nat) : Prop := 0 ≤ at_ ∧ at_ + n ≤ 0x10000 ∧ (n : Int) ∣ at_ ∧ s.isBad p = false
    let gives (i : Instr) (v : Word) : Prop := exec i s = s.retires c [a, d] false 2 fun u => u.put d v
    (good 4 → gives (.ldw c d a imm) (s.word p))
    ∧ (good 2 → gives (.ldh c d a imm) ((s.byte (p + 1) ++ s.byte p).signExtend 32))
    ∧ (good 2 → gives (.ldhu c d a imm) ((s.byte (p + 1) ++ s.byte p).zeroExtend 32))
    ∧ (good 1 → gives (.ldb c d a imm) ((s.byte p).signExtend 32))
    ∧ (good 1 → gives (.ldbu c d a imm) ((s.byte p).zeroExtend 32))

/-- R76, R52: a store takes effect at once on the bytes it names, at the address w[a] + sext(imm) of the program's DMEM, and on no other
byte; beside memory and its check bits only the engine changes, and there no register and no flag. -/
def Obligations.StoresWriteTheirBytesAloneR76 : Prop :=
  ∀ (s : State) (c : Ch) (d a : Reg) (imm : BitVec 16), Issues s c [a, d] false false 1 → s.staysInBank c → s.canon = true →
    let at_ : Int := ((s.engC c).r a).toInt + imm.toInt
    let p : Nat := 0x1600000 + 0x20000 * (s.dmemEng c).val + 0x10000 + at_.toNat
    let w := (s.engC c).r d
    let stores (i : Instr) (n : Nat) : Prop := 0 ≤ at_ → at_ + n ≤ 0x10000 → (n : Int) ∣ at_ →
      ∃ s', exec i s = .next s' ∧ s.retires c [a, d] false 1 id = .next { s' with sram := s.sram, bad := s.bad }
        ∧ (∀ k, k < n → s'.byte (p + k) = w.extractLsb' (8 * k) 8)
        ∧ ∀ x, x < p ∨ p + n ≤ x → s'.byte x = s.byte x
    stores (.stw c d a imm false) 4 ∧ stores (.sth c d a imm false) 2 ∧ stores (.stb c d a imm false) 1

/-- R77–R79, R101: PRD reads the stoke's snapshot, RING_AVAIL and SYNC_STATE live, a port that is not mapped as 0; PWR stages w[d] for
the boundary behind what the stoke has staged before. -/
def Obligations.PortsReadAndStageR77R78 : Prop :=
  ∀ (s : State) (c : Ch) (d a : Reg) (imm : BitVec 16) (p : Nat), s.staysInBank c →
    (p : Int) = ((s.engC c).r a).toInt + imm.toInt → p ≤ 0x3FF →
    (Issues s c [a, d] false false 4 → p ≠ 0x010 → p ≠ 0x2C1 →
      exec (.prd c d a imm) s = s.retires c [a, d] false 4 fun u => u.put d (alGet (fun _ => 0#32) s.ch[c].snap p))
    ∧ (Issues s c [a, d] false false 4 → p = 0x010 →
      exec (.prd c d a imm) s = s.retires c [a, d] false 4 fun u => u.put d (BitVec.ofNat 32 (s.vec[c].buf.length - (s.engC c).popped)))
    ∧ (Issues s c [a, d] false false 4 → p = 0x2C1 →
      exec (.prd c d a imm) s = s.retires c [a, d] false 4 fun u => u.put d (s.syncState c))
    ∧ (Issues s c [a, d] false false 1 → s.portOk c p ((s.engC c).entry == .fault) = true →
      exec (.pwr c d a imm false) s =
        (s.modCh c fun x => { x with stage := x.stage ++ [(p, (s.engC c).r d)] }).retires c [a, d] false 1 id)

/-- R80, R110: POP into w8, w16 or w24 takes the next record of the prefetch buffer, word j into w[d+j], Z clear; with no record left it
writes zeros and sets Z, and the position stands; V then, and with a record, tells that the ring has stopped. A slot with an uncorrectable word gives
no record: zeros, Z set, V clear (R111). -/
def Obligations.PopTakesTheNextRecordR80 : Prop :=
  ∀ (s : State) (c : Ch) (d : Reg), d.val % 8 = 0 → d ≠ 0 →
    Issues s c ((List.range 8).map fun i => (⟨(d.val + i) % 32, Nat.mod_lt _ (by decide)⟩ : Reg)) false false 6 → s.staysInBank c →
    let u := s.engC c
    let regs := (List.range 8).map fun i => (⟨(d.val + i) % 32, Nat.mod_lt _ (by decide)⟩ : Reg)
    ∃ s', exec (.pop c d false) s = .next s' ∧ s'.sram = s.sram ∧ (∀ e, e ≠ s.engOf c → s'.eng[e] = s.eng[e])
      ∧ (let v := s'.eng[s.engOf c]
         v.cycle = u.issueAt regs false + 6 ∧ (∀ x, x ∉ regs → v.r x = u.r x) ∧ v.n = false ∧ v.c = false
         ∧ (s.vec[c].buf.length ≤ u.popped → s' = { s with eng := s'.eng } ∧ v.v = s.vecStopped c ∧ v.z = true ∧ v.popped = u.popped ∧ ∀ x ∈ regs, v.r x = 0#32)
         ∧ (∀ r, s.vec[c].buf[u.popped]? = some r → r.bytes.length = 32 →
             (∀ i, i < 8 → s.isBad (vecSlot c (s.vec[c].stream + u.popped) + 4 * i) = false) →
             s' = { s with eng := s'.eng } ∧ v.v = s.vecStopped c ∧ v.z = false ∧ v.popped = u.popped + 1
             ∧ ∀ j : Fin 8, ∀ x : Reg, x.val = d.val + j.val → v.r x = nthD (wordsLE r.bytes) j.val 0#32)
         ∧ (u.popped < s.vec[c].buf.length → (∃ i, i < 8 ∧ s.isBad (vecSlot c (s.vec[c].stream + u.popped) + 4 * i) = true) →
             v.v = false ∧ v.z = true ∧ v.popped = u.popped ∧ ∀ x ∈ regs, v.r x = 0#32))

/-- R81: LUT's word; it reads its table with the index held inside it, or interpolates with ten fraction bits, rounded; an interpolated value of
neighbours lies between them, and an empty table reads 0. An uncorrectable entry is read by its last good value (R19); it is counted, and nothing else
comes of it. -/
def Obligations.LutReadsItsTableR81 : Prop :=
  ∀ (s : State) (c : Ch) (d a : Reg) (k : Fin 8) (m : Bool),
    decodeWord c (0x1B * 2 ^ 26 + d.val * 2 ^ 21 + a.val * 2 ^ 16 + k.val * 2 ^ 13 + (if m then 2 ^ 12 else 0)) = some (.lut c d a k m)
    ∧ (∀ n, 0 < n → n < 2 ^ 12 → decodeWord c (0x1B * 2 ^ 26 + d.val * 2 ^ 21 + a.val * 2 ^ 16 + k.val * 2 ^ 13 + (if m then 2 ^ 12 else 0) + n) = none)
    ∧ (Issues s c [d, a] false false 2 → s.staysInBank c →
    let tab := nthD s.ch[c].luts k.val []
    ∃ (f : Word → Word) (v : State), exec (.lut c d a k m) s = v.retires c [d, a] false 2 (fun u => u.put d (f (u.r a)))
      ∧ v = { s with regs := v.regs, clk := v.clk } ∧ ((∀ i, i < tab.length → s.isBad (lutSetAt c.val + 4096 * k.val + 4 * i) = false) → v = s)
      ∧ (tab = [] → ∀ x, f x = 0#32)
      ∧ (tab ≠ [] → m = false → ∀ x : Word, tab[min x.toNat (tab.length - 1)]? = some (f x))
      ∧ (m = true → ∀ x : Word, tab ≠ [] → tab.length - 1 ≤ x.toNat / 1024 → tab[tab.length - 1]? = some (f x))
      ∧ (m = true → ∀ (x y z : Word), tab[x.toNat / 1024]? = some y → tab[x.toNat / 1024 + 1]? = some z →
          (f x).toInt = y.toInt + ((z.toInt - y.toInt) * (x.toNat % 1024 : Nat) + 512) / 1024
          ∧ min y.toInt z.toInt ≤ (f x).toInt ∧ (f x).toInt ≤ max y.toInt z.toInt))

/-- R82–R84: outside the FAULT entry and with fewer than eight queries in the stoke, EMQ costs 24 cycles and gives the sum of the ember map, with
Z and +0.0 where the map is disabled; GDQ costs 12 and gives the guard's answer for the descriptor in DMEM, with Z for a start at once
and V and 0xFFFF_FFFF for none. -/
def Obligations.QueriesAnswerR82R83 : Prop :=
  ∀ (s : State) (c : Ch) (d a b : Reg), s.staysInBank c → (s.engC c).entry ≠ .fault →
    (Issues s c [a, b, d] false false 24 → (s.engC c).emqs < 8 →
      let q := s.emQuery ((s.engC c).r a).toInt ((s.engC c).r b).toInt
      exec (.emq c d a b false) s = q.2.retires c [a, b, d] false 24 (fun u =>
        { (u.put d q.1.1).setFlg ⟨q.1.2.1, false, false, q.1.2.2⟩ with emqs := u.emqs + 1 })
      ∧ (s.emOn = false → q = ((0#32, true, false), s)))
    ∧ (Issues s c [a, d] false false 12 → (s.engC c).gdqs < 8 → ((s.engC c).r a).toNat % 4 = 0 → ((s.engC c).r a).toNat ≤ 0xFFE0 →
      let p := 0x1600000 + 0x20000 * (s.dmemEng c).val + 0x10000 + ((s.engC c).r a).toNat
      (∀ i, i < 8 → s.isBad (p + 4 * i) = false) →
      let q := s.gdQuery c ((List.range 8).map fun i => s.word (p + 4 * i))
      exec (.gdq c d a false) s = s.retires c [a, d] false 12 (fun u =>
        { (u.put d (match q with | some n => BitVec.ofNat 32 n | none => 0xFFFFFFFF#32)).setFlg ⟨q == some 0, false, q.isNone, false⟩
          with gdqs := u.gdqs + 1 }))

/-- R56, R85, R58: MFS and MTS by their words: MFS reads the special registers: FSTAT once every binary32 result is usable, CYCLE at its issue, the depths of the loop and call stacks,
ENTRY, TRAPINFO in the FAULT entry alone, BANK; MTS writes FSTAT whole. -/
def Obligations.SpecialRegistersR56R85 : Prop :=
  ∀ (s : State) (c : Ch) (d a : Reg), let u := s.engC c
    (∀ k : Fin 32, k.val ≤ 6 → decodeWord c (0x27 * 2 ^ 26 + d.val * 2 ^ 21 + k.val) = some (.mfs c d k))
    ∧ decodeWord c (0x28 * 2 ^ 26 + a.val * 2 ^ 16) = some (.mts c a 0)
    ∧ (∀ n : Nat, n < 2 ^ 16 → 2 ^ 5 ≤ n →
        decodeWord c (0x27 * 2 ^ 26 + d.val * 2 ^ 21 + n) = none ∧ decodeWord c (0x28 * 2 ^ 26 + a.val * 2 ^ 16 + n) = none)
    ∧ (s.staysInBank c →
    (Issues s c [d] true false 1 → exec (.mfs c d 0) s =
      s.retires c [d] true 1 fun v => v.put d ((u.fold (u.issueAt [d] true)).fstat.zeroExtend 32))
    ∧ (Issues s c [d] false false 1 →
      let gives (k : Fin 32) (x : Word) : Prop := exec (.mfs c d k) s = s.retires c [d] false 1 fun v => v.put d x
      gives 1 (BitVec.ofNat 32 (u.issueAt [d] false)) ∧ gives 2 (BitVec.ofNat 32 u.loops.length) ∧ gives 3 (BitVec.ofNat 32 u.calls.length)
      ∧ gives 4 (match u.entry with | .stoke => 0#32 | .layer => 1#32 | .fault => 2#32)
      ∧ gives 5 (if u.entry = .fault then s.ch[c].trapInfo else 0#32) ∧ gives 6 (if s.ch[c].bankB then 1#32 else 0#32))
    ∧ (Issues s c [a] true false 1 →
      exec (.mts c a 0) s = s.retires c [a] true 1 fun v => { v with fstat := (v.r a).setWidth 5 }))

/-- R86, R87, R64, R70–R73, R76, R77, R84: where an instruction traps, and what the trap leaves. -/
def Obligations.TrapsStopTheEngineR86R87 : Prop :=
  ∀ (s : State) (c : Ch) (d a b : Reg) (imm : BitVec 16), s.canon = true → let u := s.engC c
    let traps (i : Instr) (uses : List Reg) (all ctrl : Bool) (code : Nat) : Prop :=
      Issues s c uses all ctrl 1 → ∃ s', exec i s = .next s' ∧ Trapped s s' c (u.issueAt uses all) code
    (∀ w : Word, (∀ c', decodeWord c' w.toNat = none) → traps (.illegalInstruction c w) [] false false 0x01)
    ∧ (∀ k : BitVec 5, k.getLsbD 3 = true → ∀ off, traps (.b c k off) [] false true 0x01 ∧ traps (.sel c d a b k) [d, a, b] false false 0x01)
    ∧ ((u.r a).toNat % 4 ≠ 0 → imm = 0#16 → traps (.ldw c d a imm) [a, d] false false 0x02 ∧ traps (.stw c d a imm false) [a, d] false false 0x02)
    ∧ (((u.r a).toInt + imm.toInt < 0 ∨ 0x10000 ≤ (u.r a).toInt + imm.toInt) →
        traps (.ldb c d a imm) [a, d] false false 0x02 ∧ traps (.stb c d a imm false) [a, d] false false 0x02)
    ∧ (((u.r a).toInt + imm.toInt < 0 ∨ 0x3FF < (u.r a).toInt + imm.toInt) →
        traps (.prd c d a imm) [a, d] false false 0x03 ∧ traps (.pwr c d a imm false) [a, d] false false 0x03)
    ∧ (∀ p : Nat, (p : Int) = (u.r a).toInt + imm.toInt → p ≤ 0x3FF → s.portOk c p (u.entry == .fault) = false →
        traps (.pwr c d a imm false) [a, d] false false 0x04)
    ∧ (∀ n m, n ≠ 0#10 → m ≠ 0#11 → u.r b ≠ 0#32 → u.loops.length = 4 → traps (.loop c n b m) [b] false true 0x05)
    ∧ (∀ n m f r, u.loops = f :: r → f.stop ≤ u.pc + n.toNat → (u.r b = 0#32 ∨ u.loops.length < 4) → traps (.loop c n b m) [b] false true 0x01)
    ∧ (∀ tgt, u.calls.length = 8 → traps (.call c tgt) [] false true 0x06)
    ∧ (u.calls = [] → traps (.ret c) [] false true 0x07)
    ∧ ((u.entry = .fault ∨ u.emqs = 8) → traps (.emq c d a b false) [a, b, d] false false 0x08)
    ∧ ((u.entry = .fault ∨ u.gdqs = 8) → traps (.gdq c d a false) [a, d] false false 0x08)
    ∧ (∀ k off, condOk k = true → condHolds k u.flg = true → ((u.pc : Int) + off.toInt < 0 ∨ 0x1FFF < (u.pc : Int) + off.toInt) →
        traps (.b c k off) [] false true 0x0A)
    ∧ (∀ k : Fin 32, 6 < k.val → traps (.mfs c d k) [d] false false 0x01 ∧ traps (.mts c a k) [a] false false 0x01)
    ∧ ((d.val % 8 ≠ 0 ∨ d = 0) →
        traps (.pop c d false) ((List.range 8).map fun i => (⟨(d.val + i) % 32, Nat.mod_lt _ (by decide)⟩ : Reg)) false false 0x01)

/-- R33, R63: an instruction whose cost would pass the budget is cut off without effect: the engine has overrun and reports the budget plus
one; registers, flags and memory stand. -/
def Obligations.BudgetCutsAnInstructionOffR63 : Prop :=
  ∀ (s : State) (c : Ch) (d a b : Reg) (imm : BitVec 16), (s.engC c).run = .run → s.halted = false → s.isBad (s.fetchAt c) = false →
    let u := s.engC c
    let cut (i : Instr) (uses : List Reg) (cost : Nat) : Prop := s.engBudget (s.engOf c) < u.issueAt uses false + cost →
      ∃ s', exec i s = .next s' ∧ s'.sram = s.sram ∧ s'.regs = s.regs ∧ (∀ e, e ≠ s.engOf c → s'.eng[e] = s.eng[e])
        ∧ (s'.eng[s.engOf c]).run = .overran ∧ (s'.eng[s.engOf c]).cycle = s.engBudget (s.engOf c) + 1
        ∧ (s'.eng[s.engOf c]).w = u.w ∧ (s'.eng[s.engOf c]).flg = u.flg
    cut (.add c d a b) [d, a, b] 1 ∧ cut (.fmac c d a b) [d, a, b] 1 ∧ cut (.div c d a b) [d, a, b] 16 ∧ cut (.fdiv c d a b) [d, a, b] 16
    ∧ cut (.addi c d a imm) [d, a] 1 ∧ cut (.cmp c a b) [a, b] 1
    ∧ (∀ p : Nat, (p : Int) = (u.r a).toInt + imm.toInt → p ≤ 0x3FF → cut (.prd c d a imm) [a, d] 4)

/-- R53, R270, R271: a difference between the two cores stops the engine, with the item of R53 that differs and two cycles after the leading core reached
it; the difference takes the place of the instruction's effect. -/
def Obligations.CoreDifferenceStopsThePairR53 : Prop :=
  ∀ (s : State) (c : Ch) (d a b : Reg) (imm : BitVec 16), let u := s.engC c
    let stops (i : Instr) (uses : List Reg) (ctrl : Bool) (item : Nat) : Prop := Issues s c uses false ctrl 1 →
      ∃ s', exec i s = .next s' ∧ s' = { s with eng := s'.eng } ∧ (∀ e, e ≠ s.engOf c → s'.eng[e] = s.eng[e])
        ∧ (s'.eng[s.engOf c]).run = .mismatched ∧ (s'.eng[s.engOf c]).item = item
        ∧ (s'.eng[s.engOf c]).cycle = u.issueAt uses false + 2 ∧ (s'.eng[s.engOf c]).w = u.w
    (0 ≤ (u.r a).toInt + imm.toInt → (u.r a).toInt + imm.toInt < 0x10000 → stops (.stb c d a imm true) [a, d] false 1)
    ∧ (∀ p : Nat, (p : Int) = (u.r a).toInt + imm.toInt → p ≤ 0x3FF → s.portOk c p (u.entry == .fault) = true →
        stops (.pwr c d a imm true) [a, d] false 2)
    ∧ (d.val % 8 = 0 → d ≠ 0 →
        stops (.pop c d true) ((List.range 8).map fun i => (⟨(d.val + i) % 32, Nat.mod_lt _ (by decide)⟩ : Reg)) false 3)
    ∧ (u.entry ≠ .fault → u.emqs < 8 → stops (.emq c d a b true) [a, b, d] false 4)
    ∧ stops (.endEntry c true) [] true 5
    ∧ ∀ w : Word, (∃ i, decodeWord c w.toNat = some i) → stops (.illegalInstruction c w) [] false 5

/-- The frame of every instruction of the engines but END, whatever its outcome: its own destination registers apart no register changes, no flag but
those of the instructions that set flags; no other engine, no byte of memory but by a store, and of the device's registers only the trap and
error counters. -/
def Obligations.EngineInstructionsFrame : Prop :=
  ∀ (i : Instr) (c : Ch) (ds : List Reg) (s s' : State), engDest i = some (c, ds) → exec i s = .next s' →
    (∀ e, e ≠ s.engOf c → s'.eng[e] = s.eng[e])
    ∧ (∀ r, r ∉ ds → (s'.eng[s.engOf c]).r r = (s.engC c).r r)
    ∧ (setsFlags i = false → (s'.eng[s.engOf c]).flg = (s.engC c).flg)
    ∧ (storesMem i = false → s'.sram = s.sram)
    ∧ (∀ x, x ∉ [chReg c Reg.ENG_TRAP, chReg c Reg.ENG_TRAP_STOKE, chReg c Reg.ENG_FSTAT, chReg c Reg.TRAP_CNT, chReg c Reg.VEC_REFETCH_CNT,
          emReg Reg.EM_UE_CNT, dbgReg Reg.MEM_UE_LAST] → (∀ n, n < 12 → x ≠ dbgReg (Reg.MEM_UE_CNT + 4 * n)) → s'.reg x = s.reg x)
    ∧ s'.time = s.time ∧ s'.las = s.las ∧ s'.loop = s.loop ∧ s'.sv = s.sv ∧ s'.ma = s.ma ∧ s'.cl = s.cl ∧ s'.rings = s.rings
    ∧ s'.staged = s.staged ∧ s'.log = s.log ∧ s'.outs = s.outs ∧ s'.boot = s.boot ∧ s'.pending = s.pending

/-- R76: whatever the outcome of a store, every byte outside those it stores to reads as before: the bytes from w[a] + sext(imm) of the DMEM that the
channel's program works on, computed as the store computes it; an address that traps stores nothing. -/
def Obligations.StoresLeaveOtherBytesAlone : Prop :=
  ∀ (s s' : State) (c : Ch) (d a : Reg) (imm : BitVec 16) (diff : Bool),
    let frame (i : Instr) (n : Nat) : Prop := exec i s = .next s' →
      (dmemAddr ((s.engC c).r a) imm n = none → ∀ x, s'.byte x = s.byte x)
      ∧ ∀ ad, dmemAddr ((s.engC c).r a) imm n = some ad → ∀ x, x < s.dmemOf c + ad ∨ s.dmemOf c + ad + n ≤ x → s'.byte x = s.byte x
    frame (.stw c d a imm diff) 4 ∧ frame (.sth c d a imm diff) 2 ∧ frame (.stb c d a imm diff) 1

/-- R59, R64–R85: decoding the word of a well-formed instruction gives that instruction back, with every operand at every value, and a word
that decodes is the word of its instruction: no two instructions share a word. -/
def Obligations.EncodingAndDecodingAgree : Prop :=
  (∀ (i : Instr) (c : Ch) (w : Nat), wellFormed i = true → engChan i = some c → encodeOp i = some w → decodeWord c w = some (sameCores i))
  ∧ (∀ (c : Ch) (w : Nat) (i : Instr), w < 2 ^ 32 → decodeWord c w = some i →
      encodeOp i = some w ∧ wellFormed i = true ∧ engChan i = some c ∧ sameCores i = i)

/-- The words of chapter 03's worked example decode to the instructions that its table names. -/
def Obligations.WorkedExampleWordsDecode : Prop :=
  decodeWord 0 0x08600004 = some (.addi 0 3 0 4#16) ∧ decodeWord 0 0x08800200 = some (.addi 0 4 0 0x200#16)
  ∧ decodeWord 0 0x00A00003 = some (.or 0 5 0 0) ∧ decodeWord 0 0x94031808 = some (.loop 0 3#10 3 8#11)
  ∧ decodeWord 0 0x40C40000 = some (.ldw 0 6 4 0#16) ∧ decodeWord 0 0x08840004 = some (.addi 0 4 4 4#16)
  ∧ decodeWord 0 0x04A53000 = some (.fadd 0 5 5 6) ∧ decodeWord 0 0x04E5040E = some (.fcvtqs 0 7 5 16)
  ∧ decodeWord 0 0x54E00210 = some (.stw 0 7 0 0x210#16 false) ∧ decodeWord 0 0x98000000 = some (.endEntry 0 false)
  ∧ decodeWord 0 0 = some (.add 0 0 0 0)

/-! Time and the gang (chapter 02). -/

/-- R39–R43: PPS_IN. The first pulse after arming sets the time counter and leaves the stoke, the count and the frequency alone; a pulse within
2,000 ns of its whole second steers by R42, one beyond it steers nothing; 1.5 s without an accepted pulse are holdover; a member's pulse
steers nothing. -/
def Obligations.PulsesSteerTheTimeCounter : Prop :=
  ∀ (s : State) (t : Nat), s.halted = false →
    let a := s.advance t
    let x := s.time
    let ns := a.tai.2 / 4
    let sec : Nat := if ns < 500000000 then a.tai.1 else a.tai.1 + 1
    let e : Int := if ns < 500000000 then (ns : Int) else (ns : Int) - 1000000000
    (s.boot.gangTm = true → x.armed = true → x.autoArmed = false → x.armAt ≠ some a.now → x.armSec < 2 ^ 40 → a.LogOpen →
      Answers (exec (.ppsPulse t) s) fun u => u.tai = (x.armSec, 0) ∧ u.time.armed = false ∧ u.time.unaligned = false
        ∧ u.time.cnt = x.cnt ∧ u.now = a.now ∧ u.time.freqEst = x.freqEst ∧ u.time.slew = x.slew ∧ u.time.lastAcc = some x.armSec
        ∧ Logs a u (0xC0 + 1 * 65536) 0x15 (toW a.tai.1) (toW x.armSec))
    ∧ (∀ k, s.boot.gangTm = true → x.armed = false → x.lastAcc = some k → k < sec → -2000 ≤ e → e ≤ 2000 →
      Answers (exec (.ppsPulse t) s) fun u =>
        let n := sec - k
        let f := x.freqEst - Int.fdiv e (2 * n)
        u.time.phaseErr = e ∧ u.time.freqEst = f ∧ u.time.slew = max (-50000) (min 50000 (f - e)) ∧ u.time.lastAcc = some sec
        ∧ u.time.holdover = false ∧ u.time.ppsStokes = (if n = 1 then x.cnt - x.lastAccCnt else x.ppsStokes)
        ∧ (u.time.locked = true ↔ -20 ≤ e ∧ e ≤ 20 ∧ (x.locked = true ∨ n = 1 ∧ 3 ≤ x.lockRun))
        ∧ u.time.cnt = x.cnt ∧ u.tai = a.tai)
    ∧ (∀ k, s.boot.gangTm = true → x.armed = false → x.lastAcc = some k → (e < -2000 ∨ 2000 < e ∨ sec ≤ k) →
      Answers (exec (.ppsPulse t) s) fun u => u.time.phaseErr = e ∧ u.time.freqEst = x.freqEst ∧ u.time.slew = x.slew
        ∧ u.time.lastAcc = some k ∧ u.time.cnt = x.cnt ∧ u.tai = a.tai
        ∧ (bit (a.reg (stkReg Reg.PPS_CTRL)) 1 = false → u.time.armed = false))
    ∧ (s.boot.gangTm = true → x.holdover = false → x.accAt + 6000000000 ≤ a.tai.1 * 4000000000 + a.tai.2 → a.LogOpen →
      Answers (exec (.ppsHoldover t) s) fun u => u.time.holdover = true ∧ u.time.locked = false
        ∧ u.time.slew = max (-50000) (min 50000 x.freqEst) ∧ u.time.cnt = x.cnt ∧ u.ints.pend.getLsbD 0xC0 = true
        ∧ ∃ o n, Logs a u (0xC0 + 2 * 65536) 0x15 o n)
    ∧ (s.boot.gangTm = false → Answers (exec (.ppsPulse t) s) fun u => u.time.phaseErr = e ∧ u.time.freqEst = x.freqEst
        ∧ u.time.slew = x.slew ∧ u.time.cnt = x.cnt ∧ u.tai = a.tai)

/-- R46–R49: a stamp of the port that is up takes a member from SOLO to ALIGN, and back from HOLDOVER within 2,000 ns, unless it has once stayed there beyond that for its armed lasers; the phase step, LOCKED and HOLDOVER
of R47; the master's conflict and a RATE that differs (R49). -/
def Obligations.GangStatesFollowTheStamps : Prop :=
  ∀ (s : State) (t : Nat), s.halted = false →
    let a := s.advance t
    let g := s.gang
    let atEdge : Prop := s.time.running = true → a.stokeCyc ≤ a.now + 1
    (∀ (p : Fin 2) (cnt sec ns rate arr : Nat), s.lanes.port[p].st = .up → s.lanes.port[otherPort p].st ≠ .up →
      (s.boot.gangTm = false → rate = a.rate →
        Answers (exec (.stokeStamp p cnt sec ns rate arr t) s) fun u =>
          u.gang.masterCnt = cnt ∧ u.gang.masterSec = sec ∧ u.gang.masterNs = ns ∧ u.gang.sinceStamp = 0 ∧ u.gang.phaseErr = a.stampErr p arr
          ∧ u.time.cnt = s.time.cnt ∧ -150000 ≤ u.time.slew ∧ u.time.slew ≤ 150000
          ∧ (g.st = .solo → u.gang.st = .align) ∧ (g.st = .align → u.gang.st = .align) ∧ (g.st = .locked → u.gang.st = .locked)
          ∧ (g.st = .holdover → u.gang.st = if g.away = false ∧ -20000 ≤ u.gang.phaseErr ∧ u.gang.phaseErr ≤ 20000 then .locked
              else if a.anyArmed then .holdover else .align))
      ∧ (s.boot.gangTm = false → rate ≠ a.rate →
        Answers (exec (.stokeStamp p cnt sec ns rate arr t) s) fun u => u.gang = { g with rateMismatch := true } ∧ u.time = s.time)
      ∧ (s.boot.gangTm = true → g.conflict = false → a.LogOpen →
        Answers (exec (.stokeStamp p cnt sec ns rate arr t) s) fun u => u.gang = { g with conflict := true } ∧ u.time = s.time
          ∧ ∃ o n, Logs a u (0xC0 + 6 * 65536) 0x15 o n))
    ∧ (s.time.running = true → a.stokeCyc ≤ a.now + 1 → g.st = .align → g.stepped = false → s.anyArmed = false → s.anyLayer = false →
      Answers (exec (.gangAlignStep t) s) fun u => u.time.cnt = g.masterCnt + g.sinceStamp ∧ u.gang.stepped = true ∧ u.gang.st = .align)
    ∧ (atEdge → g.st = .align → g.stepped = true → 64 ≤ g.lockRun →
      Answers (exec (.gangLock t) s) fun u => u = { a with gang := { g with st := .locked } })
    ∧ (atEdge → g.st = .locked → 64 ≤ g.sinceStamp → a.LogOpen →
      Answers (exec (.gangHoldover t) s) fun u => u.gang = { g with st := .holdover } ∧ u.time = s.time ∧ u.ints.pend.getLsbD 0xC0 = true
        ∧ ∃ o n, Logs a u (0xC0 + 5 * 65536) 0x15 o n)

/-! Registers and the SRAM window (chapters 00, 01, 19, 22). -/

/-- R8, R446, with the register tables of the chapters: every row of the table that is a write of one register writes the value that it names at the address that
the register has. -/
def Obligations.RowsWriteTheirRegisters : Prop :=
  ∀ (i : Instr) (org : Origin) (a : Nat) (val : Word) (aux t : Nat), regCmd i = some (org, a, val, aux, t) → a % 4 = 0 →
    ∀ s : State, exec i s = exec (.registerWrite org a 0xF#4 val aux t) s

/-- R31, R32, R355: a write that is received waits for the boundary while the stoke runs; before RUN, and where the register acts at once, it is logged
and done, unless a rule refuses it. A host's request that is no aligned whole word is discarded and counted. (The motion control registers,
the loop's coefficients and a LOAD beside other commands have rules of their own, stated with their families.) -/
def Obligations.AcceptedWritesWaitForTheBoundaryR31 : Prop :=
  ∀ (s : State) (org : Origin) (addr : Nat) (val : Word) (aux t : Nat), let a := s.advance t
    (∀ x : RegAt, a.Receives org addr val x → addr % 4 = 0 → ¬(x.blk = .ma ∧ x.off = 4) → ¬(x.blk = .ch ∧ isCoef x.off = true) →
      let w := recvWrite org addr val aux x
      (a.actsNow x w = false → ¬(x.blk = .ch ∧ x.off = Reg.PROG_CTRL ∧ bit val 0 = true) →
        Answers (exec (.registerWrite org addr 0xF#4 val aux t) s) fun u => u = { a with staged := s.staged ++ [w] })
      ∧ (a.actsNow x w = true → a.writeOk x w = true →
        Answers (exec (.registerWrite org addr 0xF#4 val aux t) s) fun u => u = (a.logWrite x w (a.peek addr)).wrote x w))
    ∧ (∀ be : BitVec 4, s.halted = false → a.canon = true → (org = .host0 ∨ org = .host1) → (addr % 4 ≠ 0 ∨ be ≠ 0xF#4) →
      Answers (exec (.registerWrite org addr be val aux t) s) fun u =>
        u = { a with regs := u.regs, ints := u.ints, rings := u.rings, outs := u.outs, clk := u.clk }
        ∧ u.reg (hostReg Reg.HOST_ERR_CNT) = satU32 ((a.reg (hostReg Reg.HOST_ERR_CNT)).toNat + 1) ∧ u.ints.pend.getLsbD 0xCC = true)

/-- R396, R447, R470, R409: a write to no register, to one that is only read, by an origin that may not write it, or of a value out of its range has no
effect; it is counted, noted, made pending and logged. So is one that a rule of its register refuses. A host's write that finds the log
full to its limit is counted alone. -/
def Obligations.RefusedWritesAreDeniedR396 : Prop :=
  ∀ (s : State) (org : Origin) (addr : Nat) (val : Word) (aux t : Nat),
    let a := s.advance t
    s.halted = false → a.canon = true → addr % 4 = 0 → (s.boot.stage = .ready ∨ addr ≤ 0x2BF ∨ (org ≠ .host0 ∧ org ≠ .host1)) →
    let announced (u : State) : Prop := u = { a with regs := u.regs, log := u.log, bank := u.bank, ints := u.ints, rings := u.rings, outs := u.outs, clk := u.clk }
    let denied (u : State) : Prop := announced u
      ∧ u.reg (accReg Reg.DENIED_CNT) = satU32 ((a.reg (accReg Reg.DENIED_CNT)).toNat + 1)
      ∧ u.reg (accReg Reg.LAST_DENIED) = BitVec.ofNat 32 (addr % 2 ^ 26) ∧ u.reg (accReg Reg.LAST_DENIED_ORG) = BitVec.ofNat 32 (Origin.code org)
      ∧ u.ints.pend.getLsbD 0xCB = true ∧ (a.LogOpen → a.log.denied < a.denyLimit → ∃ v, Logs a u (addr % 2 ^ 26) 2 (a.peek addr) v)
    (a.log.held.length < 3840 →
      (regAt addr = none ∨ ∃ x, regAt addr = some x ∧
        (x.rd.acc = .ro ∨ x.rd.acc = .rc ∨ a.originOk x org val = false ∨ (ownRange x = false ∧ fieldsOk x.rd val = false))) →
      Answers (exec (.registerWrite org addr 0xF#4 val aux t) s) denied)
    ∧ (∀ x, a.Receives org addr val x → x.blk ≠ .ch → x.blk ≠ .ring → x.blk ≠ .ma → (s.time.running = false ∨ x.rd.imm = true) →
      a.writeOk x (recvWrite org addr val aux x) = false → Answers (exec (.registerWrite org addr 0xF#4 val aux t) s) denied)
    ∧ (∀ x, 3840 ≤ a.log.held.length → (org = .host0 ∨ org = .host1) → regAt addr = some x → loggable x org = true →
      Answers (exec (.registerWrite org addr 0xF#4 val aux t) s) fun u => u = a.bump (accReg Reg.LOG_BLOCK_CNT))

/-- R10, R38, R355, R447: a read answers the register's value; of a WO register or no register 0; an RC register is cleared, and what an event of the same clock
brought to it is held for the next read (R11); the low word
of the stoke count latches the high one; a read that is no aligned whole word answers ones and is counted. -/
def Obligations.RegisterReadsAnswer : Prop :=
  ∀ (s : State) (addr : Nat) (be : BitVec 4) (t : Nat), let a := s.advance t
    s.halted = false →
    (addr % 4 = 0 → be = 0xF#4 → (s.boot.stage = .ready ∨ addr ≤ 0x2BF) →
      (regAt addr = none → Answers (exec (.registerRead addr be t) s) fun u => u = a.out (.data 0))
      ∧ (∀ x, regAt addr = some x → x.rd.acc = .wo → x.blk ≠ .stk → x.blk ≠ .acc →
          Answers (exec (.registerRead addr be t) s) fun u => u = a.out (.data 0))
      ∧ (∀ x, regAt addr = some x → x.rd.acc = .rc →
          (a.clkNote addr = none → Answers (exec (.registerRead addr be t) s) fun u => u = (a.setReg addr 0#32).out (.data (a.peek addr).toNat))
          ∧ ∀ n, a.clkNote addr = some n → Answers (exec (.registerRead addr be t) s) fun u =>
              u = { a with regs := u.regs, clk := u.clk, outs := Out.data n.before.toNat :: a.outs } ∧ (a.canon = true → u.reg addr = n.held))
      ∧ (∀ x, regAt addr = some x → x.rd.acc ≠ .rc → x.blk ≠ .stk → x.blk ≠ .acc →
          Answers (exec (.registerRead addr be t) s) fun u => u = a.out (.data (a.peek addr).toNat)))
    ∧ (s.boot.stage = .ready →
      Answers (exec (.registerRead 0x10010 0xF#4 t) s) (fun u => u.outs.head? = some (.data (s.time.cnt % 2 ^ 32))
        ∧ u.time = { s.time with latCnt := some (BitVec.ofNat 32 (s.time.cnt / 2 ^ 32)) })
      ∧ ∀ v, s.time.latCnt = some v →
        Answers (exec (.registerRead 0x10014 0xF#4 t) s) fun u => u.outs.head? = some (.data v.toNat) ∧ u.time = { s.time with latCnt := none })
    ∧ ((addr % 4 ≠ 0 ∨ be ≠ 0xF#4) → Answers (exec (.registerRead addr be t) s) fun u =>
        u.outs.head? = some (.data 0xFFFFFFFF) ∧ u.ints.pend.getLsbD 0xCC = true
        ∧ u = { a with regs := u.regs, ints := u.ints, rings := u.rings, outs := u.outs, clk := u.clk })

/-- R19, R20, R237, R355, R440: HOST0 writes the dark and flat maps of a STOPPED pipeline and every function the free area, whole words with fresh check bits; any
other word is refused and denied. A read answers the words as they stand, ones for an uncorrectable word, which is counted, and 0 past the memory. -/
def Obligations.Bar2ReachesTheSram : Prop :=
  ∀ (s : State) (org : Origin) (addr : Nat) (w : Word) (t : Nat), let a := s.advance t
    s.halted = false → s.boot.stage = .ready → addr % 4 = 0 → a.canon = true →
    (a.bar2Writable org addr = true → Answers (exec (.bar2Access org addr (some [w]) 0 t) s) fun u =>
        u = { a with sram := u.sram, bad := u.bad } ∧ u.word addr = w ∧ u.isBad addr = false
        ∧ (∀ x, x < addr ∨ addr + 4 ≤ x → u.byte x = a.byte x))
    ∧ (a.bar2Writable org addr = false → addr < 0x3000000 → a.log.held.length < 3840 → Answers (exec (.bar2Access org addr (some [w]) 0 t) s) fun u =>
        u.sram = s.sram ∧ u.reg (accReg Reg.DENIED_CNT) = satU32 ((a.reg (accReg Reg.DENIED_CNT)).toNat + 1))
    ∧ (laidOut addr = true → s.isBad addr = false → addr < 0x3000000 →
        Answers (exec (.bar2Access org addr none 1 t) s) fun u => u = a.out (.data (s.word addr).toNat))
    ∧ (s.isBad addr = true → addr < 0x3000000 → Answers (exec (.bar2Access org addr none 1 t) s) fun u =>
        u.outs.head? = some (.data 0xFFFFFFFF) ∧ u.reg (dbgReg Reg.MEM_UE_LAST) = BitVec.ofNat 32 addr
        ∧ u.reg (dbgReg (Reg.MEM_UE_CNT + 4 * regionOf addr)) = satU32 ((a.reg (dbgReg (Reg.MEM_UE_CNT + 4 * regionOf addr))).toNat + 1))
    ∧ (0x3000000 ≤ addr → Answers (exec (.bar2Access org addr none 1 t) s) fun u => u = a.out (.data 0))

/-! The stoke, programs, vector records and barriers (chapters 02, 04, 05). -/

/-- R36, R37, R26, R47: every boundary of a running stoke moves STOKE_CNT on by one and TAI by the core cycles of a stoke at the RATE in force, 1.25 ns each, and
the stoke keeps running; in a member that takes its step in ALIGN at the boundary both move on from the master's, counted on by the stokes since its stamp. -/
def Obligations.BoundaryCountsOnR36R37 : Prop :=
  ∀ (s : State) (inp : BoundaryIn), s.halted = false → s.time.running = true →
    let x := s.time
    let g := s.gang
    let n : Nat := match s.regF (stkReg Reg.STOKE_CFG) 0 2 with
      | 0 => 8000 | 1 => 5000 | 2 => 4000 | _ => 3200
    ∃ u, exec (.stokeBoundary inp) s = .next u ∧ u.time.running = true
      ∧ (let step : Prop := u.gang.st = .align ∧ u.gang.stepped = true ∧ ¬(g.st = .align ∧ g.stepped = true)
        let q : Nat := g.masterNs * 4 + 5 * n * g.sinceStamp
        (¬step → u.time.cnt = (x.cnt + 1) % 2 ^ 64 ∧ u.time.taiSec = (x.taiSec + (x.taiQ + 5 * n) / 4000000000) % 2 ^ 40
          ∧ u.time.taiQ = (x.taiQ + 5 * n) % 4000000000)
        ∧ (step → u.time.cnt = (g.masterCnt + g.sinceStamp + 1) % 2 ^ 64 ∧ u.time.taiSec = (g.masterSec + (q + 5 * n) / 4000000000) % 2 ^ 40
          ∧ u.time.taiQ = (q + 5 * n) % 4000000000))

/-- R26, R28, R36, R39, R50: STOKE_CTRL.RUN begins stoke 0; STOKE_CFG is written before RUN alone; PPS_CTRL.ARM latches TAI_NEXT_SEC and drops lock. -/
def Obligations.StokeAndPpsRegistersAct : Prop :=
  ∀ (s : State) (org : Origin) (val : Word) (auto : Bool) (t : Nat),
    RowActs s (.stokeRun org t) (fun b u => u.time.running = true
      ∧ (b.time.running = false → u.time.cnt = 0 ∧ u.now = 0) ∧ (b.time.running = true → u.time = b.time ∧ u.now = b.now))
    ∧ RowActs s (.stokeCfgWrite org val t) (fun b u => b.time.running = false ∧ u.time = b.time
      ∧ (b.canon = true → u.reg (stkReg Reg.STOKE_CFG) = BitVec.ofNat 32 (val.toNat % 4 + val.toNat / 256 % 2 * 256)))
    ∧ RowActs s (.ppsArm org auto t) (fun b u => u.time = { b.time with
        armed := true, autoArmed := false, locked := false, lockRun := 0, armAt := some b.now,
        armSec := (b.reg (stkReg Reg.TAI_NEXT_SEC_LO)).toNat + 2 ^ 32 * ((b.reg (stkReg Reg.TAI_NEXT_SEC_HI)).toNat % 256) })

/-- R33, R34, R93, R131, R132: an entry that runs when its budget ends has overrun; the second overrun in a row is a fault cause; a barrier is released when every
participant has arrived, and abandoned at its timeout, unless an arrival that the same boundary merges completes it. -/
def Obligations.OverrunsAndBarriersAct : Prop :=
  ∀ (s : State) (c : Ch) (t : Nat), s.halted = false →
    let a := s.advance t
    let u := s.engC c
    let overran (i : Instr) : Prop := Answers (exec i s) fun v =>
      (v.eng[s.engOf c]).run = .overran ∧ (v.eng[s.engOf c]).cycle = a.engBudget (s.engOf c) + 1 ∧ (v.eng[s.engOf c]).w = u.w
      ∧ (∀ e, e ≠ s.engOf c → v.eng[e] = s.eng[e]) ∧ v.sram = s.sram ∧ v.regs = a.regs
    let atEdge : Prop := s.time.running = true → a.stokeCyc ≤ a.now + 1
    (u.run = .run → u.entry ≠ .fault → a.engBudget (s.engOf c) ≤ a.now → overran (.budgetOverrun c t))
    ∧ (u.run = .run → u.entry = .fault → a.engBudget (s.engOf c) ≤ a.now → overran (.faultEntryOverrun c t))
    ∧ (2 ≤ s.ch[c].overruns → s.ch[c].fault = 0 → 2 ∉ s.ch[c].faultDue →
      Answers (exec (.doubleOverrun c t) s) fun v => v = a.modCh c fun x => { x with faultDue := 2 :: x.faultDue })
    ∧ (atEdge → s.sync[c].releaseDue s.time.cnt = true → Answers (exec (.barrierRelease c t) s) fun v =>
      v = { a with sync := v.sync } ∧ v.sync[c].waiting = false ∧ v.sync[c].released = true ∧ v.sync[c].rel = BitVec.ofNat 32 s.time.cnt)
    ∧ (let m := (a.framesMerge s.time.cnt).sync[c]
      atEdge → s.sync[c].waiting = true → s.sync[c].releaseDue s.time.cnt = false → s.sync[c].arr + s.sync[c].arrTmo ≤ s.time.cnt → a.canon = true →
      Answers (exec (.barrierTimeout c t) s) fun v =>
        (m.releaseDue s.time.cnt = false → v = { a with sync := v.sync, regs := v.regs, clk := v.clk } ∧ v.sync[c].waiting = false ∧ v.sync[c].timeout = true
          ∧ v.reg (chReg c Reg.SYNC_TIMEOUT_CNT) = satU32 ((a.reg (chReg c Reg.SYNC_TIMEOUT_CNT)).toNat + 1))
        ∧ (m.releaseDue s.time.cnt = true → v = a))

/-- R87, R90, R95, R106, R107, R115: what the writes of a channel's program and fault registers do where they take effect. -/
def Obligations.ProgramRegistersAct : Prop :=
  ∀ (s : State) (org : Origin) (c : Ch) (aux t : Nat),
    RowActs s (.layerCtrlReq org c t) (fun b u => u.ch[c].layerReq = true ∧ u.eng = b.eng ∧ u.sram = b.sram)
    ∧ RowActs s (.progRun org c aux t) (fun b u => u.ch[c].running = true ∧ (b.ch[c].running = true → u.ch = b.ch ∧ u.vec = b.vec)
      ∧ (b.ch[c].running = false → u.ch[c].overruns = 0 ∧ u.vec[c].buf = [] ∧ u.vec[c].stream = 0))
    ∧ RowActs s (.progHalt org c t) (fun b u => u.ch[c].running = false ∧ (b.ch[c].running = true → u.ch[c].inLayer = false) ∧ u.sram = b.sram)
    ∧ RowActs s (.progLoad org c t) (fun b u => (b.time.running = true → b.now < b.stokeCyc) →
      (b.loadQ.any (·.1 == c) = false → u.loadQ = b.loadQ ++ [(c, b.progSrc c, (b.reg (chReg c Reg.PROG_LEN)).toNat)] ∧ u.ch[c].load = .loading)
      ∧ (b.loadQ.any (·.1 == c) = true → u.loadQ = b.loadQ ∧ u.ch[c].load = .refused ∧ u.ch[c].refuseCode = 0x0B)
      ∧ u.ch[c].active = b.ch[c].active ∧ u.ch[c].bankB = b.ch[c].bankB)
    ∧ RowActs s (.progSwitch org c t) (fun b u => u.ch[c].active = b.ch[c].inactive ∧ u.ch[c].inactive = b.ch[c].active
      ∧ u.ch[c].bankB = !b.ch[c].bankB ∧ u.ch[c].waiting = false ∧ (b.ch[c].running = true → u.ch[c].newBank = true)
      ∧ ((∀ p, b.spare = some p → p.owner ≠ c ∨ p.lutSet = true) → u.sram = b.sram))
    ∧ RowActs s (.lutSwap org c t) (fun b u =>
      (∀ p, b.spare = some p → p.owner = c → p.lutSet = true → u.ch[c].luts = p.tabs ∧ u.spare = none)
      ∧ ((∀ p, b.spare = some p → p.owner ≠ c ∨ p.lutSet = false) → u.ch = b.ch ∧ u.spare = b.spare))
    ∧ RowActs s (.faultClear org c t) (fun b u =>
      (b.time.running = true → u.ch[c].clearDue = true ∧ u.ch[c].resumeDue = false)
      ∧ (b.time.running = false → b.ch[c].fault ≠ 0 → u.ch[c].fault = 0 ∧ u.ch[c].cleared = true ∧ u.ch[c].inLayer = b.ch[c].inLayer))
    ∧ RowActs s (.faultResume org c t) (fun b u =>
      (b.time.running = true → u.ch[c].clearDue = true ∧ u.ch[c].resumeDue = true)
      ∧ (b.time.running = false → b.ch[c].fault ≠ 0 → u.ch[c].fault = 0 ∧ (b.las[c].arm = .armed → u.ch[c].inLayer = true)))
    ∧ RowActs s (.engTrapClr org c t) (fun b u => b.canon = true →
      u.reg (chReg c Reg.ENG_TRAP) = 0#32 ∧ u.reg (chReg c Reg.ENG_TRAP_STOKE) = 0#32 ∧ u.eng = b.eng)
    ∧ RowActs s (.vecRestart org c aux t) (fun b u => ∃ r, b.vecRing c = some r ∧ u.vec[c].buf = [] ∧ u.vec[c].stream = 0
      ∧ (aux < 2 ^ 32 → u.vec[c].stop = 0 ∧ u.vec[c].start = aux ∧ u.vec[c].fetchIdx = aux)
      ∧ (2 ^ 32 ≤ aux → u.vec[c].stop = 5 ∧ u.rings[r].st = .stopped))

/-- R105, R106, R109, R110, R113, R472: an image read without a refusal waits in the bank that is not active, its tables or those of a table set in the spare set; one that is refused leaves the program as it was;
a record fetched joins the prefetch buffer behind the others, or stops the path with the cause of its defect. -/
def Obligations.LoaderAndPrefetcherAct : Prop :=
  ∀ (s : State) (c : Ch) (t : Nat), s.halted = false → let a := s.advance t
    (∀ ad len r, s.loadQ = (c, ad, len) :: r →
      let b : State := { a with loadQ := r }
      Answers (exec (.loadDone none t) s) (fun u => u.loadQ = r ∧ u.ch[c].load = .refused ∧ u.ch[c].refuseCode = 0x0A
        ∧ u.ch[c].active = s.ch[c].active ∧ u.ch[c].inactive = s.ch[c].inactive ∧ u.sram = s.sram)
      ∧ ∀ bs, (b.progCheck c bs len ≠ 0 → Answers (exec (.loadDone (some bs) t) s) fun u => u.loadQ = r ∧ u.ch[c].load = .refused
            ∧ u.ch[c].refuseCode = b.progCheck c bs len ∧ u.ch[c].active = s.ch[c].active ∧ u.ch[c].inactive = s.ch[c].inactive ∧ u.sram = s.sram)
        ∧ (b.progCheck c bs len = 0 → Answers (exec (.loadDone (some bs) t) s) fun u => u.loadQ = r ∧ u.ch[c].load = .loaded
            ∧ u.ch[c].refuseCode = 0 ∧ u.ch[c].active = s.ch[c].active ∧ u.ch[c].bankB = s.ch[c].bankB ∧ u.eng = s.eng
            ∧ (imgF bs 0x0C 2 = 2 → u.ch[c].inactive = (if s.ch[c].waiting then none else s.ch[c].inactive)
              ∧ u.spare = some ⟨c, imgTabs bs, true, (imgMeta bs).hash⟩)
            ∧ (imgF bs 0x0C 2 ≠ 2 → u.ch[c].inactive = some (imgMeta bs) ∧ u.ch[c].waiting = true
              ∧ ((imgMeta bs).hasLut = true → u.spare = some ⟨c, imgTabs bs, false, (imgMeta bs).hash⟩))))
    ∧ (∀ r, s.vecRing c = some r → s.rings[r].st = .run → s.rings[r].closing = false → s.vec[c].stop = 0 → s.vec[c].eps = false →
        s.vec[c].buf.length < 8192 → s.vec[c].fetchIdx ≠ s.rings[r].host →
      let v := s.vec[c]
      let seq := bit (a.reg (chReg c Reg.VEC_CFG)) 0
      Answers (exec (.recordPrefetch c none t) s) (fun u => u.vec[c].stop = 5 ∧ u.vec[c].errIdx = v.placed ∧ u.rings[r].st = .stopped
        ∧ u.vec[c].buf = v.buf ∧ u.ints.pend.getLsbD (0x80 + c.val) = true)
      ∧ ∀ bs : List Byte, bs.length = 32 → v.drop = 0 →
        let ty := (nthD bs 0 0#8).toNat
        let sq := (nthD bs 1 0#8).toNat
        ((ty = 0 ∨ 0xF0 ≤ ty) → Answers (exec (.recordPrefetch c (some bs) t) s) fun u =>
          u.vec[c].stop = 3 ∧ u.vec[c].errIdx = v.placed ∧ u.vec[c].buf = v.buf ∧ u.ints.pend.getLsbD (0x80 + c.val) = true)
        ∧ (ty ≠ 0 → ty < 0xF0 → seq = true → sq ≠ v.placed % 256 → Answers (exec (.recordPrefetch c (some bs) t) s) fun u =>
          u.vec[c].stop = 4 ∧ u.vec[c].errIdx = v.placed ∧ u.vec[c].buf = v.buf)
        ∧ (ty ≠ 0 → ty < 0xF0 → (seq = false ∨ sq = v.placed % 256) → Answers (exec (.recordPrefetch c (some bs) t) s) fun u =>
          u.vec[c].stop = 0 ∧ u.vec[c].buf.map (·.bytes) = v.buf.map (·.bytes) ++ [bs] ∧ u.vec[c].placed = v.placed + 1
          ∧ u.vec[c].fetchIdx = (v.fetchIdx + 1) % 2 ^ 32))

/-! The galvo servo (chapter 06). -/

/-- R146, R149–R155: what the writes of a channel's servo registers do where they take effect. -/
def Obligations.ServoRegistersAct : Prop :=
  ∀ (s : State) (org : Origin) (c : Ch) (x : Ax) (k : Fin 4) (gain : Bool) (val : Word) (t : Nat),
    RowActs s (.svCtrlWrite org c val t) (fun b u => (∀ a : Ax,
        u.sv[c].ax[a].st = if bit val a.val then (if b.sv[c].ax[a].st = .off then .hold else b.sv[c].ax[a].st) else .off)
      ∧ (∀ d, d ≠ c → u.sv[d] = b.sv[d]) ∧ u.sram = b.sram)
    ∧ RowActs s (.svClear org c t) (fun b u => b.killed = false ∧ ∀ a : Ax,
        u.sv[c].ax[a].cause = 0 ∧ u.sv[c].ax[a].st = if b.sv[c].ax[a].st = .frozen then .hold else b.sv[c].ax[a].st)
    ∧ RowActs s (.paramApply org c x t) (fun b u => u.sv[c].ax[x].shadow = [] ∧ (b.canon = true → ∀ o v, (o, v) ∈ b.sv[c].ax[x].shadow →
        (∀ p ∈ b.sv[c].ax[x].shadow, p.1 = o → p.2 = v) → u.reg (axReg c x o) = v))
    ∧ RowActs s (.trimTgtWrite org c k val t) (fun b u => b.canon = true → let r := chReg c (Reg.TRIM_DX_TGT + 4 * k.val)
      let start : Prop := b.sv[c].trimDirty = true ∨ b.sv[c].ramping = true ∨ u.reg r ≠ b.reg r
      (b.time.running = true → (u.sv[c].trimDirty = true ↔ start) ∧ u.sv[c].dx = b.sv[c].dx ∧ u.sv[c].m = b.sv[c].m ∧ u.sv[c].n = b.sv[c].n)
      ∧ (b.time.running = false → start → u.sv[c].trimDirty = false ∧ u.sv[c].n = 0
          ∧ u.sv[c].dx.target = Q.ofInt (u.reg (chReg c Reg.TRIM_DX_TGT)).toInt ∧ u.sv[c].dy.target = Q.ofInt (u.reg (chReg c Reg.TRIM_DY_TGT)).toInt
          ∧ u.sv[c].rot.target = Q.ofInt (u.reg (chReg c Reg.TRIM_ROT_TGT)).toInt ∧ u.sv[c].scale.target = Q.ofInt (u.reg (chReg c Reg.TRIM_SCALE_TGT)).toInt))
    ∧ RowActs s (.pdTgtWrite org c x gain val t) (fun b u => b.canon = true →
      let r := axReg c x (if gain then Reg.SV_PD_GAIN_TGT else Reg.SV_PD_OFFSET_TGT)
      let start : Prop := b.sv[c].ax[x].pdDirty = true ∨ b.sv[c].ax[x].pdRamp = true ∨ u.reg r ≠ b.reg r
      (b.time.running = true → (u.sv[c].ax[x].pdDirty = true ↔ start) ∧ u.sv[c].ax[x].pdOff = b.sv[c].ax[x].pdOff)
      ∧ (b.time.running = false → start → u.sv[c].ax[x].pdDirty = false ∧ u.sv[c].ax[x].pdN = 0
          ∧ u.sv[c].ax[x].pdOff.target = Q.ofInt (u.reg (axReg c x Reg.SV_PD_OFFSET_TGT)).toInt))
    ∧ (∀ xy, RowActs s (if xy then .gridLoadXy org c t else .gridLoadF org c t) (fun b u =>
      (b.gridQ = [] → u.gridQ = [⟨c, xy, none⟩] ∧ u.sv[c].grid = .loading ∧ u.sv[c].gridRefuse = 0)
      ∧ (b.gridQ ≠ [] → u.gridQ = b.gridQ ∧ u.sv[c].gridRefuse = 1 ∧ (b.gridQ.any (·.ch == c) = false → u.sv[c].grid = .refused))
      ∧ u.sram = b.sram))
    ∧ RowActs s (.gridAbort org c t) (fun b u =>
      (∀ xy bs, b.gridQ = [⟨c, xy, some bs⟩] → u.gridQ = [] ∧ u.sv[c].grid = .idle)
      ∧ ((∀ xy bs, b.gridQ ≠ [⟨c, xy, some bs⟩]) → u.gridQ = b.gridQ ∧ u.sv = b.sv) ∧ u.sram = b.sram)

/-- R32, R146, R149, R151, R153, R154: a fault count at its limit freezes its axis with the lowest cause; a ramp at its end stands at its target; a grid block
that is read whole with its CRC goes to the spare grids and is logged with its SHA-256, any other is refused; the exchange puts it in the place of the active grid, which becomes
the spare, writes GRID_HASH and is logged. While the stoke runs the freeze and the exchange are STOKE_BOUNDARY's alone; their own commands act before RUN. -/
def Obligations.ServoEventsAndGridsAct : Prop :=
  ∀ (s : State) (c : Ch) (x : Ax) (t : Nat), s.halted = false →
    let a := s.advance t
    let ax := s.sv[c].ax[x]
    let sv := s.sv[c]
    let spare : Nat := 0x2280000 + 16900 * 72
    let place (xy : Bool) : Nat := 0x2280000 + 16900 * (3 * c.val + if xy then 0 else 2)
    let size (xy : Bool) : Nat := if xy then 33800 else 16900
    let hash (bs : List Byte) (i : Nat) : Word := nthD (wordsLE (sha256 bs)) i 0#32
    let logged (u : State) (kind : Nat) (bs : List Byte) : Prop := a.LogOpen → Logs a u (chReg c Reg.GRID_CTRL) kind (hash bs 0) (hash bs 1)
    -- the axis freezes
    (∀ k, s.time.running = false → (ax.st = .run ∨ ax.st = .hold) → k = a.servoCause c x → k ≠ 0 → Answers (exec (.servoFault c x t) s) fun u =>
      u.sv[c].ax[x].st = .frozen ∧ u.sv[c].ax[x].cause = k ∧ 3 ∈ u.ch[c].faultDue ∧ u.sram = s.sram ∧ u.eng = s.eng
      ∧ ∀ y, y ≠ x → u.sv[c].ax[y] = s.sv[c].ax[y])
    ∧ ((s.time.running = true ∨ a.servoCause c x = 0) → Answers (exec (.servoFault c x t) s) fun u => u = a)
    -- a ramp ends
    ∧ Answers (exec (.trimRampEnd c t) s) (fun u => u = { a with sv := u.sv }
        ∧ (u.sv[c].dx, u.sv[c].dy, u.sv[c].rot, u.sv[c].scale) = (if sv.n ≤ sv.m then
            (⟨sv.dx.target, sv.dx.target⟩, ⟨sv.dy.target, sv.dy.target⟩, ⟨sv.rot.target, sv.rot.target⟩, ⟨sv.scale.target, sv.scale.target⟩)
          else (sv.dx, sv.dy, sv.rot, sv.scale))
        ∧ (u.sv[c].ax[x].pdOff, u.sv[c].ax[x].pdGain) = (if ax.pdN ≤ ax.pdM then
            (⟨ax.pdOff.target, ax.pdOff.target⟩, ⟨ax.pdGain.target, ax.pdGain.target⟩) else (ax.pdOff, ax.pdGain)))
    -- a block has been read, or has not
    ∧ (∀ xy, s.gridQ = [⟨c, xy, none⟩] →
      let refused (i : Option (List Byte)) (code : Nat) : Prop := Answers (exec (.gridLoadDone c i t) s) fun u =>
        u.gridQ = [] ∧ u.sv[c].grid = .refused ∧ u.sv[c].gridRefuse = code ∧ u.sram = s.sram
      refused none 3 ∧ ∀ bs, (bs.length ≠ size xy → refused (some bs) 3)
        ∧ (bs.length = size xy → crc32 bs ≠ a.reg (chReg c Reg.GRID_CRC) → refused (some bs) 2)
        ∧ (bs.length = size xy → crc32 bs = a.reg (chReg c Reg.GRID_CRC) → s.time.running = true ∨ s.ch[c].inLayer = true → a.canon = true →
          Answers (exec (.gridLoadDone c (some bs) t) s) fun u => u.gridQ = [⟨c, xy, some bs⟩] ∧ u.sv[c].grid = .pending ∧ logged u 8 bs
            ∧ (∀ i v, bs[i]? = some v → u.byte (spare + i) = v) ∧ ∀ y, y < spare ∨ spare + bs.length ≤ y → u.byte y = s.byte y)
        ∧ (bs.length = size xy → crc32 bs = a.reg (chReg c Reg.GRID_CRC) → s.time.running = false → s.ch[c].inLayer = false → a.canon = true →
          Answers (exec (.gridLoadDone c (some bs) t) s) fun u => u.gridQ = [] ∧ u.sv[c].grid = .idle ∧ u.sv[c].swapped = true ∧ logged u 8 bs
            ∧ ∀ i v, bs[i]? = some v → u.byte (place xy + i) = v))
    -- the exchange
    ∧ (∀ xy bs, s.gridQ = [⟨c, xy, some bs⟩] → s.time.running = false → s.ch[c].inLayer = false → a.canon = true →
      Answers (exec (.gridSwap c t) s) fun u => u.gridQ = [] ∧ u.sv[c].grid = .idle ∧ u.sv[c].swapped = true ∧ u.sv[c].fresh = true ∧ logged u 9 bs
        ∧ (∀ i, i < 8 → u.reg (chReg c (Reg.GRID_HASH + 4 * i)) = hash bs i)
        ∧ (∀ i, i < size xy → u.byte (place xy + i) = s.byte (spare + i) ∧ u.byte (spare + i) = s.byte (place xy + i))
        ∧ ∀ y, (y < place xy ∨ place xy + size xy ≤ y) → (y < spare ∨ spare + size xy ≤ y) → u.byte y = s.byte y)
    ∧ (s.time.running = true ∨ s.ch[c].inLayer = true → Answers (exec (.gridSwap c t) s) fun u => u = a)

/-! The laser port and the safety inputs (chapter 07). -/

/-- R164–R168, R161: an ARM that R165 allows begins ARMING, in which READY arms the port and its absence trips it; a disarm, an alarm and the loss of READY
end the emission: the pins at once, the state at the boundary; edges play at their offsets; the monitor counts deviations. -/
def Obligations.LaserPortArmsAndTrips : Prop :=
  ∀ (s : State) (org : Origin) (c : Ch) (n t : Nat),
    let a := s.advance t
    let l := s.las[c]
    let filt : Prop := fld (a.creg c Reg.LAS_CFG) 8 8 ≤ n
    RowActs s (.lasArm org c t) (fun b u => b.killed = false ∧ b.lsafe.disc = false ∧ b.las[c].alarm = false ∧ b.ch[c].fault = 0
      ∧ b.lsafe.aLow = false ∧ b.lsafe.bLow = false ∧ b.ch[c].faultDue = [] ∧ b.gang.conflict = false ∧ b.safe.inh[c] = false ∧ org = .host0
      ∧ u.las[c].arm = (if b.las[c].arm = .disarmed then .arming else b.las[c].arm)
      ∧ (b.las[c].arm = .disarmed → u.las[c].cut = false ∧ u.las[c].armWait = 0 ∧ u.las[c].tripDue = 0))
    ∧ RowActs s (.lasDisarm org c t) (fun b u => u.las[c].arm = .disarmed
      ∧ (b.las[c].arm ≠ .disarmed → u.las[c].trip = if org = .safe then 2 else 1) ∧ (org = .safe → u.safe.inh[c] = true)
      ∧ u.gatePin c = false ∧ u.emissionPin c = false)
    ∧ (s.halted = false →
      (filt → s.time.running = true → Answers (exec (.readyActive c n t) s) fun u => u = a.modLas c fun l => { l with ready := true })
      ∧ (filt → s.time.running = false → l.tripDue = 0 → s.lsafe.tripDue = false → Answers (exec (.readyActive c n t) s) fun u =>
          u.las[c].ready = true ∧ u.las[c].arm = if l.arm = .arming then .armed else l.arm)
      ∧ (filt → l.arm = .armed → l.ready = true → Answers (exec (.readyLost c n t) s) fun u =>
          u.las[c].ready = false ∧ 4 ∈ u.ch[c].faultDue ∧ u.emissionPin c = false ∧ u.gatePin c = false
          ∧ (s.time.running = true → u.las[c].cut = true ∧ u.las[c].tripDue = (if l.tripDue = 0 then 4 else l.tripDue) ∧ u.las[c].arm = .armed)
          ∧ (s.time.running = false → u.las[c].arm = .disarmed ∧ u.las[c].trip = if l.tripDue = 0 then 4 else l.tripDue))
      ∧ (filt → (l.arm ≠ .armed ∨ l.ready = false) → l.tripDue = 0 → Answers (exec (.readyLost c n t) s) fun u => u = a.modLas c fun l => { l with ready := false })
      ∧ (filt → l.arm ≠ .disarmed → Answers (exec (.alarm c true n t) s) fun u =>
          u.las[c].alarm = true ∧ 4 ∈ u.ch[c].faultDue ∧ u.emissionPin c = false ∧ u.gatePin c = false
          ∧ (s.time.running = true → u.las[c].cut = true ∧ u.las[c].tripDue = (if l.tripDue = 0 then 5 else l.tripDue) ∧ u.las[c].arm = l.arm)
          ∧ (s.time.running = false → u.las[c].arm = .disarmed ∧ u.las[c].trip = if l.tripDue = 0 then 5 else l.tripDue))
      ∧ (filt → l.arm = .disarmed → l.tripDue = 0 → Answers (exec (.alarm c true n t) s) fun u => u = a.modLas c fun l => { l with alarm := true })
      ∧ (filt → Answers (exec (.alarm c false n t) s) fun u => u.las[c].alarm = false ∧ u.las[c].arm = if l.tripDue ≠ 0 ∧ s.time.running = false then .disarmed else l.arm)
      ∧ (¬filt → ∀ act, Answers (exec (.readyActive c n t) s) (fun u => u = a) ∧ Answers (exec (.readyLost c n t) s) (fun u => u = a)
          ∧ Answers (exec (.alarm c act n t) s) (fun u => u = a))
      ∧ (l.arm = .arming → l.ready = false → fld (a.creg c Reg.LAS_CFG) 16 16 ≤ l.armWait → (s.time.running = true → a.stokeCyc ≤ a.now + 1) →
          Answers (exec (.readyTimeout c t) s) fun u => u = a.modLas c fun l => { l with arm := .disarmed, armWait := 0, trip := 3, tripDue := 0 })
      ∧ (∀ o, l.play = ⟨some o, none, true⟩ → o ≤ a.now → a.lasLatched c = false →
          Answers (exec (.gateEdge c t) s) fun u => u.las[c].level = true ∧ u.las[c].play.on = none)
      ∧ (∀ o ly, l.play = ⟨none, some o, ly⟩ → o ≤ a.now →
          Answers (exec (.gateEdge c t) s) fun u => u.las[c].level = false ∧ u.las[c].play.off = none ∧ u.gatePin c = false)
      ∧ (∀ ly, l.play = ⟨some a.now, some a.now, ly⟩ → Answers (exec (.gateEdge c t) s) fun u => u.las[c].level = false)
      ∧ (fld (a.creg c Reg.MON_CFG) 16 16 ≤ l.monCount → l.monDev = false → a.canon = true → Answers (exec (.monDeviation c t) s) fun u =>
          u.las[c] = { l with monDev := true } ∧ u.ints.pend.getLsbD (0x80 + c.val) = true
          ∧ u.reg (chReg c Reg.MON_DEV_CNT) = satU32 ((a.reg (chReg c Reg.MON_DEV_CNT)).toNat + 1)
          ∧ (bit (a.creg c Reg.MON_CFG) 4 = true → 4 ∈ u.ch[c].faultDue)))

/-- R13, R170, R171: a safety input that goes low asserts the kill wire: every gate and enable is low at once, every port trips at the boundary (before RUN at once), and the device interrupts, while a die that stands still notes
the assertion and trips at the boundary at which it runs again;
inputs that differ too long set DISC, which is cleared only after both have been asserted together and released. -/
def Obligations.SafetyInputsKillAndDiffer : Prop :=
  ∀ (s : State) (org : Origin) (x : Bool) (t : Nat), let a := s.advance t
    (s.halted = false → (if x then s.lsafe.bLow else s.lsafe.aLow) = false → a.canon = true →
      Answers (exec (.lsafeAssert x t) s) fun u => (if x then u.lsafe.bLow else u.lsafe.aLow) = true ∧ u.killed = true
        ∧ (∀ c : Ch, u.gatePin c = false ∧ u.emissionPin c = false) ∧ u.ints.pend.getLsbD 0xC3 = true
        ∧ u.reg Reg.LSAFE_CNT = satU32 ((a.reg Reg.LSAFE_CNT).toNat + 1)
        ∧ (s.time.running = true → u.lsafe.tripDue = true ∧ ∀ c : Ch, u.las[c].arm = s.las[c].arm ∧ u.las[c].cut = (!s.killed || s.las[c].cut))
        ∧ (s.time.running = false → ∀ c : Ch, u.las[c].arm = .disarmed ∧ u.las[c].trip = 6))
    ∧ (s.halted = false → Answers (exec (.lsafeRelease x t) s) fun u =>
        u.lsafe = (if x then { s.lsafe with bLow := false } else { s.lsafe with aLow := false }) ∧ u.las = s.las ∧ u.sram = s.sram)
    ∧ (s.halted = true → (∃ l, exec (.lsafeAssert x t) s = .next { s with lsafe := l }
          ∧ l.aLow = (s.lsafe.aLow || !x) ∧ l.bLow = (s.lsafe.bLow || x) ∧ l.disc = s.lsafe.disc ∧ l.both = (s.lsafe.both || l.aLow && l.bLow)
          ∧ l.tripDue = (s.lsafe.tripDue || !(if x then s.lsafe.bLow else s.lsafe.aLow)))
        ∧ exec (.lsafeRelease x t) s = .next { s with lsafe := if x then { s.lsafe with bLow := false } else { s.lsafe with aLow := false } })
    ∧ (s.halted = false → s.lsafe.disc = false → a.regF Reg.LSAFE_CFG 0 16 < s.lsafe.differ → a.LogOpen → Answers (exec (.lsafeDisc t) s) fun u =>
        u.lsafe = { s.lsafe with disc := true, both := false } ∧ u.ints.pend.getLsbD 0xC3 = true ∧ ∃ o v, Logs a u (0xC3 + 2 * 65536) 0x15 o v)
    ∧ RowActs s (.lsafeClr org t) (fun b u => b.lsafe.aLow = false ∧ b.lsafe.bLow = false ∧ b.lsafe.both = true ∧ u.lsafe = { b.lsafe with disc := false })

/-! The melt-pool loop and the trace (chapter 08). -/

/-- R184–R186, R192: a mode request is evaluated as R184's table says, at the boundary or, before RUN, at once; a coefficient joins its queue, from which one is applied at each
boundary, and a full queue drops it. -/
def Obligations.LoopRequestsAndCoefficientsAct : Prop :=
  ∀ (s : State) (org : Origin) (c : Ch) (mode : Fin 4) (force : Bool) (off : Nat) (val : Word) (t : Nat),
    let asked (v : Word) (b u : State) : Prop :=
      let l := b.loop[c]
      let m := u.loop[c]
      let refused (cause : Nat) : Prop := m.mode = l.mode ∧ m.refused = true ∧ m.refCause = cause
      (fld v 0 8 = 3 → m.mode = .hold) ∧ (fld v 0 8 = 0 → bit v 8 = true → m.mode = .open_)
      ∧ (fld v 0 8 = 1 → l.fbValid = true → m.mode = .track)
      ∧ (fld v 0 8 = 2 → l.fbValid = true → b.camOf c ≠ none → l.camAge ≤ b.creg16 c Reg.CAM_AGE_MAX → m.mode = .shape)
      ∧ (fld v 0 8 = 1 → l.fbValid = false → l.mode ≠ .track → refused 3) ∧ (fld v 0 8 = 2 → l.fbValid = false → l.mode ≠ .shape → refused 3)
      ∧ (fld v 0 8 = 2 → l.fbValid = true → b.camOf c = none → l.mode ≠ .shape → refused 2) ∧ (4 ≤ fld v 0 8 → refused 4)
    let v : Word := BitVec.ofNat 32 (mode.val + if force then 256 else 0)
    RowActs s (.loopMode org c mode force t) (fun b u => (b.time.running = true → u.loop[c] = { b.loop[c] with req := some v })
      ∧ (b.time.running = false → asked v b u))
    ∧ (∀ (b : State) (x : Word), asked x b (b.modeRequest c x))
    ∧ RowActs s (.loopTrimWrite org c val t) (fun b u => u.loop = b.loop ∧ (b.canon = true → u.reg (chReg c Reg.LOOP_TRIM) = val))
    ∧ (let a := s.advance t
       ∀ x, isCoef off = true → s.halted = false → regAt (chReg c off) = some x → x.blk = .ch → x.inst = c.val → x.off = off → x.rd.acc = .rw →
        a.originOk x org val = true → s.boot.stage = .ready → a.log.held.length < 3840 →
        let w := recvWrite org (chReg c off) val 0 x
        (s.loop[c].queue.length < 128 → s.time.running = true →
          Answers (exec (.coefWrite org c off val t) s) fun u => u = a.modLoop c fun l => { l with queue := l.queue ++ [w] })
        ∧ (128 ≤ s.loop[c].queue.length → s.time.running = true → a.canon = true → Answers (exec (.coefWrite org c off val t) s) fun u => u.loop = s.loop
          ∧ u.reg (chReg c Reg.COEF_DROP_CNT) = satU32 ((a.reg (chReg c Reg.COEF_DROP_CNT)).toNat + 1)
          ∧ u.reg (accReg Reg.DENIED_CNT) = satU32 ((a.reg (accReg Reg.DENIED_CNT)).toNat + 1))
        ∧ (s.loop[c].queue = [] → s.time.running = false → a.coefOk c off w.val = true → a.canon = true →
          Answers (exec (.coefWrite org c off val t) s) fun u => u.loop = s.loop ∧ u.reg (chReg c off) = w.val))
    ∧ (∀ (b : State) (w : Write) (r : List Write), b.loop[c].queue = w :: r → b.canon = true → w.addr = chReg c off → isCoef off = true →
        (b.coefApply c).loop[c].queue = r
        ∧ (b.coefOk c off w.val = true → (b.coefApply c).reg w.addr = w.val) ∧ (b.coefOk c off w.val = false → (b.coefApply c).reg w.addr = b.reg w.addr))

/-- R188–R191, R195, R196: the reversions and the return to SHAPE at the end of the stoke that earned them; a capture is armed, triggered, aborted and done. -/
def Obligations.ReversionsAndCapturesAct : Prop :=
  ∀ (s : State) (org : Origin) (c : Ch) (t : Nat),
    let a := s.advance t
    let l := s.loop[c]
    (s.halted = false → (s.time.running = true → a.stokeCyc ≤ a.now + 1) → a.canon = true →
      (l.dueLost = true → Answers (exec (.lossRevert c t) s) fun u => u.loop[c].mode = .open_ ∧ u.loop[c].revert = 1 ∧ u.loop[c].dueLost = false
        ∧ u.reg (chReg c Reg.LOOP_TRIM) = l.i ∧ u.reg (chReg c Reg.LOSS_CNT) = satU32 ((a.reg (chReg c Reg.LOSS_CNT)).toNat + 1)
        ∧ u.ints.pend.getLsbD (0x80 + c.val) = true)
      ∧ (l.dueFrozen = true → Answers (exec (.freezeRevert c t) s) fun u => u.loop[c].mode = .open_ ∧ u.loop[c].revert = 2 ∧ u.loop[c].dueFrozen = false
        ∧ u.reg (chReg c Reg.LOOP_TRIM) = l.i ∧ u.reg (chReg c Reg.FREEZE_CNT) = satU32 ((a.reg (chReg c Reg.FREEZE_CNT)).toNat + 1)
        ∧ u.ints.pend.getLsbD (0x80 + c.val) = true)
      ∧ (l.dueAged = true → Answers (exec (.camAgeDrop c t) s) fun u => u.loop[c].mode = .track ∧ u.loop[c].revert = 3 ∧ u.loop[c].dueAged = false
        ∧ u.reg (chReg c Reg.LOOP_SP) = l.spShape ∧ u.reg (chReg c Reg.CAM_AGE_CNT) = satU32 ((a.reg (chReg c Reg.CAM_AGE_CNT)).toNat + 1))
      ∧ (l.autoDue = true → l.mode = .track → l.camAge = 0 → bit (a.creg c Reg.LOOP_CFG) 3 = true → Answers (exec (.shapeReturn c t) s) fun u =>
        u.loop[c].mode = .shape ∧ u.loop[c].autoDue = false ∧ u.loop[c].spShape = a.creg c Reg.LOOP_SP ∧ u.sram = s.sram))
    ∧ (s.halted = false → l.blendLeft = 0 → Answers (exec (.blendEnd c t) s) fun u => u = a.modLoop c fun l => { l with blendD := 0#32, blendN := 0 })
    ∧ (s.halted = false → s.trace[c].st = .post → s.trace[c].trigDue = false → s.trace[c].postLeft = 0 → Answers (exec (.traceDone c t) s) fun u =>
        u.trace[c] = { s.trace[c] with st := .idle, done := true } ∧ u.ints.pend.getLsbD (0x80 + c.val) = true)
    ∧ RowActs s (.traceArm org c t) (fun b u => (b.trace[c].st ≠ .idle → u.trace = b.trace) ∧ (b.trace[c].st = .idle →
        u.trace[c].st = (if fld (b.creg c Reg.TRACE_CFG) 16 16 = 0 then .ready else .filling) ∧ u.trace[c].done = false ∧ u.trace[c].stored = 0
        ∧ u.trace[c].skip = fld (b.creg c Reg.TRACE_CFG) 8 8 + if b.time.running then 1 else 0))
    ∧ RowActs s (.traceTrig org c t) (fun b u => bit (b.creg c Reg.TRACE_TRIG_CFG) 0 = true →
        ((b.trace[c].st = .filling ∨ b.trace[c].st = .ready) → u.trace[c].st = .post ∧ u.trace[c].trigDue = true
          ∧ (b.trace[c].st = .filling → u.trace[c].preShort = true)) ∧ ((b.trace[c].st = .idle ∨ b.trace[c].st = .post) → u.trace = b.trace))
    ∧ RowActs s (.traceAbort org c t) (fun b u => u.trace[c].st = .idle ∧ u.trace[c].done = false ∧ u.sram = b.sram)

/-! The ember map, the scrubber and the draught guard (chapter 09). -/

/-- R200, R202, R204, R208, R209, R21, R201: a deposit that came late reaches the nine cells around its own with the kernel's weights, decayed to the newer stamp; a clear empties
the map; EM_CFG starts one; a frame given up is counted; the scrubber counts errors and brings old cells to the present unit; trails and plans leave the guard
when their plume has passed, unless their member is missing (R213, R219, R221). -/
def Obligations.EmberMapAndGuardActs : Prop :=
  ∀ (s : State) (org : Origin) (d : Fin 4) (val : Word) (addr : Nat) (corr ue : Bool) (t : Nat),
    let a := s.advance t
    let atEdge : Prop := s.halted = false ∧ (s.time.running = true → a.stokeCyc ≤ a.now + 1) ∧ a.canon = true
    (∀ p : Deposit, s.em.due = [p] → p.m + 1 < s.time.cnt → atEdge → Answers (exec (.lateDeposit t) s) fun u => u.em.due = []
      ∧ (a.emOn = false → u.sram = s.sram)
      ∧ (a.emOn = true → (∀ k ∈ kernel, inMap (p.i + k.1) (p.j + k.2) = true →
          let x := cellAt ((p.i : Int) + k.1).toNat ((p.j : Int) + k.2).toNat
          let kw := if k = (0, 0) then Reg.EM_KW_C else if k.1 = 0 ∨ k.2 = 0 then Reg.EM_KW_E else Reg.EM_KW_K
          let q := fmul p.q (fOfQ (a.regF (emReg kw) 0 17 : Nat) 16)
          let e := cellF (fld (a.word x) 0 16)
          let ts := fld (a.word x) 16 16
          let now_ := stampUnit p.m
          a.isBad x = false → u.word x = if ageOf now_ ts < 32768 then toW (toCell (fadd (fmul e (a.emDecay (ageOf now_ ts))) q) + now_ * 65536)
            else toW (toCell (fadd e (fmul q (a.emDecay (ageOf ts now_)))) + ts * 65536))
        ∧ ∀ y, (∀ k ∈ kernel, inMap (p.i + k.1) (p.j + k.2) = true → y / 4 * 4 ≠ cellAt ((p.i : Int) + k.1).toNat ((p.j : Int) + k.2).toNat) → u.byte y = s.byte y))
    ∧ (∀ f, s.gm.dev[d].missing = [f] → f + 64 ≤ s.time.cnt → atEdge → Answers (exec (.emFrameLost d t) s) fun u => u.gm.dev[d].missing = []
        ∧ u.reg (emReg Reg.EM_GAP_CNT) = satU32 ((a.reg (emReg Reg.EM_GAP_CNT)).toNat + 1) ∧ bit (u.reg (emReg Reg.EM_STATUS)) 4 = true
        ∧ (a.LogOpen → ∃ v, Logs a u (0xC5 + d.val * 256 + 2 * 65536) 0x15 (toW (f % 2 ^ 32)) v) ∧ u.sram = s.sram)
    ∧ RowActs s (.emCfgWrite org val t) (fun b u => let was := bit (b.reg (emReg Reg.EM_CFG)) 0
        (b.canon = true → u.reg (emReg Reg.EM_CFG) = val &&& 3#32) ∧ u.sram = b.sram
        ∧ (bit val 0 = true → was = false → b.anyLayer = false ∧ b.emKernelOk = true ∧ u.em = { b.em with clearing := true })
        ∧ (bit val 0 = false → was = true → b.anyLayer = false ∧ u.em = b.em) ∧ (bit val 0 = was → u.em = b.em))
    ∧ RowActs s (.emClear org t) (fun b u => b.anyLayer = false ∧ u.em = { b.em with clearing := true } ∧ u.sram = b.sram)
    ∧ (s.halted = false → s.em.clearing = true → Answers (exec (.emClearDone t) s) fun u => u.em = { s.em with clearing := false }
        ∧ (∀ y, u.byte y = if y < 0x1000000 then 0#8 else s.byte y) ∧ (∀ y, y % 4 = 0 → u.isBad y = (s.isBad y && decide (0x1000000 ≤ y))))
    ∧ (s.halted = false → s.boot.stage = .ready → addr % 4 = 0 → addr < 0x3000000 → a.canon = true → Answers (exec (.scrub addr corr ue t) s) fun u =>
        let ueAt := dbgReg (Reg.MEM_UE_CNT + 4 * regionOf addr)
        let ceAt := dbgReg (Reg.MEM_CE_CNT + 4 * regionOf addr)
        (ue = true → u.isBad addr = true)
        ∧ ((ue = true ∨ s.isBad addr = true) → u.sram = s.sram ∧ u.reg ueAt = satU32 ((a.reg ueAt).toNat + 1) ∧ u.reg (dbgReg Reg.MEM_UE_LAST) = toW addr)
        ∧ (ue = false → s.isBad addr = false → (∀ y, u.isBad y = s.isBad y) ∧ u.reg ceAt = if corr then satU32 ((a.reg ceAt).toNat + 1) else a.reg ceAt)
        ∧ (ue = false → s.isBad addr = false → addr < 0x1000000 → 32768 ≤ ageOf (stampUnit s.time.cnt) (fld (s.word addr) 16 16) →
            u.word addr = toW (toCell (fmul (cellF (fld (s.word addr) 0 16)) (a.emDecay (ageOf (stampUnit s.time.cnt) (fld (s.word addr) 16 16))))
              + stampUnit s.time.cnt * 65536))
        ∧ (ue = false → s.isBad addr = false → (0x1000000 ≤ addr ∨ ageOf (stampUnit s.time.cnt) (fld (s.word addr) 16 16) < 32768) → u.sram = s.sram))
    ∧ (s.halted = false → (s.time.running = true → a.stokeCyc ≤ a.now + 1) →
      Answers (exec (.trailRemove t) s) (fun u => u = { a with gd := { s.gd with trails := u.gd.trails } }
        ∧ ∀ x, x ∈ u.gd.trails ↔ x ∈ s.gd.trails ∧ (s.gdMissing x.g = true ∨ s.time.cnt < s.trailEnd x (s.time.cnt + 1) + a.tPlume))
      ∧ Answers (exec (.planExpire t) s) (fun u => u = { a with gd := { s.gd with plans := u.gd.plans } }
        ∧ ∀ x, x ∈ u.gd.plans ↔ x ∈ s.gd.plans ∧ (s.gdMissing x.g = true ∨ s.time.cnt < x.start + x.n - 1 + a.tPlume)))

/-! The camera pipelines (chapter 10). -/

/-- R229, R242, R244–R246: what the writes of a pipeline's control registers do where they take effect. -/
def Obligations.PipelineRegistersAct : Prop :=
  ∀ (s : State) (org : Origin) (m : Cam) (val : Word) (t : Nat),
    RowActs s (.camStart org m t) (fun b u => b.hk.level < 2 ∧ b.camW m ≠ 0 ∧ b.camH m ≠ 0 ∧ b.camW m * b.camH m ≤ 65536
      ∧ (b.cam[m].st ≠ .stopped → u.cam = b.cam) ∧ (b.cam[m].st = .stopped → u.cam[m].st = .run ∧ u.cam[m].tseq = 0 ∧ u.cam[m].setNum = 0
        ∧ u.cam[m].pending = [] ∧ u.cam[m].opens = [] ∧ u.cam[m].exp = none ∧ u.cam[m].stat = b.cam[m].stat))
    ∧ RowActs s (.camStop org m t) (fun b u => u.cam[m] = { b.cam[m] with st := if b.cam[m].st = .run then .stopping else b.cam[m].st })
    ∧ RowActs s (.camAbort org m t) (fun b u => u.cam[m].st = .stopped ∧ u.cam[m].pending = [] ∧ u.cam[m].opens = [] ∧ u.cam[m].exp = none
        ∧ u.cam[m].cur = none ∧ u.cam[m].done = b.cam[m].done ∧ ∀ x, x ≠ m → u.cam[x] = b.cam[x])
    ∧ RowActs s (.camBindWrite org m val t) (fun b u => b.cam[m].st = .stopped ∧ u.cam = b.cam
        ∧ (b.canon = true → u.mregF m Reg.CAM_BIND 0 5 = fld val 0 5 ∧ bit (u.mreg m Reg.CAM_BIND) 7 = bit val 7
          ∧ ∀ x c, x ≠ m → b.camCh x = some c → u.camCh m ≠ some c)
        ∧ ∀ c : Ch, u.loop[c] = if b.camCh m = some c ∨ u.camCh m = some c then { b.loop[c] with camAge := 65535, camNew := none } else b.loop[c])
    ∧ RowActs s (.camTrigReq org m t) (fun b u => u.cam[m] = { b.cam[m] with reqDue := true } ∧ ∀ x, x ≠ m → u.cam[x] = b.cam[x])
    ∧ RowActs s (.camTrcArm org m t) (fun b u => b.hk.level = 0 ∧ (b.camTr[m].st ≠ .idle → u.camTr = b.camTr) ∧ (b.camTr[m].st = .idle →
        u.camTr[m].st = (if b.mregF m Reg.CAM_TRC_CFG 0 16 = 0 then .ready else .filling) ∧ u.camTr[m].done = false ∧ u.camTr[m].stored = 0))
    ∧ RowActs s (.camTrcTrig org m t) (fun b u => ((b.camTr[m].st = .filling ∨ b.camTr[m].st = .ready) → u.camTr[m].st = .post ∧ u.camTr[m].trigDue = true
          ∧ u.camTr[m].recStoke = toW b.cam[m].ends ∧ (b.camTr[m].st = .filling → u.camTr[m].preShort = true))
        ∧ ((b.camTr[m].st = .idle ∨ b.camTr[m].st = .post) → u.camTr = b.camTr))
    ∧ RowActs s (.camTrcAbort org m t) (fun b u => u.camTr[m].st = .idle ∧ u.camTr[m].done = false ∧ u.sram = b.sram)

/-- R227–R233: a request starts a set where it may and is counted as lost where it may not; TRIG falls, the next member rises, a pulse is missed; a frame is matched to the
oldest pulse that rose before it, is shaped and joins its set; a matched frame closes the sets before its own; a record completes with the stoke's number in word 15; STOPPING ends once nothing is under way (R244; while the stoke runs with
STOKE_BOUNDARY alone); an archive record of a pipeline, or one that another member forwarded, fills the posted buffer and its descriptor completes; a bad descriptor stops the ring. (That a pulse at exactly MATCH_WIN is still matched is the model's reading.) -/
def Obligations.ExposureSetsAndRecordsFlow : Prop :=
  ∀ (s : State) (m : Cam) (r : Ring) (lines : List (List Nat)) (t : Nat), s.halted = false →
    let a := s.advance t
    let c := s.cam[m]
    let now_ : Int := (a.now : Nat)
    let quiet : Prop := ∀ x, a.camNext m = some x → now_ < x.1
    let free : Prop := c.reqDue = false ∧ (a.mregF m Reg.CAM_TRIG_CFG 0 2 = 0 ∨ a.mregF m Reg.CAM_TRIG_CFG 0 2 = 2)
      ∧ ∀ p, c.pending.head? = some p → now_ < p.rise + a.matchWin m
    let counts (u : State) (o : Nat) : Prop := a.canon = true → u.reg (camReg m o) = satU32 ((a.reg (camReg m o)).toNat + 1)
    let w := a.camW m
    let h := a.camH m
    let padding := if bit (a.mreg m Reg.CAM_MODE) 1 then none else some (a.mregF m Reg.CAM_PAD 0 12)
    let got := lines.map (pclkPixels (bit (a.mreg m Reg.CAM_MODE) 2))
    let raw := shapeLines w padding (a.mregF m Reg.CAM_PAD 0 12) h none got
    let widths := [a.mregF m Reg.CAM_EXP_A 0 24, a.mregF m Reg.CAM_EXP_B 0 24, a.mregF m Reg.CAM_EXP_C 0 24]
    let members := if a.lineScan m then 1 else if 2 ≤ s.hk.level ∧ a.mregF m Reg.CAM_HDR 0 2 = 3 then 2 else a.mregF m Reg.CAM_HDR 0 2
    (quiet → a.mregF m Reg.CAM_TRIG_CFG 0 2 = 2 →
      (c.st = .run → c.exp = none → c.pending.length < 8 → Answers (exec (.triggerRequest m t) s) fun u => ∃ z : CamSet,
        z.setNum = c.setNum ∧ z.tseq = c.tseq ∧ z.members = members ∧ z.widths = widths ∧ z.gen = c.gen
        ∧ u.cam[m].exp = some (z, 0, true, now_ + (nthD widths 0 8 : Nat)) ∧ u.cam[m].rise = some now_
        ∧ u.cam[m].pending = c.pending ++ [⟨c.tseq % 65536, c.setNum, 0, now_⟩] ∧ u.cam[m].opens = c.opens ++ [⟨z, [], false, none, true⟩]
        ∧ u.cam[m].tseq = (c.tseq + 1) % 65536 ∧ u.cam[m].setNum = (c.setNum + 1) % 65536)
      ∧ ((c.st ≠ .run ∨ c.exp.isSome = true ∨ 8 ≤ c.pending.length) → Answers (exec (.triggerRequest m t) s) fun u => u.cam = s.cam ∧ counts u Reg.CAM_TRIG_LOST_CNT))
    ∧ (∀ z i e, c.exp = some (z, i, true, e) → e ≤ now_ → free → i + 1 = z.members → Answers (exec (.exposureEnd m t) s) fun u =>
        u.cam[m].exp = none ∧ u.cam[m].fall = some e ∧ u.cam[m].pending = c.pending ∧ u.cam[m].tseq = c.tseq)
    ∧ (∀ z i e, c.exp = some (z, i, true, e) → e ≤ now_ → free → i + 1 < z.members → now_ < e + (z.gap : Nat) → Answers (exec (.exposureEnd m t) s) fun u =>
        u.cam[m].exp = some (z, i + 1, false, e + (z.gap : Nat)) ∧ u.cam[m].fall = some e ∧ u.cam[m].pending = c.pending ∧ u.cam[m].opens = c.opens)
    ∧ (∀ (z : CamSet) (i : Nat) (e : Int), c.exp = some (z, i, false, e) → e ≤ now_ → free → now_ < e + (nthD z.widths i 8 : Nat) → now_ < e + a.matchWin m →
      Answers (exec (.setMemberRise m t) s) fun u => u.cam[m].exp = some (z, i, true, e + (nthD z.widths i 8 : Nat)) ∧ u.cam[m].rise = some e
        ∧ u.cam[m].pending = c.pending ++ [⟨(z.tseq + i) % 65536, z.setNum, i, e⟩] ∧ u.cam[m].tseq = (c.tseq + 1) % 65536)
    ∧ (∀ p r, c.pending = p :: r → p ∉ r → p.rise + a.matchWin m ≤ now_ → (∀ q, r.head? = some q → now_ < q.rise + a.matchWin m) → c.exp = none → c.reqDue = false →
        (a.mregF m Reg.CAM_TRIG_CFG 0 2 = 0 ∨ a.mregF m Reg.CAM_TRIG_CFG 0 2 = 2) →
        Answers (exec (.pulseMissed m t) s) fun u => u.cam[m].pending = r ∧ counts u Reg.CAM_TRIG_MISS_CNT)
    ∧ (c.st = .stopped → quiet → Answers (exec (.frameStart m t) s) fun u => u = a.modCam m fun c => { c with fv := true })
    ∧ (c.st ≠ .stopped → c.fv = false → quiet →
      let starts (u : State) (tag : Option (Nat × Nat)) : Prop := u.cam[m].fv = true ∧ ∃ f, u.cam[m].cur = some f ∧ f.tag = tag ∧ f.start = s.time.cnt
        ∧ f.thr1 = a.mregF m Reg.CAM_THR1 0 24 ∧ f.thr2 = a.mregF m Reg.CAM_THR2 0 24 ∧ f.spat = a.mreg m Reg.CAM_SPAT ∧ f.dead = false
      (c.pending = [] → Answers (exec (.frameStart m t) s) fun u => starts u none ∧ counts u Reg.CAM_UNTAGGED_CNT ∧ u.cam[m].opens = c.opens)
      ∧ (∀ p r, c.pending = p :: r → p ∉ r → p.rise < now_ → (∀ q ∈ c.pending, now_ ≤ q.rise + a.matchWin m) →
        Answers (exec (.frameStart m t) s) fun u => starts u (some (p.setNum, p.member)) ∧ u.cam[m].pending = r
          ∧ u.cam[m].opens = (if a.lineScan m then c.opens else
              c.opens.filter fun o => o.set.setNum == p.setNum || decide (32768 ≤ (p.setNum + 65536 - o.set.setNum) % 65536))))
    ∧ (∀ (f : CamCur) (n i : Nat) (o : CamOpen), c.cur = some f → f.dead = false → f.tag = some (n, i) → c.opens = [o] → o.set.setNum = n →
      a.lineScan m = false →
      let fr (tmo : Bool) : CamFrame := ⟨i, raw, shapeFlags w h tmo got, s.time.cnt, f.thr1, f.thr2, f.spat, c.ends + 1, f.slot⟩
      let joins (u : State) (tmo : Bool) : Prop := (i + 1 ≠ o.set.members → u.cam[m].opens = [{ o with frames := o.frames ++ [fr tmo] }])
        ∧ (i + 1 = o.set.members → u.cam[m].opens = [] ∧ ∃ x, u.cam[m].done = c.done ++ [x] ∧ x.strip = false ∧ x.close = s.time.cnt
            ∧ fld (nthD x.words 13 0#32) 0 16 = o.set.tseq % 65536)
      (quiet → Answers (exec (.frameEnd m lines t) s) fun u => u.cam[m].fv = false ∧ u.cam[m].cur = none ∧ counts u Reg.CAM_FRAME_CNT ∧ joins u false)
      ∧ (f.start + a.mregF m Reg.CAM_FRAME_TMO 0 16 ≤ s.time.cnt → (s.time.running = true → a.stokeCyc ≤ a.now + 1) →
        Answers (exec (.frameTimeout m lines t) s) fun u => u.cam[m].cur = some { f with dead := true } ∧ counts u Reg.CAM_TMO_CNT
          ∧ counts u Reg.CAM_FRAME_CNT ∧ joins u true))
    ∧ (∀ x l, c.done = x :: l → Answers (exec (.statRecordComplete m t) s) fun u => u.cam[m].done = l
        ∧ u.cam[m].fresh = some { x with words := x.words.take 15 ++ [s.stoke32] }
        ∧ (c.fresh.isSome = true → a.canon = true →
            u.reg (camReg m Reg.CAM_STAT_OVERWRITE_CNT) = satU32 ((a.reg (camReg m Reg.CAM_STAT_OVERWRITE_CNT)).toNat + 1)))
    ∧ (s.time.running = false → c.st = .stopping → c.pending = [] → c.opens = [] → c.exp = none → c.fv = false → quiet →
        Answers (exec (.camStopped m t) s) fun u => u.cam = (a.modCam m fun c => { c with st := .stopped, strip := none }).cam
          ∧ u = { a with cam := u.cam, pool := u.pool } ∧ (c.cur = none → c.strip = none → u.pool = s.pool))
    ∧ (s.time.running = true → Answers (exec (.camStopped m t) s) fun u => u = a)
    ∧ (∀ d : Nat × Nat, s.rings[r].st = .run → s.rings[r].closing = false → 0 < idxDiff s.rings[r].host s.rings[r].dev → s.rings[r].dev < 2 ^ 32 →
      let slot := s.rings[r].dev % a.ringSize r
      let written (u : State) (bs : List Byte) : Prop := Out.buf r.val slot 0 bs ∈ u.outs ∧ u.rings[r].dev = (s.rings[r].dev + 1) % 2 ^ 32
          ∧ Out.desc r.val slot (toW (bs.length + 2 ^ 24 + 2 ^ 25 + 2 ^ 31)) ∈ u.outs
      let stops : Prop := Answers (exec (.archiveWrite r [d] t) s) fun u => u.rings[r].st = .stopped ∧ u.rings[r].cause = 3 ∧ u.cam = s.cam ∧ u.lanes = s.lanes
          ∧ u.ints.pend.getLsbD r.val = true
      (∀ x l, c.arch = x :: l → a.ringRole r = 3 → a.ringInst r = m.val → let bs := a.archBytes m x
        (descGood d = true → bs.length ≤ d.2 → Answers (exec (.archiveWrite r [d] t) s) fun u => u.cam[m].arch = l ∧ u.pool = s.pool + x.pages ∧ written u bs)
        ∧ (descGood d = false → stops))
      ∧ (∀ x l, s.lanes.stage = x :: l → a.ringRole r = 0xC → a.ringInst r = x.1 →
        (descGood d = true → x.2.length ≤ d.2 → Answers (exec (.archiveWrite r [d] t) s) fun u => u.lanes.stage = l ∧ u.cam = s.cam ∧ written u x.2)
        ∧ (descGood d = false → stops)))

/-! The estimators (chapter 11). -/

/-- R251–R255, R261, R262, R267, R269: configuration, START and ABORT; an interval that has passed begins a round with the parameters as they stand; the count leads to
the evaluation, whose checks in R267's order accept, so that the targets are written and ramped to, or reject, so that a round begins again until the limit
of rejections; a ramp that is done goes to IDLE; while the stoke runs STOKE_BOUNDARY alone takes these steps; a crossing whose window has come counts in
exactly one way, and none is kept outside COLLECT. -/
def Obligations.EstimatorsStepAndDecide : Prop :=
  ∀ (s : State) (org : Origin) (n : Fin 6) (k : Fin 24) (c : Ch) (val : Word) (t : Nat),
    let a := s.advance t
    let e := s.est n k
    let base := estBase n k
    RowActs s (.estCfgWrite org n k val t) (fun b u => (b.canon = true → u.reg base = BitVec.ofNat 32 (val.toNat &&& 0xFF07))
      ∧ (b.time.running = true → u.est n k = b.est n k)
      ∧ (b.time.running = false → b.canon = true → (bit val 0 = false → (u.est n k).st = .off ∧ (u.est n k).xs = [])
          ∧ (bit val 0 = true → (b.est n k).st = .off → (u.est n k).st = .idle ∧ (u.est n k).wait = 0)))
    ∧ RowActs s (.estStart org n k t) (fun b u => (b.time.running = true → u.est n k = { b.est n k with start := true } ∧ u.sv = b.sv)
      ∧ (b.time.running = false → (b.est n k).st = .idle → bit (b.reg base) 0 = true → (u.est n k).st = .collect ∧ (u.est n k).xs = []))
    ∧ RowActs s (.estAbort org n k t) (fun b u => (b.time.running = true → u.est n k = { b.est n k with abort := true } ∧ u.sv = b.sv)
      ∧ (b.time.running = false → (b.est n k).stale = true → bit (b.reg base) 0 = true → (u.est n k).st = .idle ∧ (u.est n k).xs = [] ∧ (u.est n k).last = 3))
    ∧ (s.halted = false → s.time.running = true → Answers (exec (.estIntervalExpire n k t) s) (fun u => u = a) ∧ Answers (exec (.estCountMet n k t) s) (fun u => u = a)
      ∧ Answers (exec (.estDecision n k t) s) (fun u => u = a) ∧ Answers (exec (.estRampEnd n k t) s) (fun u => u = a))
    ∧ (s.halted = false → s.time.running = false → a.canon = true → bit (a.reg base) 0 = true → e.abort = false →
      let p (o : Nat) : Word := if e.par = [] then a.reg (base + o) else e.p o
      (e.st = .idle → bit (p 0) 1 = false → (p 0x10).toNat ≤ e.wait + 1 → Answers (exec (.estIntervalExpire n k t) s) fun u =>
        (u.est n k).st = .collect ∧ (u.est n k).xs = [] ∧ (∀ j, j < 28 → (u.est n k).p (4 * j) = a.reg (base + 4 * j))
        ∧ (u.est n k).old = (estTargets n k).map a.reg)
      ∧ (e.st = .collect → e.retarget = [] → estReady e n = true → Answers (exec (.estCountMet n k t) s) fun u =>
        (u.est n k).st = .evaluate ∧ (u.est n k).xs = e.xs ∧ u.sv = s.sv)
      ∧ (e.st = .evaluate → (∀ w ∈ s.bad, regionOf w ≠ 5) → let r := estResult e n
        (estCause e n false r = 0 → e.retarget = [] → Answers (exec (.estDecision n k t) s) fun u => (u.est n k).st = .ramp ∧ (u.est n k).last = 1 ∧ (u.est n k).cause = e.cause
          ∧ (u.est n k).rejRun = 0 ∧ (u.est n k).stuck = false ∧ (u.est n k).cal = min (e.cal + 1) 4294967295 ∧ (u.est n k).xs = []
          ∧ (∀ x ∈ (estTargets n k).zip r.outs, ∀ o, x.2 = some o → u.reg x.1 = o.1))
        ∧ (estCause e n false r ≠ 0 → Answers (exec (.estDecision n k t) s) fun u => (u.est n k).last = 2 ∧ (u.est n k).cause = estCause e n false r
          ∧ u.reg (base + 0x24) = satU32 ((a.reg (base + 0x24)).toNat + 1) ∧ u.sv = s.sv ∧ (∀ x ∈ estTargets n k, u.reg x = a.reg x)
          ∧ (min (e.rejRun + 1) 255 < fld (e.p 0) 8 8 → (u.est n k).st = .collect ∧ (u.est n k).xs = [] ∧ (u.est n k).rejRun = min (e.rejRun + 1) 255)
          ∧ (fld (e.p 0) 8 8 ≤ min (e.rejRun + 1) 255 → (u.est n k).st = .idle ∧ (u.est n k).stuck = true
            ∧ (n ≠ 5 → u.ints.pend.getLsbD (0x80 + k.val) = true))))
      ∧ (e.st = .ramp → s.estRampDone n k = true → Answers (exec (.estRampEnd n k t) s) fun u =>
        (u.est n k).st = .idle ∧ (u.est n k).wait = 0 ∧ u.sv = s.sv))
    ∧ (∀ j x, s.time.cnt = j + 1 → s.cal[c].pend = [x] → (x.mid + fld ((s.est 4 c).p 0x40) 8 7) * 250 < s.time.cnt * a.stokeCyc → s.halted = false → a.canon = true → (s.est 4 c).st = .collect →
      Answers (exec (.xingEvaluate c t) s) fun u =>
        let miss := chReg c Reg.XING_MISS_CNT
        let outl := chReg c Reg.XING_OUTLIER_CNT
        let good := chReg c Reg.XING_CNT
        let up (r : Nat) : Prop := u.reg r = satU32 ((a.reg r).toNat + 1)
        let same (r : Nat) : Prop := u.reg r = a.reg r
        let xs := (s.est 4 c).xs
        u.cal[c].pend = [] ∧ (a.xingWindow c x (fld ((s.est 4 c).p 0x40) 8 7) = none → up miss)
        ∧ ((up miss ∧ same outl ∧ same good ∧ (u.est 4 c).xs = xs) ∨ (same miss ∧ up outl ∧ same good ∧ (u.est 4 c).xs = xs)
          ∨ (same miss ∧ same outl ∧ up good ∧ ∃ y, (u.est 4 c).xs = y :: xs) ∨ (1024 ≤ xs.length ∧ same miss ∧ same outl ∧ same good ∧ (u.est 4 c).xs = xs)))
    ∧ (s.halted = false → s.time.cnt ≠ 0 → (s.est 4 c).st ≠ .collect → Answers (exec (.xingEvaluate c t) s) fun u => u = { a with cal := u.cal } ∧ u.cal[c].pend = []
        ∧ u.est 4 c = s.est 4 c)

/-! The clusters (chapter 12). -/

/-- R32, R270, R271, R274–R278, R282–R284, R286: of the channels that mismatched the lowest is taken over by the reserve where it is available, a stoke later after a test
stoke or a return, and every other stops; a self-test that has run its length and passed leads to shadowing or back to work, one that failed is an attempt of three; after
shadowing the pair waits, and takes its channel back when the gate is quiet; a planned swap is prepared, taken and returned. While the stoke runs STOKE_BOUNDARY alone brings
the failover, the end of a self-test, the revert, the swap and the return about; before RUN their own commands do. -/
def Obligations.ReservesTakeOverAndReturn : Prop :=
  ∀ (s : State) (org : Origin) (k : Cl) (i : Fin 6) (c : Ch) (t : Nat),
    let a := s.advance t
    let logs (b u : State) (l : Cl) (kind ch : Nat) : Prop := b.LogOpen → Logs b u (clReg l Reg.CL_STATUS) 0x12 (toW kind) (toW ch)
    let up (u : State) (r : Nat) : Prop := a.canon = true → u.reg r = satU32 ((a.reg r).toNat + 1)
    let x := s.cl[k]
    let free : Prop := x.st = .standby ∨ x.st = .prep
    let late : Bool := x.phase == .test || x.fresh
    let kc := clusterOf c
    let ic := inCluster c
    let p := s.cl[kc].pairs[ic]
    let back (u : State) (kind : Nat) : Prop := u.cl[kc].st = .standby ∧ u.cl[kc].fresh = true ∧ u.cl[kc].pairs[ic].st = .active
      ∧ u.cl[kc].pairs[ic].attempts = 0 ∧ u.cl[kc].pairs[ic].returnReq = false ∧ u.ch[c].resumed = true ∧ up u (clReg kc Reg.REVERT_CNT) ∧ logs a u kc kind c.val
    -- what the end of a self-test with a known outcome does to the state b
    let ended (b u : State) (pass : Bool) : Prop :=
      let q := b.cl[kc].pairs[ic]
      let r := u.cl[kc].pairs[ic]
      (pass = true → u = { b with cl := u.cl } ∧ r = (if q.st = .out then { q with bistRes := none, bistPassed := true, bistFail := false }
          else if b.clHolds c = true ∧ q.stopped = false then { q with bistRes := none, st := .shadow, shadowLeft := 20000, bistFail := false }
          else { q with bistRes := none, st := .active, stopped := false, bistFail := false, attempts := 0 }))
      ∧ (pass = false → r.bistFail = true ∧ r.attempts = q.attempts + 1 ∧ logs b u kc 3 c.val
          ∧ (q.attempts + 1 < 3 → r.st = (if q.st = .out then .out else .bist) ∧ r.bistLeft = 1600000 / b.stokeCyc)
          ∧ (3 ≤ q.attempts + 1 → r.st = .retired ∧ logs b u kc 4 c.val))
    let takes (u : State) (kind : Nat) : Prop := u.cl[k].st = .cover ∧ u.cl[k].ch = i ∧ u.cl[k].due = [] ∧ u.cl[k].wait = late ∧ u.cl[k].pairs[i].st = .bist
      ∧ u.cl[k].pairs[i].bistLeft = 1600000 / a.stokeCyc + 1 ∧ (late = false → u.ch[chanOf k i].resumed = true) ∧ up u (clReg k Reg.FAILOVER_CNT)
      ∧ logs a u k kind (chanOf k i).val
    let stops (u : State) (j : Fin 6) : Prop := 5 ∈ u.ch[chanOf k j].faultDue ∧ u.cl[k].due = [] ∧ u.cl[k].pairs[j].stopped = true
      ∧ up u (clReg k Reg.CL_STOP_CNT) ∧ u.ints.pend.getLsbD (0xB8 + k.val) = true ∧ logs a u k 5 (chanOf k j).val
    (s.halted = false → s.time.running = false → x.resDue = .nothing → x.ueDue = false → ∀ item spot,
      (x.due = [(i, item, spot)] → free → x.uncov[i] = false → Answers (exec (.failover k t) s) fun u => takes u (if spot then 6 else 1))
      ∧ (x.due = [(i, item, spot)] → (x.uncov[i] = true ∨ ¬free) → Answers (exec (.failover k t) s) fun u => stops u i ∧ u.cl[k].st = x.st)
      ∧ (∀ j item' spot', x.due = [(i, item, spot), (j, item', spot')] → j ≠ i → free → x.uncov[i] = false →
          Answers (exec (.failover k t) s) fun u => takes u (if spot then 6 else 1) ∧ stops u j))
    ∧ (s.halted = false → s.time.running = true → Answers (exec (.failover k t) s) (fun u => u = a) ∧ Answers (exec (.pairRevert c t) s) (fun u => u = a)
      ∧ Answers (exec (.swapPrepDone k t) s) (fun u => u = a) ∧ Answers (exec (.channelReturn c t) s) (fun u => u = a))
    ∧ (s.halted = false → p.st = .bist ∨ (p.st = .out ∧ p.bistPassed = false) → ∀ pass,
      (s.time.running = true → p.bistLeft ≤ 1 → Answers (exec (.bistDone c pass t) s) fun u => u = { a with cl := u.cl }
          ∧ u.cl[kc].pairs[ic] = { p with bistRes := some pass } ∧ ∀ j, j ≠ ic → u.cl[kc].pairs[j] = s.cl[kc].pairs[j])
      ∧ (s.time.running = false → p.bistLeft = 0 → Answers (exec (.bistDone c pass t) s) fun u => ended a u pass))
    ∧ (∀ (b : State) pass, b.cl[kc].pairs[ic].bistRes = some pass → b.cl[kc].pairs[ic].bistLeft = 0 → ended b (b.bistEnd c) pass)
    ∧ (s.halted = false → p.st = .shadow → p.shadowLeft = 0 → Answers (exec (.shadowDone c t) s) fun u => u = { a with cl := u.cl }
        ∧ u.cl[kc].pairs[ic] = { p with st := .waitRevert })
    ∧ (s.halted = false → s.time.running = false → p.st = .waitRevert → s.clHolds c = true → (bit (a.reg (clReg kc Reg.CL_CFG)) 2 = true ∨ p.returnReq = true) →
        s.gateQuiet c = true → Answers (exec (.pairRevert c t) s) fun u => back u 2)
    ∧ (s.halted = false → s.time.running = false → x.st = .prep → x.prepLeft = 0 → Answers (exec (.swapPrepDone k t) s) fun u =>
        u.cl[k].st = .swap ∧ u.cl[k].wait = false ∧ u.cl[k].pairs[x.ch].st = .out ∧ u.cl[k].pairs[x.ch].bistLeft = 1600000 / a.stokeCyc
        ∧ u.ch[chanOf k x.ch].resumed = true ∧ logs a u k 0x0B (chanOf k x.ch).val)
    ∧ (s.halted = false → s.time.running = false → p.st = .out → p.returnReq = true → p.bistPassed = true → s.gateQuiet c = true →
        (s.pendingImg c = none → Answers (exec (.channelReturn c t) s) fun u => back u 0x0C ∧ u.ch[c].active = s.ch[c].active)
        ∧ (∀ m, s.pendingImg c = some m → (s.returnDiffers c = false ∨ s.ch[c].inLayer = false) → Answers (exec (.channelReturn c t) s) fun u => back u 0x0C
            ∧ u.ch[c].active = some m ∧ u.ch[c].inactive = s.ch[c].active ∧ u.ch[c].newBank = true ∧ u.pendingImg c = none))
    ∧ RowActs s (.clSwapTake org k t) (fun b u => ∃ j : Fin 6, j.val = b.regF (clReg k Reg.CL_SWAP_CH) 0 3 ∧ b.cl[k].st = .standby ∧ b.cl[k].pairs[j].st = .active
        ∧ b.ch[chanOf k j].running = true ∧ b.inFault (chanOf k j) = false ∧ b.cl[k].uncov[j] = false
        ∧ b.loadQ.any (·.1 == chanOf k j) = false ∧ u.cl[k].st = .prep ∧ u.cl[k].ch = j ∧ u.cl[k].prepDone = 0
        ∧ ∀ m, b.ch[chanOf k j].active = some m → u.cl[k].prepLeft = max 1 ((m.constLen + 1023) / 1024) + 1)
    ∧ RowActs s (.clSwapReturn org k t) (fun b u => b.swapCh k = i → let q := b.cl[k].pairs[i]
        u.cl[k].pairs[i] = (if q.st = .active ∨ q.st = .retired ∨ q.stopped = true then q else { q with returnReq := true }) ∧ u.ch = b.ch)
    ∧ RowActs s (.clSwapAbort org k t) (fun b u => b.swapCh k = i → (b.cl[k].st = .prep → u.cl[k].st = .standby ∧ u.cl[k].pairs = b.cl[k].pairs ∧ u.ch = b.ch)
        ∧ (b.cl[k].st ≠ .prep → b.cl[k].pairs[i].st = .out → u.pendingImg (chanOf k i) = none
          ∧ (b.cl[k].pairs[i].stopped = false → u.cl[k].pairs[i].returnReq = true) ∧ ∀ y, u.spare = some y → y.owner ≠ chanOf k i)
        ∧ (b.cl[k].st ≠ .prep → b.cl[k].pairs[i].st ≠ .out → u.cl = b.cl ∧ u.ch = b.ch))

/-! The motion axes (chapter 13). -/

/-- R297, R298, R300, R301, R303, R305, R307, R312: a write of MA_CTRL waits for the boundary, but a hard stop stops the axis with the next motion clock; at the boundary its bits
act, and a move is refused that the axis may not make; before RUN a stop and a CLEAR act at once, DISABLE too, and ENABLE and a move are denied. POS_SET, DECEL and
LIM_CLR. (The order of the bits of one write, and what acts at the receipt, are the model's readings.) -/
def Obligations.MotionRegistersAct : Prop :=
  ∀ (s : State) (org : Origin) (n : Ma) (val : Word) (t : Nat),
    let a := s.advance t
    let m := s.ma[n].m
    let row (i : Instr) (now_ : State → Prop) (P : State → State → Prop) (early : State → Prop) : Prop :=
      ∀ x, a.Receives org (maReg n Reg.MA_CTRL) ((regCmd i).elim 0#32 (·.2.2.1)) x → let w := recvWrite org (maReg n Reg.MA_CTRL) ((regCmd i).elim 0#32 (·.2.2.1)) 0 x
        (s.time.running = true → Answers (exec i s) (fun u => u.staged = s.staged ++ [w] ∧ now_ u) ∧ ∀ b : State, b.time.running = true → P b (b.writeEffect x w))
        ∧ (s.time.running = false → a.canon = true → Answers (exec i s) early)
    let waits (u : State) : Prop := u.ma = s.ma
    let hard (u : State) : Prop := u.ma[n].m.drive = .rest ∧ u.ma[n].m.vq = 0 ∧ u.ma[n].m.stopped = true
      ∧ u.ma[n].m.cut = some (match m.cut with | some c => min c (a.now / 8 + 1) | none => a.now / 8 + 1)
      ∧ u.ma[n].m.st = if m.st = .fault ∨ m.drive = .stop .fault then .fault else if m.st = .disabled then .disabled else .idle
    let denied (u : State) : Prop := u.ma = s.ma ∧ u.reg (accReg Reg.DENIED_CNT) = satU32 ((a.reg (accReg Reg.DENIED_CNT)).toNat + 1)
    let off (u : State) : Prop := u.ma[n].m.st = .disabled ∧ u.ma[n].m.drive = .rest ∧ u.ma[n].m.vq = 0 ∧ u.ma[n].m.home = .none ∧ u.ma[n].m.cause = 0
      ∧ u.ma[n].m.all = 0 ∧ u.ma[n].m.brake = false
    let safeStop (b u : State) : Prop := u.ma = b.ma ∧ (org = .safe → u.safe.stop[n] = true) ∧ (org ≠ .safe → u.safe = b.safe)
    let clear (b u : State) : Prop := let q := b.ma[n].m
      (q.cause ≠ 0 → b.maPersists n = false → q.st = .fault →
        u.ma[n].m = { q with st := .idle, cause := 0, all := 0, brake := false, devRun := 0, stall := 0 })
      ∧ ((q.cause = 0 ∨ b.maPersists n = true ∨ q.st ≠ .fault) → u.ma = b.ma)
    let refused (b u : State) : Prop := u.ma = b.ma
      ∧ (b.canon = true → u.reg (maReg n Reg.MOVE_REF_CNT) = satU32 ((b.reg (maReg n Reg.MOVE_REF_CNT)).toNat + 1))
    let begun (u : State) (st : MaSt) : Prop := u.ma[n].m.st = st ∧ u.ma[n].m.short = false ∧ u.ma[n].m.raised = false ∧ u.ma[n].m.overshoot = false
    row (.maEnable org n t) waits (fun b u => u.ma[n].m = { b.ma[n].m with st := if b.ma[n].m.st = .disabled then .idle else b.ma[n].m.st }) denied
    ∧ row (.maDisable org n t) hard (fun _ u => off u) off
    ∧ row (.maStop org n t) (fun u => u.ma[n].m = { m with ramp := true, stopped := true }) safeStop
        (fun u => u.ma[n].m.stopped = true ∧ (org = .safe → u.safe.stop[n] = true) ∧ (m.going = true → u.ma[n].m.drive = .stop .idle ∧ u.ma[n].m.st = .stopping
          ∧ u.ma[n].m.dec = (a.maR n Reg.DECEL).toNat) ∧ (m.going = false → u.ma[n].m.drive = m.drive ∧ u.ma[n].m.st = if m.st = .moving ∨ m.st = .homing then .idle else m.st))
    ∧ row (.maHardStop org n t) hard safeStop (fun u => hard u ∧ (org = .safe → u.safe.stop[n] = true))
    ∧ row (.maClear org n t) waits clear (clear a)
    ∧ row (.maGo org n t) waits (fun b u => let q := b.ma[n].m
        let tg := (b.maR n Reg.TARGET).toInt * 65536
        let dec := (b.maR n Reg.DECEL).toNat
        let may : Prop := (q.st = .idle ∨ q.st = .moving) ∧ b.safe.stop[n] = false ∧ q.blocked (decide (q.acc ≤ tg)) = false
        (may → q.stopped = false → begun u .moving ∧ u.ma[n].m.dec = dec
          ∧ (q.vq = 0 → u.ma[n].m.drive = .move tg ∧ u.ma[n].m.pos = decide (q.acc ≤ tg))
          ∧ (q.vq ≠ 0 → u.ma[n].m.pos = q.pos ∧ u.ma[n].m.drive = if (sBr q.vq dec b.motC : Int) ≤ q.togo tg then .move tg else .stop (.move tg)))
        ∧ (may → q.stopped = true → u.ma = b.ma) ∧ (¬may → refused b u)) denied
    ∧ row (.maJog org n t) waits (fun b u => let q := b.ma[n].m
        let j := (b.maR n Reg.JOG_V).toInt
        let may : Prop := (q.st = .idle ∨ q.st = .moving) ∧ b.safe.stop[n] = false ∧ q.blocked (decide (0 ≤ j)) = false
        (may → q.stopped = false → begun u .moving ∧ (q.vq = 0 ∨ q.pos = decide (0 ≤ j) → u.ma[n].m.drive = .jog j.natAbs ∧ u.ma[n].m.pos = decide (0 ≤ j))
          ∧ (q.vq ≠ 0 → q.pos ≠ decide (0 ≤ j) → u.ma[n].m.drive = .stop (.jog (decide (0 ≤ j)) j.natAbs)))
        ∧ (may → q.stopped = true → u.ma = b.ma) ∧ (¬may → refused b u)) denied
    ∧ row (.maHome org n t) waits (fun b u => let q := b.ma[n].m
        let pos := b.maF n Reg.HOME_CFG 2 1 == 1
        let may : Prop := q.st = .idle ∧ b.safe.stop[n] = false ∧ q.blocked pos = false
        (may → q.stopped = false → begun u .homing ∧ u.ma[n].m.home = .search ∧ u.ma[n].m.homed = false ∧ u.ma[n].m.hdir = pos
          ∧ u.ma[n].m.drive = .jog (b.maF n Reg.HOME_V1 0 24) ∧ u.ma[n].m.pos = pos ∧ u.ma[n].m.hstart = q.acc)
        ∧ (may → q.stopped = true → u.ma = b.ma) ∧ (¬may → refused b u)) denied
    ∧ RowActs s (.posSet org n val t) (fun b u => (b.ma[n].m.st = .disabled ∨ b.ma[n].m.st = .idle) ∧ u.ma[n].m = { b.ma[n].m with acc := val.toInt * 65536 })
    ∧ RowActs s (.decelWrite org n val t) (fun b u => (b.canon = true → u.maR n Reg.DECEL = val) ∧ u.ma[n].m = { b.ma[n].m with decDue := true })
    ∧ RowActs s (.limClr org n val t) (fun b u => ∀ i : Fin 3, (bit val i.val = true → b.limClearOk n i = true)
        ∧ u.ma[n].m.lims[i] = { b.ma[n].m.lims[i] with latch := b.ma[n].m.lims[i].latch && !bit val i.val })

/-- R294, R296, R301, R303–R309, R363: the landing stoke and a ramp stop end (by command before RUN; while the stoke runs STOKE_BOUNDARY alone ends them); a
cause is recorded, stops the axis as STOP_CFG says, interrupts and is logged; a limit input is filtered, latched and stops the axis that travels toward it, or
guides its homing; a record of a motion command ring is executed, waits for its stoke, or stops the ring. -/
def Obligations.MotionEventsAct : Prop :=
  ∀ (s : State) (n : Ma) (k : Fin 3) (smp : Int) (edges us : Nat) (r : Ring) (bytes : List Byte) (t : Nat), s.halted = false →
    let a := s.advance t
    let m := s.ma[n].m
    let announced (u : State) (code : Nat) : Prop := u.ma[n].m.all.testBit (code - 1) = true ∧ (m.cause = 0 → u.ma[n].m.cause = code)
      ∧ u.ints.pend.getLsbD (0xB0 + n.val) = true ∧ (a.LogOpen → ∃ o v, Logs a u (0xB0 + n.val + 65536) 0x15 o v)
    let stops (u : State) (act : Nat) : Prop := (act = 1 → m.going = true → m.st ≠ .fault → u.ma[n].m.drive = .stop .fault ∧ u.ma[n].m.st = .stopping)
      ∧ (act = 1 → m.going = false → u.ma[n].m.st = .fault)
      ∧ (act ≠ 1 → u.ma[n].m.st = .fault ∧ u.ma[n].m.drive = .rest ∧ (act ≠ 2 → u.ma[n].m.brake = true))
    let fresh (code : Nat) : Prop := m.st ≠ .disabled ∧ code ∉ m.due
    let cfg := a.maR n Reg.STOP_CFG
    (s.time.running = false → m.landing = true → Answers (exec (.targetReached n t) s) fun u =>
      u = a.modMa n fun q => { q with landing := false, drive := .rest, vq := 0, v := 0, extra := 0, st := if q.st = .moving then .idle else q.st })
    ∧ (s.time.running = false → m.landing = false → Answers (exec (.targetReached n t) s) fun u => u = a)
    ∧ (∀ x, s.time.running = false → m.drive = .stop x → m.vq < m.dec + 65536 → Answers (exec (.standstill n t) s) fun u =>
      (x = .idle → u = a.modMa n fun q => { q with st := .idle, drive := .rest, vq := 0 })
      ∧ (x = .fault → u = a.modMa n fun q => { q with st := .fault, drive := .rest, vq := 0 })
      ∧ (x = .home → u = a.modMa n fun q => { q with drive := .rest, vq := 0 })
      ∧ (∀ tg, x = .move tg → m.home = .none → u.ma[n].m.vq = 0
        ∧ (m.blocked (decide (m.acc ≤ tg)) = false → u.ma[n].m.drive = .move tg ∧ u.ma[n].m.pos = decide (m.acc ≤ tg) ∧ u.ma[n].m.st = m.st)
        ∧ (m.blocked (decide (m.acc ≤ tg)) = true → u.ma[n].m.drive = .rest ∧ u.ma[n].m.st = .idle ∧ u.ma[n].m.short = true)))
    ∧ (s.time.running = false → ((∀ x, m.drive ≠ .stop x) ∨ m.dec + 65536 ≤ m.vq) → Answers (exec (.standstill n t) s) fun u => u = a)
    ∧ (s.time.running = true → Answers (exec (.targetReached n t) s) (fun u => u = a) ∧ Answers (exec (.standstill n t) s) (fun u => u = a))
    ∧ (a.maBridge n = true → a.ocSample n smp = true → fresh 2 → Answers (exec (.overcurrent n smp t) s) fun u =>
        announced u 2 ∧ u.ma[n].m.oc = true ∧ u.ma[n].m.brake = true ∧ u.ma[n].m.st = .fault ∧ u.ma[n].m.drive = .rest)
    ∧ ((a.maBridge n = false ∨ a.ocSample n smp = false) → Answers (exec (.overcurrent n smp t) s) fun u => u = a)
    ∧ (m.stall ≠ 0 → a.maF n Reg.STALL_STOKES 0 16 ≤ m.stall → fresh 1 → Answers (exec (.stall n t) s) fun u => announced u 1 ∧ stops u (fld cfg 4 2)
        ∧ u.ma[n].m.stall = 0 ∧ (a.canon = true → u.reg (maReg n Reg.STALL_CNT) = satU32 ((a.reg (maReg n Reg.STALL_CNT)).toNat + 1)))
    ∧ (3 ≤ m.devRun → m.all.testBit 3 = false → fresh 4 → Answers (exec (.devFault n t) s) fun u => announced u 4 ∧ stops u (fld cfg 8 2))
    ∧ (m.home = .search → m.found = false → m.going = true → (a.maR n Reg.HOME_RANGE).toNat * 65536 ≤ (m.accAt (a.now / 8) - m.hstart).natAbs → fresh 5 →
        Answers (exec (.homingRangeFail n t) s) fun u => announced u 5 ∧ stops u 1 ∧ u.ma[n].m.failed = true ∧ (m.st ≠ .fault → u.ma[n].m.home = .none))
    ∧ (∀ lvl : Bool, let q := m.lims[k]
        let i : Instr := if lvl then .limitInput n k edges us t else .limitInputRelease n k edges us t
        let cnt := maReg n (Reg.TRANS_CNT + 4 * k.val)
        let counted (u : State) : Prop := a.canon = true → u.reg cnt = satU32 ((a.reg cnt).toNat + edges)
        ((us < a.maF n Reg.LIM_CFG 16 10 ∨ q.filt = lvl) → Answers (exec i s) fun u => counted u ∧ u.ma[n].m.lims[k] = { q with raw := lvl } ∧ u.ma[n].m.drive = m.drive)
        ∧ (a.maF n Reg.LIM_CFG 16 10 ≤ us → q.filt ≠ lvl → (lvl = false →
            Answers (exec i s) fun u => counted u ∧ u.ma[n].m.lims[k] = ⟨false, false, q.latch, (a.now : Nat)⟩ ∧ u.ma[n].m.drive = m.drive ∧ u.ma[n].m.st = m.st)
          ∧ (lvl = true → m.home = .none → let toward := if k = 0 then m.travels true else if k = 1 then m.travels false else m.going
            let act := a.maF n Reg.LIM_CFG (2 * k.val) 2
            Answers (exec i s) fun u => counted u ∧ u.ma[n].m.lims[k] = { q with raw := true, filt := true, latch := true }
              ∧ (q.latch = false → toward = true → act = 2 → u.ma[n].m.drive = .rest ∧ u.ma[n].m.cut.isSome = true)
              ∧ (q.latch = false → toward = true → act = 1 → s.time.running = true → u.ma[n].m.ramp = true ∧ u.ma[n].m.drive = m.drive)
              ∧ (q.latch = false → toward = true → act = 1 → s.time.running = false → u.ma[n].m.drive = .stop .idle ∧ u.ma[n].m.st = .stopping)
              ∧ ((q.latch = true ∨ toward = false ∨ (act ≠ 1 ∧ act ≠ 2)) → u.ma[n].m.drive = m.drive ∧ u.ma[n].m.ramp = m.ramp))
          ∧ (lvl = true → m.home ≠ .none → Answers (exec i s) fun u => counted u ∧ u.ma[n].m.lims[k].latch = true
              ∧ (k = a.homeSrc n → m.home = .search → u.ma[n].m.found = true ∧ u.ma[n].m.drive = m.drive ∧ u.ma[n].m.st = m.st)
              ∧ (k = a.homeSrc n → m.home = .approach → m.found = false → u.ma[n].m.found = true ∧ u.ma[n].m.latched = m.accAt (a.now / 8))
              ∧ (k ≠ a.homeSrc n → k ≠ 2 → q.latch = false → m.home = .search → m.reversed = false → m.found = false → u.ma[n].m.reversed = true
                ∧ u.ma[n].m.st = m.st ∧ u.ma[n].m.drive = if a.maF n Reg.LIM_CFG (2 * k.val) 2 = 1 then .stop .home else .rest)
              ∧ (k ≠ a.homeSrc n → k ≠ 2 → q.latch = false → m.home ≠ .set → (m.home ≠ .search ∨ m.reversed = true ∨ m.found = true) → fresh 5 →
                announced u 5 ∧ stops u 1 ∧ u.ma[n].m.failed = true))))
    ∧ (a.findRing 4 n.val = some r → s.rings[r].st = .run → s.rings[r].closing = false → s.rings[r].dev ≠ s.rings[r].host → s.mcmd[n].wait = none →
      (s.time.running = true → s.mcmd[n].taken = false) → 32 ≤ bytes.length →
      let op := natLE (bytes.take 1)
      let at_ := recW bytes 0x18
      let flags := natLE ((bytes.drop 1).take 1)
      (9 ≤ op → Answers (exec (.mcmdRecord n bytes t) s) fun u => u.rings[r].st = .stopped ∧ u.rings[r].cause = 3 ∧ u.staged = s.staged ∧ u.ma = s.ma)
      ∧ (op < 9 → flags.testBit 5 = true → (0 < (at_ - a.stoke32).toInt ∨ (at_ = a.stoke32 ∧ s.time.running = false)) → Answers (exec (.mcmdRecord n bytes t) s) fun u =>
          u = { a with mcmd := s.mcmd.set n.val ⟨some bytes, at_.toNat, true⟩ n.isLt })
      ∧ (op < 9 → flags.testBit 5 = true → (at_ - a.stoke32).toInt < 0 → a.canon = true → Answers (exec (.mcmdRecord n bytes t) s) fun u =>
          u.mcmd[n] = ⟨some bytes, (a.stoke32 + 1#32).toNat, true⟩ ∧ u.staged = s.staged
          ∧ u.reg (ringReg r Reg.MCMD_LATE_CNT) = satU32 ((a.reg (ringReg r Reg.MCMD_LATE_CNT)).toNat + 1))
      ∧ (op < 9 → (flags.testBit 5 = false ∨ (at_ = a.stoke32 ∧ s.time.running = true)) →
          Answers (exec (.mcmdRecord n bytes t) s) fun u => u = a.mcmdExec n r bytes)
      ∧ (∀ x y, op = 1 → flags = 1 → s.time.running = true → a.Receives .host0 (maReg n Reg.TARGET) (recW bytes 4) x →
          a.Receives .host0 (maReg n Reg.MA_CTRL) 16#32 y → Answers (exec (.mcmdRecord n bytes t) s) fun u =>
          u.staged = s.staged ++ [recvWrite .host0 (maReg n Reg.TARGET) (recW bytes 4) 0 x, recvWrite .host0 (maReg n Reg.MA_CTRL) 16#32 0 y]
          ∧ u.mcmd[n].wait = none ∧ u.mcmd[n].taken = true ∧ u.rings[r].dev = (s.rings[r].dev + 1) % 2 ^ 32))

/-! Position and events (chapters 01, 14). -/

/-- R22, R23, R313–R326: a pin of the event matrix drives the lines that select it, whose destinations act two motion clocks on; an encoder's frame is read and judged; the quadrature track
counts; an index event aligns it; probes capture, compare units arm, disarm and fire; the passthrough repeats a frame. (That A leads B as the count rises is the
model's choice.) -/
def Obligations.EncodersProbesAndComparesAct : Prop :=
  ∀ (s : State) (org : Origin) (n : Ma) (p : Fin 4) (pin : Fin 8) (level ready pa pb : Bool) (bits t : Nat),
    let a := s.advance t
    let e := s.ma[n].e
    let m := s.ma[n].m
    let c := s.ma[n].c
    let f := s.ma[n].f
    let mode := a.maF n Reg.CMP_CFG 0 2
    let up (u : State) (r : Nat) : Prop := a.canon = true → u.reg r = satU32 ((a.reg r).toNat + 1)
    (s.halted = false → Answers (exec (.evSourceEvent pin level t) s) fun u => ∀ l : Fin 64, let x := evReg (Reg.EVL_SRC + 4 * l.val)
      fld (a.reg x) 0 10 = 0xC8 + pin.val → u.evt.lines[l].active = (level != bit (a.reg x) 12)
        ∧ (s.evt.lines[l].active = false → (level != bit (a.reg x) 12) = true → up u (evReg (Reg.EV_CNT + 4 * l.val))
          ∧ u.evt.lines[l].until_ = max (s.evt.lines[l].until_) (((a.now / 8 + 1) * 8 + 8 * max 1 (fld (a.reg x) 16 8) : Nat) : Int)
          ∧ (a.evBusy l = false → ∀ d, d < 96 → bit (a.reg (evReg (Reg.EVD_SEL + 4 * d))) 8 = true → fld (a.reg (evReg (Reg.EVD_SEL + 4 * d))) 0 6 = l.val →
              (d, (a.now / 8 + 2) * 8) ∈ u.evt.acts)))
    ∧ (s.halted = false → s.time.running = true → (a.encSrc n = 1 ∨ a.encSrc n = 2) → e.read = none →
      (ready = false → Answers (exec (.encFrame n ready bits t) s) fun u =>
        u.ma[n].e = { e with read := some { cause := 1, pos := e.pos, word := e.word, base := e.base, inc := e.incB, stat := e.stat }, rawOk := false, tried := true } ∧ u.ma[n].m = m)
      ∧ (ready = true → let fr := a.maR n Reg.ENC_FRAME
        let b := bits % 2 ^ frameBits fr
        let ps := bitsMsb (fld fr 8 6 + fld fr 16 4) (b / 2 ^ fld fr 24 4)
        let st := b / 2 ^ fld fr 24 4 % 2 ^ fld fr 16 4
        let word := natBits (ps.take (fld fr 8 6))
        Answers (exec (.encFrame n ready bits t) s) fun u => u.ma[n].e.rawBits = b ∧ u.ma[n].e.rawOk = true ∧ u.ma[n].e.tried = true ∧ u.ma[n].m = m
          ∧ ∃ r, u.ma[n].e.read = some r ∧ r.inc = e.incB ∧ r.stat = st
            ∧ (bit (a.maR n Reg.ENC_CFG) 2 = false → r.word = word)
            ∧ (bit (a.maR n Reg.ENC_CFG) 2 = false → bit (a.maR n Reg.ENC_CFG) 3 = false → bit (a.maR n Reg.ENC_CFG) 4 = false →
                r.pos = intW (wrap32 ((word : Int) + (a.maR n Reg.ENC_OFFSET).toInt)))
            ∧ (st &&& fld (a.maR n Reg.ENC_CHK) 8 8 ≠ 0 → r.cause = 3)
            ∧ (st &&& fld (a.maR n Reg.ENC_CHK) 8 8 = 0 → chkOk fr (a.maR n Reg.ENC_CHK) ps b = false → r.cause = 2)
            ∧ (st &&& fld (a.maR n Reg.ENC_CHK) 8 8 = 0 → chkOk fr (a.maR n Reg.ENC_CHK) ps b = true →
              let jm := (a.maR n Reg.ENC_JUMP_MAX).toNat
              r.cause = if jm ≠ 0 ∧ e.tried = true ∧ jm < (wrap32 (r.pos.toInt - e.pos.toInt)).natAbs then 4 else 0)))
    ∧ (s.halted = false → (s.time.running = false ∨ (a.encSrc n ≠ 1 ∧ a.encSrc n ≠ 2) ∨ e.read.isSome = true) →
        Answers (exec (.encFrame n ready bits t) s) fun u => u = a)
    ∧ (s.halted = false → a.maF n Reg.ENC_ERR_STOKES 0 8 ≠ 0 → a.maF n Reg.ENC_ERR_STOKES 0 8 ≤ e.invalid → m.all.testBit 6 = false → m.st ≠ .disabled → 7 ∉ m.due →
        Answers (exec (.encFault n t) s) fun u => u.ma[n].m.all.testBit 6 = true ∧ (m.cause = 0 → u.ma[n].m.cause = 7) ∧ u.ints.pend.getLsbD (0xB0 + n.val) = true
          ∧ (m.going = true → m.st ≠ .fault → fld (a.maR n Reg.STOP_CFG) 10 2 = 1 → u.ma[n].m.drive = .stop .fault)
          ∧ (fld (a.maR n Reg.STOP_CFG) 10 2 ≠ 1 → u.ma[n].m.drive = .rest ∧ u.ma[n].m.st = .fault))
    ∧ (s.halted = false → Answers (exec (.quadratureEdge n pa pb t) s) fun u =>
        let d := (quadPos pa pb + 4 - quadPos e.pa e.pb) % 4
        let r := u.ma[n].e
        r.pa = pa ∧ r.pb = pb ∧ u.ma[n].m = m ∧ ((a.encSrc n < 2 ∨ d = 0) → r.inc = e.inc ∧ r.illegal = e.illegal)
        ∧ (2 ≤ a.encSrc n → d = 1 → r.inc = wrap32 (e.inc + 1)) ∧ (2 ≤ a.encSrc n → d = 3 → r.inc = wrap32 (e.inc - 1))
        ∧ (2 ≤ a.encSrc n → d = 2 → r.inc = e.inc ∧ r.illegal = true ∧ up u (maReg n Reg.INC_ERR_CNT)))
    ∧ (s.halted = false → let cfg := a.maR n Reg.IDX_CFG
      let r := idxError (wrap32 e.inc) (a.maR n Reg.IDX_EXPECT).toInt (a.maR n Reg.IDX_PERIOD).toNat
      (fld cfg 0 2 = 0 → Answers (exec (.indexEvent n t) s) fun u => u = a.modEnc n fun e => { e with pz := !bit cfg 3 })
      ∧ (fld cfg 0 2 ≠ 0 → bit cfg 2 = true → ¬(e.pa = true ∧ e.pb = true) → Answers (exec (.indexEvent n t) s) fun u => u = a.modEnc n fun e => { e with pz := !bit cfg 3 })
      ∧ (fld cfg 0 2 ≠ 0 → (bit cfg 2 = true → e.pa = true ∧ e.pb = true) → (a.encSrc n ≠ 3 ∨ (fld cfg 0 2 = 2 ∧ e.idxArmed = false)) →
          Answers (exec (.indexEvent n t) s) fun u => u.ma[n].e = { e with pz := !bit cfg 3, idxLast := intW (wrap32 e.inc) } ∧ up u (maReg n Reg.IDX_CNT))
      ∧ (fld cfg 0 2 ≠ 0 → (fld cfg 0 2 = 2 → e.idxArmed = true) → (bit cfg 2 = true → e.pa = true ∧ e.pb = true) → a.encSrc n = 3 →
        (r.natAbs ≤ (a.maR n Reg.IDX_WIN).toNat → Answers (exec (.indexEvent n t) s) fun u => u.ma[n].e.inc = wrap32 (wrap32 e.inc - r) ∧ u.ma[n].e.idxBad = false
          ∧ u.ma[n].e.idxArmed = (e.idxArmed && fld cfg 0 2 != 2) ∧ u.ma[n].e.idxCorr = (r != 0) ∧ u.ma[n].e.idxLast = intW (wrap32 e.inc) ∧ up u (maReg n Reg.IDX_CNT))
        ∧ ((a.maR n Reg.IDX_WIN).toNat < r.natAbs → Answers (exec (.indexEvent n t) s) fun u => u.ma[n].e.inc = e.inc ∧ u.ma[n].e.idxBad = true
          ∧ u.ma[n].e.idxLast = intW (wrap32 e.inc) ∧ up u (maReg n Reg.IDX_CNT) ∧ up u (maReg n Reg.IDX_BAD_CNT))))
    ∧ RowActs s (.idxArm org n t) (fun b u => u.ma[n].e = { b.ma[n].e with idxArmed := true } ∧ u.ma[n].m = b.ma[n].m)
    ∧ (s.halted = false → let cfg := a.reg (prbReg (Reg.PRB_CFG + 4 * p.val))
      let hit : Prop := bit cfg 0 = true ∧ bit cfg 1 = false ∧ bit cfg (if level then 2 else 3) = true
      Answers (exec (.probeTrigger p level t) s) fun u => u.prb[p].level = level
        ∧ (¬hit → u.prb[p] = { s.prb[p] with level := level })
        ∧ (hit → up u (prbReg (Reg.PRB_CNT + 4 * p.val)) ∧ (s.prb[p].full = true → up u (prbReg (Reg.PRB_LOST_CNT + 4 * p.val))))
        ∧ (hit → s.prb[p].full = true → bit cfg 16 = false → u.prb[p] = { s.prb[p] with level := level })
        ∧ (hit → s.prb[p].full = false ∨ bit cfg 16 = true → u.prb[p].full = true ∧ u.prb[p].stoke = s.stoke32 ∧ u.prb[p].clk = a.now / 8
          ∧ (∀ x : Ma, u.prb[p].pos[x.val]? = some (intW (microOf (s.ma[x].m.accAt (a.now / 8)))) ∧ u.prb[p].fb[x.val]? = some (intW (a.fbNow x)))))
    ∧ RowActs s (.prbRearm org p t) (fun b u => ∀ q : Fin 4, u.prb[q] = if q = p ∧ b.prbSame p = false then { b.prb[q] with full := false } else b.prb[q])
    ∧ RowActs s (.cmpArm org n t) (fun b u => (b.time.running = true → u.ma[n].c = { b.ma[n].c with armDue := true } ∧ u.ma[n].m = b.ma[n].m)
      ∧ (b.time.running = false → b.ma[n].c.disDue = false → b.maF n Reg.CMP_CFG 0 2 = 1 → u.ma[n].c.armed = true ∧ u.ma[n].c.done = false
          ∧ u.ma[n].c.v = (b.maR n Reg.CMP_VAL).toInt ∧ u.ma[n].c.behind = notAhead (bit (b.maR n Reg.CMP_CFG) 2) (b.maR n Reg.CMP_VAL).toInt (b.cmpPos n))
      ∧ (b.time.running = false → b.ma[n].c.disDue = false → b.maF n Reg.CMP_CFG 0 2 = 2 → b.maR n Reg.CMP_COUNT = 0#32 → u.ma[n].c.armed = true ∧ u.ma[n].c.done = false
          ∧ notAhead (bit (b.maR n Reg.CMP_CFG) 2) u.ma[n].c.v (b.cmpPos n) = false)
      ∧ (b.time.running = false → b.maF n Reg.CMP_CFG 0 2 = 0 → u.ma[n].c.armed = false))
    ∧ RowActs s (.cmpDisarm org n t) (fun b u => (b.time.running = true → u.ma[n].c = { b.ma[n].c with disDue := true } ∧ u.ma[n].m = b.ma[n].m)
      ∧ (b.time.running = false → u.ma[n].c.armed = false))
    ∧ (s.halted = false → c.armed = true → c.behind = false → mode = 1 → bit (a.maR n Reg.CMP_CFG) 3 = true → bit (a.maR n Reg.CMP_CFG) 2 = false → a.now / 8 = c.clk + 1 →
      let x := microOf (m.accAt (c.clk + 1))
      (c.p < c.v → c.v ≤ x → Answers (exec (.cmpHit n t) s) fun u => u.ma[n].c.armed = false ∧ u.ma[n].c.done = true ∧ up u (maReg n Reg.CMP_HIT_CNT)
        ∧ u.ma[n].c.until_ = ((c.clk + 2 + fld (a.maR n Reg.CMP_CFG) 16 16 : Nat) : Int))
      ∧ (¬(c.p < c.v ∧ c.v ≤ x) → Answers (exec (.cmpHit n t) s) fun u => u = a.modCmp n fun c => { c with p := x, clk := c.clk + 1 }))
    ∧ (s.halted = false → (c.armed = false ∨ bit (a.maR n Reg.CMP_CFG) 3 = false) →
        Answers (exec (.cmpHit n t) s) fun u => u = a.modCmp n fun c => { c with clk := max c.clk (a.now / 8) })
    ∧ (s.halted = false → (a.now / 8 : Nat) < c.until_ → Answers (exec (.cmpPulseEnd n t) s) fun u => u = a)
    ∧ (s.halted = false → c.until_ ≤ (a.now / 8 : Nat) → Answers (exec (.cmpPulseEnd n t) s) fun u => u.ma[n].c.until_ ≤ (a.now / 8 : Nat)
        ∧ u = a.modCmp n fun c => { c with until_ := u.ma[n].c.until_ })
    ∧ (s.halted = false → a.maF n Reg.FWD_CFG 0 2 = 1 →
      (∀ b r, f.bits = some (b :: r) → Answers (exec (.fwdClockEdge n true t) s) fun u => u.ma[n].f = ⟨some r, b, some (a.now : Nat)⟩ ∧ u.ma[n].e = e)
      ∧ (f.bits = none → e.rawOk = true → Answers (exec (.fwdClockEdge n false t) s) fun u =>
          u.ma[n].f = { f with bits := some (bitsMsb (frameBits (a.maR n Reg.ENC_FRAME)) e.rawBits), highAt := none } ∧ u.ma[n].e = e)
      ∧ ((∀ b r, f.bits ≠ some (b :: r)) → Answers (exec (.fwdClockEdge n true t) s) fun u =>
          u.ma[n].f = { f with pin := f.pin && f.bits.isNone, highAt := some (a.now : Nat) } ∧ u.ma[n].e = e)
      ∧ ((f.bits ≠ none ∨ e.rawOk = false) → Answers (exec (.fwdClockEdge n false t) s) fun u =>
          u.ma[n].f = { f with pin := f.pin && f.bits != some [], highAt := none } ∧ u.ma[n].e = e))
    ∧ (s.halted = false → a.maF n Reg.FWD_CFG 0 2 ≠ 1 → ∀ rise, Answers (exec (.fwdClockEdge n rise t) s) fun u => u = a)
    ∧ (s.halted = false → (f.bits ≠ some [] ∨ ∀ h : Int, f.highAt = some h → (a.now : Nat) < h + (800 * a.maF n Reg.FWD_CFG 8 8 : Nat)) →
        Answers (exec (.fwdMonoExpire n t) s) fun u => u = a)
    ∧ (s.halted = false → ∀ h : Int, f.bits = some [] → f.highAt = some h → h + (800 * a.maF n Reg.FWD_CFG 8 8 : Nat) ≤ (a.now : Nat) →
        Answers (exec (.fwdMonoExpire n t) s) fun u => u = a.modFwd n fun f => { f with bits := none, pin := e.rawOk })

/-! Powder-bed illumination (chapter 15). -/

/-- R329–R337: an update starts a frame of the outputs' words, or asks for one more; a strobe request opens the strobe after its delay, or is lost while one is pending or open; it closes
after its width, and the sensors of the chain take their mean and move their gain; a latched frame is checked and its returns evaluated; a test pulse
runs its length. (The statement is about chains without a camera mask where it names an instant.) -/
def Obligations.ChainsAndStrobesAct : Prop :=
  ∀ (s : State) (org : Origin) (c : Fin 4) (lux : List (List Nat)) (ret : List Word) (t : Nat),
    let a := s.advance t
    let now_ : Int := (a.now : Nat)
    let i := s.ill[c]
    let up (b u : State) (o : Nat) : Prop := b.canon = true → u.reg (illReg (o + 0x100 * c.val)) = satU32 ((b.reg (illReg (o + 0x100 * c.val))).toNat + 1)
    let delay (b : State) : Int := (8 * b.illF c Reg.STB_DELAY 0 16 : Nat)
    let width (b : State) : Int := (8 * b.illF c Reg.STB_WIDTH 0 20 : Nat)
    let asked (b u : State) (at_ : Int) : Prop := b.illCams c = [] →
      ((b.nDrv c = 0 ∨ b.illDead = true) → b.ill[c].pendAt = none → b.ill[c].openAt = none → b.ill[c].testAt = none → b.ill[c].testWait = false → u.ill = b.ill)
      ∧ (b.nDrv c ≠ 0 → b.illDead = false →
      (b.ill[c].pendAt = none → b.ill[c].openAt = none → b.ill[c].testAt = none → b.ill[c].testWait = false → 0 < width b →
        (0 < delay b → u.ill[c] = { b.ill[c] with pendAt := some (at_ + delay b) })
        ∧ (delay b = 0 → u.ill[c] = { b.ill[c] with openAt := some (at_, at_ + width b) } ∧ up b u Reg.STB_CNT))
      ∧ (∀ o e, b.ill[c].pendAt = none → b.ill[c].openAt = none → b.ill[c].testAt = some (o, e) → at_ < e → 0 < delay b → u.ill[c].testAt = none
        ∧ u.ill[c].pendAt = some (at_ + delay b) ∧ u.ill[c].closedAt = at_ ∧ u.ill[c].onMax = max b.ill[c].onMax ((at_ - o) / 8).toNat ∧ up b u Reg.DIAG_CUT_CNT)
      ∧ (∀ p, b.ill[c].pendAt = some p → b.ill[c].openAt = none → b.ill[c].testAt = none → at_ < p → u.ill = b.ill ∧ up b u Reg.STB_LOST_CNT)
      ∧ (∀ o e, b.ill[c].openAt = some (o, e) → at_ < e → u.ill = b.ill ∧ up b u Reg.STB_LOST_CNT))
    let instant (b : State) : Int := if b.time.running then 0 else (b.now : Nat)
    let gap : Int := (2 * a.chainClk c : Nat)
    RowActs s (.illUpdate org c t) (fun b u => (b.nDrv c = 0 → u.ill = b.ill)
      ∧ (b.nDrv c ≠ 0 → b.ill[c].shift ≠ none → u.ill[c] = { b.ill[c] with again := true })
      ∧ (b.nDrv c ≠ 0 → b.ill[c].shift = none → ∃ ws lim, u.ill[c].shift = some (ws, instant b + (256 * b.nDrv c * b.chainClk c : Nat), lim) ∧ ws.length = 16 * b.nDrv c
          ∧ ∀ j, j < 16 * b.nDrv c → let o := b.reg (illReg (Reg.ILL_OUT + 0x800 * c.val + 4 * j))
            let g : Fin 4 := ⟨fld o 13 2 % 4, Nat.mod_lt _ (by decide)⟩
            ws[j]? = some (if bit o 12 then
              toW ((clampI 0 (min b.ill[c].ceil 4095 : Nat) ((Q.ofInt (fld o 0 12 : Nat)).mul (qOfF (b.luxGain g))).rne).toNat + 4096) else 0#32)))
    ∧ RowActs s (.illStrobe org c t) (fun b u => asked b u (instant b))
    ∧ (s.halted = false → Answers (exec (.strobeRequest c t) s) fun u => asked a u now_)
    ∧ (s.halted = false → a.illCams c = [] →
      (∀ p, i.pendAt = some p → i.openAt = none → i.testAt = none → p ≤ now_ → now_ < p + width a → Answers (exec (.strobeOpen c t) s) fun u =>
        u.ill[c] = { i with pendAt := none, openAt := some (p, p + width a) } ∧ up a u Reg.STB_CNT)
      ∧ (∀ o e, i.openAt = some (o, e) → i.pendAt = none → i.testWait = false → e ≤ now_ → (bit (a.illR c Reg.ILL_CFG) 17 = false ∨ now_ < e + 8) →
        Answers (exec (.strobeClose c lux t) s) fun u => u.ill[c].openAt = none ∧ u.ill[c].closedAt = e ∧ u.ill[c].onMax = max i.onMax ((e - o) / 8).toNat
          ∧ u.ill[c].luxDue = none ∧ u.ill[c].testWait = (bit (a.illR c Reg.ILL_CFG) 17 && (decide (a.illF c Reg.DIAG_INTERVAL 0 16 ≤ i.strobes + 1) || i.testAgain))
          ∧ u.ill[c].strobes = (if a.illF c Reg.DIAG_INTERVAL 0 16 ≤ i.strobes + 1 then 0 else i.strobes + 1)
          ∧ (bit (a.illR c Reg.ILL_CFG) 16 = false → u.ill[c].shift = i.shift)
          ∧ (bit (a.illR c Reg.ILL_CFG) 16 = true → a.nDrv c ≠ 0 → i.shift = none → ∃ ws lim, u.ill[c].shift = some (ws, e + (256 * a.nDrv c * a.chainClk c : Nat), lim))
          ∧ ∀ b : Fin 4, a.canon = true → bit (a.reg (luxReg b Reg.LUX_CFG)) 0 = true → fld (a.reg (luxReg b Reg.LUX_CFG)) 1 2 = c.val →
            let x := (nthD lux b.val []).take ((((e - o) / 8).toNat + 99 - fld (a.reg (luxReg b Reg.LUX_CFG)) 8 8) / 100)
            x ≠ [] →
            let meas := fdiv (fOfInt (x.foldl (· + ·) 0 : Nat)) (fOfInt (x.length : Nat))
            let tgt := fOfInt (fld (a.reg (luxReg b Reg.LUX_TGT)) 0 16 : Nat)
            u.reg (luxReg b Reg.LUX_MEAS) = toW (clampI 0 65535 (qOfF meas).rne).toNat
            ∧ u.reg (luxReg b Reg.LUX_GAIN) = if (∃ k : Fin 4, s.ill[k].limited.testBit b.val = true) ∧ flt 0#32 (fdiv (fsub tgt meas) tgt) = true
              then a.reg (luxReg b Reg.LUX_GAIN) else fclamp (a.reg (luxReg b Reg.G_MIN)) (a.reg (luxReg b Reg.G_MAX))
                (fadd (a.reg (luxReg b Reg.LUX_GAIN)) (fmul (a.reg (luxReg b Reg.LUX_K)) (fdiv (fsub tgt meas) tgt))))
      ∧ (∀ ws e lim, i.shift = some (ws, e, lim) → ws.length ≤ 512 → i.pendAt = none → i.openAt = none → i.testAt = none → i.testWait = false → e + gap ≤ now_ →
        i.closedAt + gap ≤ now_ → a.canon = true → Answers (exec (.chainLatch c ret t) s) fun u =>
          (i.again = false → u.ill[c].shift = none) ∧ (i.again = true → a.nDrv c ≠ 0 → ∃ v l, u.ill[c].shift = some (v, now_ + (256 * a.nDrv c * a.chainClk c : Nat), l))
          ∧ u.ill[c].again = false ∧ u.ill[c].latched = ws ∧ u.ill[c].limited = lim ∧ u.ill[c].prevWords = i.latched ∧ u.ill[c].prevOn = i.onMax ∧ u.ill[c].onMax = 0
          ∧ up a u Reg.ILL_FRAME_CNT
          ∧ ((∀ j, j < ws.length → fld (nthD ret j 0#32) 12 4 = 5) → u.ill[c].chainErr = false
            ∧ ∀ j, j < ws.length → let st := illReg (Reg.ILL_STAT + 0x800 * c.val + 4 * j)
              let p := nthD i.prevWords j 0#32
              u.reg st = illStat (a.reg st) (nthD ret j 0#32) (if bit p 12 = true ∧ fld p 0 12 ≠ 0 then i.prevOn else 0) (a.illF c Reg.T_DIAG_MIN 0 16))
          ∧ ((∃ j, j < ws.length ∧ fld (nthD ret j 0#32) 12 4 ≠ 5) → u.ill[c].chainErr = true ∧ up a u Reg.CHAIN_ERR_CNT))
      ∧ (i.pendAt = none → i.openAt = none → i.testAt = none → i.testWait = false → (∀ ws e lim, i.shift = some (ws, e, lim) → now_ < e + gap) →
        Answers (exec (.chainLatch c ret t) s) fun u => u = a)
      ∧ (i.testWait = true → i.pendAt = none → i.openAt = none → i.testAt = none → i.closedAt + 8 ≤ now_ → now_ < i.closedAt + 8 + (8 * a.illF c Reg.T_DIAG_MIN 0 16 : Nat) →
        Answers (exec (.testPulse c t) s) fun u => u = a.modIll c fun u => { u with testWait := false, testAt := some (u.closedAt + 8, u.closedAt + 8 + (8 * a.illF c Reg.T_DIAG_MIN 0 16 : Nat)) })
      ∧ (∀ o e, i.testAt = some (o, e) → i.pendAt = none → i.openAt = none → i.testWait = false → e ≤ now_ → Answers (exec (.testPulseEnd c t) s) fun u =>
        u = a.modIll c fun u => { u with testAt := none, closedAt := e, onMax := max u.onMax ((e - o) / 8).toNat, testAgain := false }))

/-! Consumables (chapter 16). -/

/-- R341, R342, R344–R346, R348–R350, R353: the transactions of a tag bus: a poll, an authentication that reads the memory, challenges the tag and is judged, a write-back of the other
copy, a host transfer; what each answer or silence leads to, and the states of R346. (The order of the checks is the model's reading.) -/
def Obligations.TagsAreReadAndJudged : Prop :=
  ∀ (s : State) (org : Origin) (g : Fin 26) (frames : List (List Byte)) (val : Word) (t : Nat),
    let a := s.advance t
    let k := s.tags.tag[g]
    let idle (b : State) : Prop := b.tags.tag[g].job = .none ∧ (b.tags.tag[g].wb = none ∨ b.tags.tag[g].held = true)
    let sent (u : State) (bs : List Byte) : Prop := Out.tag g.val (tagFrame bs) ∈ u.outs
    let err (u : State) : Prop := a.canon = true → u.reg (tagReg (Reg.TAG_ERR_CNT + 4 * g.val)) = satU32 ((a.reg (tagReg (Reg.TAG_ERR_CNT + 4 * g.val))).toNat + 1)
    let auth (b u : State) : Prop := (idle b → u.tags.tag[g].job = .auth [] ∧ u.tags.tag[g].authDue = false ∧ sent u (tagReadReq 0 64))
      ∧ (b.tags.tag[g].job ≠ .none → u.tags.tag[g].job = b.tags.tag[g].job ∧ u.tags.tag[g].authDue = true)
    (s.halted = false →
      (bit (a.reg (tagReg Reg.TAG_EN)) g.val = true → (idle s → k.authDue = false → Answers (exec (.tagPoll g t) s) fun u =>
            u.tags.tag[g] = { k with job := .poll, pollDue := false } ∧ sent u [0x33#8])
          ∧ (k.job ≠ .none → Answers (exec (.tagPoll g t) s) fun u => u.tags.tag[g] = { k with pollDue := true } ∧ u.outs = a.outs))
      ∧ (k.job = .poll → k.wb = none → k.pollDue = false → k.authDue = false → k.xferDue = false →
        (∀ d, tagResp 8 frames = some d → (k.st = .absent ∨ k.seen ≠ some (natLE d)) → Answers (exec (.readId g frames t) s) fun u =>
          u.tags.tag[g].st = .checking ∧ u.tags.tag[g].cause = 0 ∧ u.tags.tag[g].seen = some (natLE d) ∧ u.tags.tag[g].fails = 0 ∧ u.tags.tag[g].job = .auth []
          ∧ sent u (tagReadReq 0 64))
        ∧ (∀ d, tagResp 8 frames = some d → k.st ≠ .absent → k.seen = some (natLE d) → Answers (exec (.readId g frames t) s) fun u =>
          u.tags.tag[g] = { k with fails := 0, job := .none } ∧ u.outs = a.outs)
        ∧ (tagResp 8 frames = none → Answers (exec (.readId g frames t) s) fun u => err u ∧ u.tags.tag[g].fails = min 3 (k.fails + 1) ∧ u.tags.tag[g].job = .none
          ∧ (2 ≤ k.fails → u.tags.tag[g].st = .absent ∧ (k.st ≠ .absent → u.tags.tag[g].seen = none ∧ u.ints.pend.getLsbD 0xC7 = true))
          ∧ (k.fails < 2 → u.tags.tag[g].st = k.st)))
      ∧ (∀ mem, k.job = .auth mem →
        (∀ d, tagResp 64 frames = some d → mem.length + d.length < 256 → Answers (exec (.tagRead g frames t) s) fun u =>
          u.tags.tag[g] = { k with job := .auth (mem ++ d) } ∧ sent u (tagReadReq (mem.length + d.length) 64))
        ∧ (∀ d, tagResp 64 frames = some d → 256 ≤ mem.length + d.length → Answers (exec (.tagRead g frames t) s) fun u =>
          ∃ ch, u.tags.tag[g] = { k with job := .sign (mem ++ d) ch } ∧ sent u ([0xC3#8] ++ ch))
        ∧ (tagResp 64 frames = none → Answers (exec (.tagRead g frames t) s) fun u => err u ∧ u.tags.tag[g] = { k with job := .judge none }))
      ∧ (∀ mem ch, k.job = .sign mem ch → (∀ d, tagResp 64 frames = some d → Answers (exec (.tagSign g frames t) s) fun u =>
            u = a.modTag g fun u => { u with job := .judge (some (mem, ch, d)) })
          ∧ (tagResp 64 frames = none → Answers (exec (.tagSign g frames t) s) fun u => err u ∧ u.tags.tag[g] = { k with job := .judge none }))
      ∧ (∀ r id, k.job = .judge r → k.seen = some id →
        (a.tagJudge g id r ≠ 0 → Answers (exec (.tagAuthenticate g t) s) fun u => u.tags.tag[g].st = (if k.st = .expired then .expired else .rejected)
          ∧ u.tags.tag[g].cause = (if k.st = .expired then k.cause else a.tagJudge g id r) ∧ u.tags.tag[g].id = k.id)
        ∧ (∀ mem ch sig, r = some (mem, ch, sig) → a.tagJudge g id r = 0 → Answers (exec (.tagAuthenticate g t) s) fun u => let v := u.tags.tag[g]
          v.id = some id ∧ v.cause = (if k.st = .expired then k.cause else 0) ∧ v.st = (if k.st = .expired ∨ v.expires g = true then .expired else .ready)
          ∧ v.limA = toW (natLE ((mem.drop 4).take 4)) ∧ v.limB = toW (natLE ((mem.drop 8).take 4))
          ∧ (k.id = some id → v.a = k.a ∧ v.b = k.b)
          ∧ (∀ c, tagCurrent mem = some c → v.seq = c.2 ∧ v.copy = c.1 ∧ (k.id ≠ some id → k.fresh = false →
              v.a = (Q.ofInt (natLE ((mem.drop (0xC4 + 0x20 * c.1)).take 8) : Nat)).toD ∧ v.b = toW (natLE ((mem.drop (0xCC + 0x20 * c.1)).take 4))))))
      ∧ (∀ n, k.job = .xfer n → k.wb = none → k.pollDue = false → k.authDue = false → k.xferDue = false →
        let x := a.reg (tagReg Reg.XFER_CTRL)
        let ends (u : State) (failed : Bool) : Prop := u.tags.tag[g] = { k with job := .none } ∧ u.tags.busy = false ∧ (if failed then u.tags.fail = true else u.tags.done = true)
        (bit x 30 = false → tagResp (fld x 8 8) frames = none → Answers (exec (.tagRead g frames t) s) fun u => err u ∧ ends u true)
        ∧ (∀ d, bit x 30 = false → fld x 8 8 ≤ 64 → tagResp (fld x 8 8) frames = some d → Answers (exec (.tagRead g frames t) s) fun u => ends u false
          ∧ (a.canon = true → ∀ j, j < 16 → 4 * j + 4 ≤ d.length → u.reg (tagReg (Reg.XFER_DATA + 4 * j)) = toW (natLE ((d.drop (4 * j)).take 4))))
        ∧ (bit x 30 = true → tagResp 1 frames ≠ some [0#8] → Answers (exec (.tagWrite g frames t) s) fun u => err u ∧ ends u true)
        ∧ (bit x 30 = true → tagResp 1 frames = some [0#8] → n + 32 < fld x 8 8 → Answers (exec (.tagWrite g frames t) s) fun u =>
            u.tags.tag[g] = { k with job := .xfer (n + 32) } ∧ sent u ([0x5A#8] ++ b16 (0x100 + fld x 16 11 + (n + 32)) ++ (((a.xferBytes.take (fld x 8 8)).drop (n + 32) ++ bz 32).take 32)))
        ∧ (bit x 30 = true → tagResp 1 frames = some [0#8] → fld x 8 8 ≤ n + 32 → Answers (exec (.tagWrite g frames t) s) fun u => ends u false))
      ∧ (k.job = .none → Answers (exec (.readId g frames t) s) (fun u => u = a) ∧ Answers (exec (.tagRead g frames t) s) (fun u => u = a)
        ∧ Answers (exec (.tagWrite g frames t) s) (fun u => u = a) ∧ Answers (exec (.tagSign g frames t) s) (fun u => u = a) ∧ Answers (exec (.tagAuthenticate g t) s) (fun u => u = a))
      ∧ (k.st ≠ .ready → k.st ≠ .expired → Answers (exec (.tagAuthInterval g t) s) fun u => u = a)
      ∧ ((k.st = .ready ∨ k.st = .expired) → Answers (exec (.tagAuthInterval g t) s) fun u => auth s u ∧ u.tags.tag[g].st = k.st)
      ∧ (∀ w, k.job = .write w → k.wb = none → k.pollDue = false → k.authDue = false → k.xferDue = false →
        (tagResp 1 frames = some [0#8] → Answers (exec (.tagWrite g frames t) s) fun u => u.tags.tag[g] = { k with job := .none, seq := k.seq + 1, copy := 1 - k.copy, layers := k.layers + w.layers, recA := w.a, flag := k.flag || w.expired, held := false })
        ∧ (tagResp 1 frames ≠ some [0#8] → Answers (exec (.tagWrite g frames t) s) fun u => err u ∧ u.tags.tag[g] = { k with job := .none, held := true, wb := some w }))
      ∧ ((s.time.running = true → a.stokeCyc ≤ a.now + 1) → s.time.running = true → (s.time.cnt + 1) % 65536 = 0 → Answers (exec (.bankMirrorUpdate t) s) fun u =>
          u.tags = s.tags ∧ ∀ x : Fin 26, u.bank.tags[x] = match s.tags.tag[x].id with
            | some id => some (BitVec.ofNat 64 id, BitVec.ofNat 64 s.tags.tag[x].aNat, s.tags.tag[x].b.zeroExtend 64)
            | none => a.bank.tags[x]))
    ∧ RowActs s (.tagCtrlAuth org g t) (fun b u => (b.tags.tag[g].st = .absent → u.tags = b.tags)
        ∧ (b.tags.tag[g].st ≠ .absent → auth b u ∧ u.tags.tag[g].st = if b.tags.tag[g].st = .rejected then .checking else b.tags.tag[g].st))
    ∧ RowActs s (.tagCtrlWrite org g t) (fun b u => let q := b.tags.tag[g]
        (q.id = none → u.tags = b.tags)
        ∧ (q.id ≠ none → q.job = .none → q.held = false → q.st ≠ .absent → q.seen = q.id → q.wb = none → ∃ w, w.a = q.aNat ∧ w.b = q.b ∧ w.layers = 0 ∧ w.expired = q.expires g
            ∧ u.tags.tag[g].job = .write w ∧ u.tags.tag[g].wb = none ∧ sent u ([0x5A#8] ++ b16 q.other ++ q.record w)
            ∧ u.tags.tag[g].st = if q.expires g = true ∧ q.st = .ready then .expired else q.st)
        ∧ (q.id ≠ none → (q.held = true ∨ q.st = .absent ∨ q.seen ≠ q.id) → u.tags.tag[g].held = true ∧ ∃ w, u.tags.tag[g].wb = some w ∧ w.a = q.aNat ∧ w.b = q.b))
    ∧ RowActs s (.xferGo org val t) (fun b u => (bit val 31 = false → u.tags = b.tags)
        ∧ (bit val 31 = true → fld val 16 11 + fld val 8 8 ≤ 1792 ∧ b.tags.busy = false ∧ u.tags.busy = true ∧ u.tags.done = false ∧ u.tags.fail = false
          ∧ (fld val 0 5 = g.val → b.tags.tag[g].job ≠ .none → u.tags.tag[g].xferDue = true)
          ∧ (fld val 0 5 = g.val → idle b → b.tags.tag[g].authDue = false → b.tags.tag[g].pollDue = false → u.tags.tag[g].job = .xfer 0
            ∧ (b.canon = true → bit val 30 = false → sent u (tagReadReq (0x100 + fld val 16 11) (fld val 8 8))))))

/-! Rings, interrupts and the host link (chapter 17). -/

/-- R356–R360, R368, R369: a ring is enabled with the index of its block and the host index held for it, stopped by a block that cannot be read,
rung within its size, disabled at once or when its requests have completed; a vector is acknowledged or unmasked, pending bits of the writing function
are cleared, unless their condition arises in the same clock, and set again while their cause persists; the age of an advance raises the ring's source. (That a ring of ROLE 0x07 may take a record of
the command's own log entry is why its index is left out.) -/
def Obligations.RingsAndVectorsAct : Prop :=
  ∀ (s : State) (org : Origin) (r : Ring) (aux : Nat) (val : Word) (v : Fin 256) (w : Fin 8) (t : Nat),
    let a := s.advance t
    RowActs s (.ringEnable org r aux t) (fun b u => let q := b.rings[r]
        (q.st ≠ .disabled → u.rings[r].st = q.st)
        ∧ (q.st = .disabled → b.ringTwin r = false → aux < 2 ^ 32 → u.rings[r].st = .run ∧ u.rings[r].cause = 0 ∧ u.rings[r].closing = false
          ∧ (b.ringRole r ≠ 7 → u.rings[r].dev = aux ∧ u.rings[r].drops = 0
            ∧ u.rings[r].badDb = (b.ringKind r != 1 && decide (b.ringSize r < idxDiff q.host aux))
            ∧ u.rings[r].host = if b.ringKind r = 1 ∨ b.ringSize r < idxDiff q.host aux then aux else q.host))
        ∧ (q.st = .disabled → b.ringTwin r = false → 2 ^ 32 ≤ aux → u.rings[r].st = .stopped ∧ u.rings[r].cause = 1 ∧ u.ints.pend.getLsbD r.val = true))
    ∧ RowActs s (.ringDisable org r t) (fun b u => match b.rings[r].st with
        | .disabled => u.rings[r].st = .disabled
        | .run => u.rings[r].st = .run ∧ u.rings[r].closing = true
        | .stopped => u.rings[r].st = .disabled ∧ u.rings[r].cause = 0)
    ∧ RowActs s (.ringDoorbell org r val t) (fun b u => u = b.modRing r fun q => { q with host := val.toNat })
    ∧ RowActs s (.intAck org v t) (fun b u =>
        ((orgFunc org ≠ some (vecFunc v) ∨ b.ints.wait.getLsbD v = false) → u = b)
        ∧ (orgFunc org = some (vecFunc v) → b.ints.wait.getLsbD v = true →
          ((∀ src < 256, b.ints.pend.getLsbD src = true → b.vecOf src ≠ some v.val) → u.ints.wait.getLsbD v = false ∧ u.outs = b.outs)
          ∧ ((∃ src < 256, b.ints.pend.getLsbD src = true ∧ b.vecOf src = some v.val) →
            (b.ints.mask.getLsbD v = false → u.ints.wait.getLsbD v = true ∧ u.outs = Out.msi v.val :: b.outs)
            ∧ (b.ints.mask.getLsbD v = true → u.ints.wait.getLsbD v = false ∧ u.ints.pba.getLsbD v = true ∧ u.outs = b.outs))))
    ∧ RowActs s (.intPendClear org w val t) (fun b u => ∀ src < 256, u.ints.pend.getLsbD src =
        (b.ints.pend.getLsbD src && (!(decide (src / 32 = w.val) && bit val (src % 32) && (orgFunc org == some (vecFunc (b.mapVec src)))) || b.srcPersists src
          || bit (b.clkHeld (hostReg (Reg.INT_PEND + 4 * (src / 32)))) (src % 32))))
    ∧ (s.halted = false →
      (∀ x, a.Receives org (ringReg r Reg.RING_DOORBELL) val x → org = a.ringOwner r → a.rings[r].st ≠ .disabled →
        (if a.ringKind r = 1 then a.ringSize r < idxDiff a.rings[r].dev val.toNat else a.ringSize r < idxDiff val.toNat a.rings[r].dev) →
        Answers (exec (.ringDoorbell org r val t) s) fun u => u.rings[r].badDb = true ∧ u.rings[r].host = a.rings[r].host ∧ u.rings[r].st = a.rings[r].st)
      ∧ (a.rings[r].st = .run → a.rings[r].closing = true → Answers (exec (.ringDisableDone r t) s) fun u =>
          u.rings[r].st = .disabled ∧ u.rings[r].closing = false ∧ Out.index r.val a.rings[r].dev a.rings[r].drops a.stoke32.toNat ∈ u.outs)
      ∧ (¬(a.rings[r].st = .run ∧ a.rings[r].closing = true) → Answers (exec (.ringDisableDone r t) s) fun u => u = a)
      ∧ (∀ n, a.rings[r].age = some n → let c := a.reg (ringReg r Reg.RING_INT_CFG)
        (fld c 0 16 ≠ 0 → fld c 16 16 ≤ n → Answers (exec (.ringIntStokes r t) s) fun u => u.ints.pend.getLsbD r.val = true
          ∧ u.rings = (a.modRing r fun q => { q with advSince := 0, age := none }).rings)
        ∧ ((fld c 0 16 = 0 ∨ n < fld c 16 16) → Answers (exec (.ringIntStokes r t) s) fun u => u = a))
      ∧ (a.rings[r].age = none → Answers (exec (.ringIntStokes r t) s) fun u => u = a)
      ∧ Answers (exec (.msixVectorUnmask v t) s) fun u => u.ints.mask.getLsbD v = false ∧ u.ints.pba.getLsbD v = false
          ∧ (a.ints.pba.getLsbD v = true → u.outs = Out.msi v.val :: a.outs ∧ u.ints.wait.getLsbD v = true)
          ∧ (a.ints.pba.getLsbD v = false → u.outs = a.outs ∧ u.ints.wait = a.ints.wait))

/-- R356: link down, hot reset and the reset of function 0 stop every ring in RUN with cause LINK, disarm the lasers with TRIP.CAUSE HOST, ramp every moving axis down and
mask the function's vectors; the reset of function 1 does so to its own rings and vectors alone. (That the vectors are masked again is the model's
reading.) Link up gives HOST_STATUS its rate, width and bus-master bits. -/
def Obligations.LinkDownStopsRingsAndLasers : Prop :=
  ∀ (s : State) (k : DownKind) (rate width : Nat) (bm0 bm1 : Bool) (t : Nat), s.halted = false →
    let a := s.advance t
    let f := if k = .flr1 then 1 else 0
    Answers (exec (.linkDown k t) s) (fun u =>
      (∀ r : Ring, a.rings[r].st = .run → (k ≠ .flr1 ∨ a.ringFunc r ≠ 0) → u.rings[r].st = .stopped ∧ u.rings[r].cause = 4 ∧ u.ints.pend.getLsbD r.val = true)
      ∧ (∀ r : Ring, (a.rings[r].st ≠ .run ∨ (k = .flr1 ∧ a.ringFunc r = 0)) → u.rings[r].st = a.rings[r].st ∧ u.rings[r].cause = a.rings[r].cause)
      ∧ (∀ c : Ch, u.las[c] = if k ≠ .flr1 ∧ a.las[c].arm ≠ .disarmed then { a.las[c] with arm := .disarmed, armWait := 0, trip := 1, tripDue := 0 } else a.las[c])
      ∧ (s.time.running = true → ∀ n : Ma, u.ma[n] = if k ≠ .flr1 ∧ (a.ma[n].m).going = true then { a.ma[n] with m := { a.ma[n].m with stopped := true, ramp := true } } else a.ma[n])
      ∧ (s.time.running = false → ∀ n : Ma, (k ≠ .flr1 → (a.ma[n].m).going = true → u.ma[n].m.drive = .stop .idle ∧ u.ma[n].m.st = .stopping)
        ∧ ((k = .flr1 ∨ (a.ma[n].m).going = false) → u.ma[n] = a.ma[n]))
      ∧ u.link = (match k with
        | .linkDown | .hotReset => ⟨false, 0, 0, false, false⟩
        | .flr0 => { a.link with bm0 := false }
        | .flr1 => { a.link with bm1 := false })
      ∧ (∀ v : Fin 256, u.ints.mask.getLsbD v = (a.ints.mask.getLsbD v || (match k with
        | .linkDown | .hotReset => true
        | .flr0 => decide (v.val < 192)
        | .flr1 => decide (192 ≤ v.val))))
      ∧ u.ints.pend.getLsbD 0xCC = true
      ∧ (a.LogOpen → a.log.held.length < 3000 → Logs a u (0xCC + f * 256 + 65536) 0x15 (toW a.hostStatus) (toW u.hostStatus)))
    ∧ Answers (exec (.pcieLinkUp rate width bm0 bm1 t) s) (fun u => u = { a with link := ⟨true, rate % 8, width % 16, bm0, bm1⟩ })

/-! The Suder lanes (chapter 18). -/

/-- R385–R392, R374, R381, R383: a port is enabled, powered down and retrained, trains, aligns, finds its partner and comes up; it is lost or times out;
frames, replays, peer messages, forwarded records and idle intervals arrive. A gang frame that meets an uncorrectable word of the lane buffers is dropped. -/
def Obligations.LanePortsTrainAndCarry : Prop :=
  ∀ (s : State) (org : Origin) (p : Fin 2) (t : Nat),
    let a := s.advance t
    let k := s.lanes.port[p]
    let q : Fin 2 := otherPort p
    let cnt (u : State) (r n : Nat) : Prop := a.canon = true → u.reg r = satU32 ((a.reg r).toNat + n)
    RowActs s (.portEn org p t) (fun b u => u.lanes = if b.lanes.port[p].st = .off ∧ b.portLooped p = false then (b.modPort p fun x => x.enter .train).lanes else b.lanes)
    ∧ RowActs s (.portDis org p t) (fun b u => u.lanes.port[p].st = .off ∧ u.lanes.port[p].cause = 0 ∧ u.lanes.port[q] = b.lanes.port[q]
        ∧ ∀ x ∈ b.lanes.port[p].heldOld ++ b.lanes.port[p].held, x.1 ≠ 6 → ∃ m ∈ u.lanes.msgs, m.cls = x.1 ∧ m.bytes = x.2)
    ∧ (∀ force, RowActs s (.portRetrain org p force t) (fun b u =>
        (b.lanes.port[p].st = .up → u.lanes.port[p].st = .train ∧ (force = true ∨ b.anyLayer = false ∨ b.lanes.port[q].st = .up))
        ∧ (b.lanes.port[p].st = .fault → b.portLooped p = false → u.lanes.port[p].st = .train ∧ u.lanes.port[p].cause = 0)
        ∧ (b.lanes.port[p].st = .fault → b.portLooped p = true → u.lanes.port[p].st = .fault)
        ∧ (b.lanes.port[p].st ≠ .up → b.lanes.port[p].st ≠ .fault → u.lanes = b.lanes) ∧ u.lanes.port[q] = b.lanes.port[q]))
    ∧ (s.halted = false →
      (∀ x, a.Receives org (portReg p Reg.PORT_CTRL) 4#32 x → a.anyLayer = true → s.lanes.port[q].st ≠ .up → Answers (exec (.portRetrain org p false t) s) fun u =>
          u.lanes = s.lanes ∧ cnt u (accReg Reg.DENIED_CNT) 1)
      ∧ (∀ ls : List (Nat × Nat × List Word), ls.length = 4 → k.st = .train → Answers (exec (.portTrainDone p ls t) s) fun u =>
          (∀ i : Fin 4, ∀ x, ls[i.val]? = some x → (u.lanes.port[p].lanes[i]).fom = min 255 x.1 ∧ (u.lanes.port[p].lanes[i]).ctle = x.2.1 % 16)
          ∧ u.lanes.port[p].st = if ∀ x ∈ ls, fld (a.reg (portReg p Reg.PORT_CFG)) 8 8 ≤ min 255 x.1 then .align else .train)
      ∧ (∀ ls : List (Nat × Nat × List Word), ls.length = 4 → k.st = .up → Answers (exec (.portTrainDone p ls t) s) fun u => u.lanes.port[p].st = .up
          ∧ ∀ i : Fin 4, ∀ x, ls[i.val]? = some x → (u.lanes.port[p].lanes[i]).fom = min 255 x.1 ∧ (u.lanes.port[p].lanes[i]).ctle = x.2.1 % 16)
      ∧ (∀ ls, k.st ≠ .train → k.st ≠ .up → Answers (exec (.portTrainDone p ls t) s) fun u => u = a)
      ∧ (∀ order inv skew, k.st ≠ .align → Answers (exec (.codewordLock p order inv skew t) s) fun u => u = a)
      ∧ (∀ dev tm compat, k.st ≠ .link → Answers (exec (.identityPacket p dev tm compat t) s) fun u => u = a)
      ∧ (∀ time, (k.st ≠ .link ∨ 64 ≤ k.probes) → Answers (exec (.rttProbe p time t) s) fun u => u = a)
      ∧ (k.st ≠ .train → k.st ≠ .align → k.st ≠ .link → Answers (exec (.trainTimeout p t) s) fun u => u = a)
      ∧ (∀ n, k.st ≠ .up → Answers (exec (.portLoss p n t) s) fun u => u = a)
      ∧ (∀ order inv skew, order.length = 4 → k.st = .align → Answers (exec (.codewordLock p order inv skew t) s) fun u =>
          if fld (a.reg (portReg p Reg.PORT_CFG)) 0 2 ≠ 1 ∧ (order ≠ [0, 1, 2, 3] ∨ true ∈ inv) then u = a.modPort p fun x => { x with st := .fault, cause := 1 }
          else if 64 < skew then u = a
          else u.lanes.port[p].st = .link ∧ u.lanes.port[p].polFix = decide (true ∈ inv) ∧ u.lanes.port[p].reversed = decide (order ≠ [0, 1, 2, 3])
            ∧ ∀ i : Fin 4, (u.lanes.port[p].lanes[i]).lock = true ∧ some (u.lanes.port[p].lanes[i]).logical = order[i.val]?.map (· % 4))
      ∧ (∀ dev tm compat, k.st = .link → Answers (exec (.identityPacket p dev tm compat t) s) fun u => let y := u.lanes.port[p]
          y.partner = dev.val ∧ y.partnerTm = tm ∧ y.partnerCompat = compat
          ∧ (if dev.val = s.devNum then y.st = .fault ∧ y.cause = 2 else if compat = true ∧ tm = true then y.st = .fault ∧ y.cause = 3
             else y.known = true ∧ y.st = if 64 ≤ k.probes then .up else .link))
      ∧ (∀ time, k.st = .link → k.probes < 64 → Answers (exec (.rttProbe p time t) s) fun u => let y := u.lanes.port[p]
          y.probes = k.probes + 1 ∧ y.rttSum = k.rttSum + time ∧ y.st = (if k.known = true ∧ k.probes = 63 then .up else .link)
          ∧ y.rtt = if k.probes = 63 then (Q.mk' (k.rttSum + time) 64).rne.toNat else k.rtt)
      ∧ ((k.st = .train ∨ k.st = .align ∨ k.st = .link) → Answers (exec (.trainTimeout p t) s) fun u =>
          u.lanes.port[p] = { k.enter .train with seed := (k.seed + 1) % 16 } ∧ cnt u (portReg p Reg.TRAIN_CNT) 1)
      ∧ (∀ n, k.st = .up → Answers (exec (.portLoss p n t) s) fun u =>
          u.lanes.port[p].st = (if bit (a.reg (portReg p Reg.PORT_CFG)) 2 = true then .train else .off) ∧ cnt u (portReg p Reg.LINK_DOWN_CNT) 1
          ∧ u.ints.pend.getLsbD 0xC8 = true ∧ (a.LogOpen → Logs a u (0xC8 + p.val * 256 + 65536) 0x15 (toW k.status) (toW (u.lanes.port[p].status)))
          ∧ ∀ x ∈ (k.heldOld ++ k.held).drop ((k.heldOld ++ k.held).length - n), x.1 ≠ 6 → ∃ m ∈ u.lanes.msgs, m.cls = x.1 ∧ m.bytes = x.2)
      ∧ (∀ f : GangFrame, (a.laneMet.1 = true ∨ k.st ≠ .up ∨ f.dev.val = s.devNum) → Answers (exec (.gangFrame p f t) s) fun u => u = a.laneMet.2)
      ∧ ((∀ x ∈ a.bad, regionOf x ≠ 9) → a.laneMet = (false, a))
      ∧ (∀ f : GangFrame, a.laneMet.1 = false → k.st = .up → f.dev.val ≠ s.devNum → Answers (exec (.gangFrame p f t) s) fun u =>
          (s.lanes.port[q].st = .up → s.lanes.port[q].partner ≠ f.dev.val → Out.frame q.val (s.frameFor q f) ∈ u.outs)
          ∧ ((∀ x ∈ s.gm.frames, x.1.dev = f.dev → x.1.stoke ≠ f.stoke) → ∃ early, u.gm.frames = s.gm.frames ++ [(f, early)] ∧ (early = true ↔ (s.time.running = false ∨ a.now + 400 < a.stokeCyc)))
          ∧ ((∃ x ∈ s.gm.frames, x.1.dev = f.dev ∧ x.1.stoke = f.stoke) → u.gm = s.gm))
      ∧ (∀ n uncorr corr, Answers (exec (.packetReplay p n uncorr corr t) s) fun u => cnt u (portReg p Reg.REPLAY_CNT) n
          ∧ cnt u (portReg p Reg.FEC_UNCORR_CNT) uncorr ∧ cnt u (portReg p Reg.FEC_CORR_CNT) corr)
      ∧ (∀ (r : Ring) (d : Fin 4) bytes, let m := (bytes ++ bz 64).take 64
        a.rings[r].st = .run → a.rings[r].closing = false → a.ringRole r = 0x0B → a.ringInst r = 4 + d.val → a.findRing 0x0B (4 + d.val) = some r →
        a.rings[r].dev ≠ a.rings[r].host → d.val ≠ s.devNum → (∀ x ∈ s.lanes.msgs, ¬(x.unsent = true ∧ x.dst = d.val) ∧ ¬(x.cls = 5 ∧ x.src = s.devNum ∧ x.dst = d.val)) →
        Answers (exec (.peerMessage (some r) bytes t) s) fun u => match s.lanes.route[d] with
          | some w => Out.lane w.val 5 (a.peerStamp d.val m) ∈ u.outs ∧ u.lanes.msgs = s.lanes.msgs ∧ u.rings[r].dev = (a.rings[r].dev + 1) % 2 ^ 32
          | none => u = { a with lanes := { s.lanes with msgs := s.lanes.msgs ++ [⟨5, d.val, s.devNum, m, 0, true⟩] } })
      ∧ (∀ r bytes, (a.rings[r].st ≠ .run ∨ a.rings[r].closing = true ∨ a.ringRole r ≠ 0x0B ∨ a.ringInst r < 4 ∨ a.rings[r].dev = a.rings[r].host) →
        Answers (exec (.peerMessage (some r) bytes t) s) fun u => u = a)
      ∧ (∀ (d : Fin 4) bytes, let m := (bytes ++ bz 64).take 64
        let b := (nthD bytes 0 0#8).toNat
        b / 4 % 4 = d.val → (∀ x ∈ s.lanes.msgs, ¬(x.cls = 5 ∧ x.src = b % 4 ∧ x.dst = d.val)) →
        (d.val ≠ s.devNum → Answers (exec (.peerMessage none bytes t) s) fun u => match s.lanes.route[d] with
          | some w => Out.lane w.val 5 m ∈ u.outs ∧ u.lanes.msgs = s.lanes.msgs
          | none => u.lanes.msgs = s.lanes.msgs ++ [⟨5, d.val, b % 4, m, 0, false⟩])
        ∧ (∀ r, d.val = s.devNum → a.findRing 0x0B (b % 4) = some r → a.rings[r].st = .run → a.ringFull r = false → a.rings[r].closing = false →
          Answers (exec (.peerMessage none bytes t) s) fun u => Out.slot r.val (a.rings[r].dev % a.ringSize r) m ∈ u.outs ∧ u.lanes.msgs = s.lanes.msgs
            ∧ u.rings[r].dev = (a.rings[r].dev + 1) % 2 ^ 32)
        ∧ (d.val = s.devNum → (∀ r, a.findRing 0x0B (b % 4) = some r → a.rings[r].st = .run ∧ a.ringFull r = true) →
          Answers (exec (.peerMessage none bytes t) s) fun u => u.lanes.msgs = s.lanes.msgs ++ [⟨5, d.val, b % 4, m, 0, false⟩]))
      ∧ (let old := s.lanes.msgs.filter fun m => decide (a.peerTmo ≤ m.age)
        Answers (exec (.peerMsgTimeout t) s) fun u => u.lanes.msgs = s.lanes.msgs.filter (fun m => decide (m.age < a.peerTmo))
          ∧ cnt u (lanReg Reg.PEER_DROP_CNT) old.length)
      ∧ (∀ (d dst : Fin 4) room bytes,
        (dst.val ≠ s.devNum → ∀ b w, bytes = some b → s.lanes.route[dst] = some w → Answers (exec (.forwardedArchive d dst room bytes t) s) fun u => Out.lane w.val 6 b ∈ u.outs)
        ∧ (dst.val ≠ s.devNum → (bytes = none ∨ s.lanes.route[dst] = none) → Answers (exec (.forwardedArchive d dst room bytes t) s) fun u => u = a.laneMet.2.bump (hostReg Reg.FWD_DROP_CNT))
        ∧ (dst.val = s.devNum → ∀ b r, bytes = some b → a.findRing 0x0C d.val = some r → a.rings[r].st = .run → room = true →
          Answers (exec (.forwardedArchive d dst room bytes t) s) fun u => u.lanes.stage = s.lanes.stage ++ [(d.val, b.take 6 ++ [nthD b 6 0#8 ||| 1#8] ++ b.drop 7)])
        ∧ (dst.val = s.devNum → (bytes = none ∨ room = false ∨ ∀ r, a.findRing 0x0C d.val = some r → a.rings[r].st ≠ .run) →
          Answers (exec (.forwardedArchive d dst room bytes t) s) fun u => u = a.laneMet.2.bump (hostReg Reg.FWD_DROP_CNT)))
      ∧ Answers (exec (.electricalIdle p t) s) (fun u => u.lanes.port[p] = { k with idle := k.idle || (k.st == .up && (bit (a.reg (portReg p Reg.PORT_CFG)) 3 || decide (2 ≤ s.hk.level))) })
      ∧ Answers (exec (.idleExit p t) s) (fun u => u.lanes.port[p] = { k with idle := false }))

/-! The change log, the safety port and the service port (chapter 19). -/

/-- R396, R399–R407: an entry drains with its place in the chain, heads travel between members, a window of denied writes closes (by command before RUN alone); a safety transaction answers the one
before it, and disarms, caps, stops, lifts or reads; a bad CRC does nothing but count; the service port reads when locked, and writes after a response that verifies. -/
def Obligations.LogSafetyAndServicePortsAct : Prop :=
  ∀ (s : State) (t : Nat), s.halted = false →
    let a := s.advance t
    let cnt (u : State) (r : Nat) : Prop := a.canon = true → u.reg r = satU32 ((a.reg r).toNat + 1)
    let resp (u : State) (st : Nat) : Prop := Out.safe a.safe.status a.safe.seq a.safe.data ∈ u.outs ∧ u.safe.status = st
      ∧ u.safe.seq = if st = 0 then (a.safe.seq + 1) % 256 else a.safe.seq
    (a.time.running = false → Answers (exec (.suppressWindowEnd t) s) fun u => u.log.denied = 0 ∧ u.log.suppressed = 0
      ∧ (a.log.suppressed = 0 → u.log.held = a.log.held) ∧ (a.log.suppressed ≠ 0 → a.LogOpen → Logs a u 0 3 0#32 (satU32 a.log.suppressed)))
    ∧ (a.time.running = true → Answers (exec (.suppressWindowEnd t) s) fun u => u = a)
    ∧ (∀ e rest r, a.log.held = e :: rest → a.findRing 6 0 = some r → a.rings[r].st = .run → a.rings[r].closing = false → a.ringFull r = false →
      let place := a.rings[r].dev % a.ringSize r
      let damaged : Prop := (a.ueMet 10).1 = true ∧ ((a.ueMet 10).2.ueMet 10).1 = true
      ((∀ w ∈ s.bad, regionOf w ≠ 10) → ¬damaged)
      ∧ Answers (exec (.logDrain t) s) fun u => (¬damaged → Out.slot r.val place (e.bytes e.chain) ∈ u.outs)
        ∧ (damaged → (∃ bs : List Byte, bs.length = 32 ∧ Out.slot r.val place bs ∈ u.outs) ∧ (a.LogOpen → ∃ y ∈ u.log.held, y.kind = 0x21))
        ∧ u.bank.drained = e.seq ∧ u.rings[r].dev = (a.rings[r].dev + 1) % 2 ^ 32 ∧ (rest.length < 4096 → u.log.gap = 0) ∧ (a.log.gap = 0 → ¬damaged → u.log.held = rest))
    ∧ ((a.log.held = [] ∨ a.findRing 6 0 = none ∨ ∃ r, a.findRing 6 0 = some r ∧ (a.rings[r].st ≠ .run ∨ a.rings[r].closing = true ∨ a.ringFull r = true)) →
      Answers (exec (.logDrain t) s) fun u => u = a)
    ∧ (let seq := (a.bank.seq + 2 ^ 48 - 1) % 2 ^ 48
      ((a.tai.1 ≠ a.lanes.headSec ∨ a.lanes.headDue ≠ 0) → Answers (exec (.peerHeadSend t) s) fun u => u.lanes.headSec = a.tai.1
        ∧ u.lanes.headDue = (if a.tai.1 = a.lanes.headSec then a.lanes.headDue - 1 else a.lanes.headDue)
        ∧ ∀ (d : Fin 4) p, a.gm.dev[d].heard = true → d.val ≠ a.devNum → a.lanes.route[d] = some p → (∀ x ∈ a.lanes.msgs, ¬(x.cls = 4 ∧ x.src = a.devNum ∧ x.dst = d.val)) →
          Out.lane p.val 4 (b8 (a.devNum + 4 * d.val) :: (bytesOfNatLE 6 seq ++ a.bank.head)) ∈ u.outs)
      ∧ (a.tai.1 = a.lanes.headSec → a.lanes.headDue = 0 → Answers (exec (.peerHeadSend t) s) fun u => u = a))
    ∧ (∀ (d dst : Fin 4) seq head, (dst.val = a.devNum → a.LogOpen → Answers (exec (.peerHead d dst seq head t) s) fun u =>
          Logs a u d.val 0x30 (toW (seq % 2 ^ 32)) (toW (natLE (head.take 4))))
      ∧ (∀ p, dst.val ≠ a.devNum → a.lanes.route[dst] = some p → (∀ x ∈ a.lanes.msgs, ¬(x.cls = 4 ∧ x.src = d.val ∧ x.dst = dst.val)) →
        Answers (exec (.peerHead d dst seq head t) s) fun u => Out.lane p.val 4 (b8 (d.val + 4 * dst.val) :: (bytesOfNatLE 6 seq ++ head)) ∈ u.outs)
      ∧ (dst.val ≠ a.devNum → a.lanes.route[dst] = none → Answers (exec (.peerHead d dst seq head t) s) fun u =>
          u.lanes.msgs = a.lanes.msgs ++ [⟨4, dst.val, d.val, b8 (d.val + 4 * dst.val) :: (bytesOfNatLE 6 seq ++ head), 0, false⟩]))
    ∧ (∀ (mask : BitVec 24) (m8 kind what c8 : BitVec 8) (cap : BitVec 16) (hard unknown : Bool),
      (∀ i ∈ [Instr.inhibit mask false t, .pcap c8 cap false t, .mstop m8 hard false t, .lift kind mask false t, .safeRead what false t, .ping unknown false t],
        Answers (exec i s) fun u => resp u 1 ∧ cnt u (accReg Reg.SAFE_CRC_ERR_CNT) ∧ u.staged = a.staged ∧ u.las = a.las ∧ u.ma = a.ma ∧ u.safe.holdDue = a.safe.holdDue
          ∧ u.safe.inh = a.safe.inh ∧ u.safe.pcap = a.safe.pcap ∧ u.safe.stop = a.safe.stop)
      ∧ (s.time.running = true →
        Answers (exec (.inhibit mask true t) s) (fun u => resp u 0
          ∧ ∀ c : Ch, mask.getLsbD c = true → (⟨.safe, chReg c Reg.LAS_CTRL, 2#32, false, 0⟩ : Write) ∈ u.staged ∧ ∀ x ∈ u.safe.holdDue, x.1 = 1 → x.2.testBit c = false)
        ∧ (∀ c : Ch, c.val = c8.toNat →
          (cap.toNat ≤ fld (a.reg (chReg c Reg.LAS_PCAP)) 0 16 → Answers (exec (.pcap c8 cap true t) s) fun u => resp u 0
            ∧ (⟨.safe, chReg c Reg.LAS_PCAP, cap.zeroExtend 32, false, 0⟩ : Write) ∈ u.staged)
          ∧ (fld (a.reg (chReg c Reg.LAS_PCAP)) 0 16 < cap.toNat → Answers (exec (.pcap c8 cap true t) s) fun u => resp u 2 ∧ u.staged = a.staged ∧ cnt u (accReg Reg.DENIED_CNT)))
        ∧ Answers (exec (.mstop m8 hard true t) s) (fun u => resp u 0
          ∧ ∀ n : Ma, m8.getLsbD n = true → (⟨.safe, maReg n Reg.MA_CTRL, if hard then 8#32 else 4#32, false, 0⟩ : Write) ∈ u.staged)
        ∧ ((1 ≤ kind.toNat ∧ kind.toNat ≤ 3) → Answers (exec (.lift kind mask true t) s) fun u => resp u 0 ∧ u.safe.holdDue = a.safe.holdDue ++ [(kind.toNat, mask.toNat)]
          ∧ u.safe.inh = a.safe.inh)
        ∧ (bit (a.reg (accReg Reg.SAFE_CFG)) 16 = true → Answers (exec (.safeWatchdog t) s) fun u => u.safe.wdDue = true
          ∧ (∀ c : Ch, (⟨.safe, chReg c Reg.LAS_CTRL, 2#32, false, 0⟩ : Write) ∈ u.staged) ∧ ∀ n : Ma, (⟨.safe, maReg n Reg.MA_CTRL, 4#32, false, 0⟩ : Write) ∈ u.staged))
      ∧ (s.time.running = false → s.safe.holdDue = [] →
        Answers (exec (.inhibit mask true t) s) (fun u => resp u 0 ∧ ∀ c : Ch, mask.getLsbD c = true → u.las[c].arm = .disarmed ∧ u.safe.inh[c] = true)
        ∧ (∀ c : Ch, c.val = c8.toNat → cap.toNat ≤ fld (a.reg (chReg c Reg.LAS_PCAP)) 0 16 → Answers (exec (.pcap c8 cap true t) s) fun u => resp u 0
          ∧ u.safe.pcap[c] = true ∧ (a.canon = true → u.reg (chReg c Reg.LAS_PCAP) = cap.zeroExtend 32))
        ∧ Answers (exec (.mstop m8 hard true t) s) (fun u => resp u 0 ∧ ∀ n : Ma, m8.getLsbD n = true → u.safe.stop[n] = true ∧ u.ma[n].m.stopped = true
          ∧ (hard = true → u.ma[n].m.drive = .rest))
        ∧ ((1 ≤ kind.toNat ∧ kind.toNat ≤ 3) → Answers (exec (.lift kind mask true t) s) fun u => resp u 0 ∧ u.safe.holdDue = []
          ∧ (∀ c : Ch, u.safe.inh[c] = (a.safe.inh[c] && !(kind == 1#8 && mask.getLsbD c)) ∧ u.safe.pcap[c] = (a.safe.pcap[c] && !(kind == 2#8 && mask.getLsbD c)))
          ∧ ∀ n : Ma, u.safe.stop[n] = (a.safe.stop[n] && !(kind == 3#8 && mask.getLsbD n)))
        ∧ (bit (a.reg (accReg Reg.SAFE_CFG)) 16 = true → Answers (exec (.safeWatchdog t) s) fun u => u.safe.wd = true
          ∧ (∀ c : Ch, u.las[c].arm = .disarmed ∧ u.safe.inh[c] = true) ∧ ∀ n : Ma, u.safe.stop[n] = true ∧ u.ma[n].m.stopped = true))
      ∧ (24 ≤ c8.toNat → Answers (exec (.pcap c8 cap true t) s) fun u => resp u 2 ∧ u.staged = a.staged ∧ u.regs = a.regs)
      ∧ ((kind = 0#8 ∨ 3 < kind.toNat) → Answers (exec (.lift kind mask true t) s) fun u => resp u 2 ∧ u.safe.holdDue = a.safe.holdDue)
      ∧ Answers (exec (.safeRead what true t) s) (fun u => if what = 0#8 then resp u 0 ∧ u.safe.data = toW a.safeStatus else if what = 1#8 then resp u 0 ∧ u.safe.data = toW a.lsafeStatus
          else if what = 2#8 then resp u 0 ∧ u.safe.data = BitVec.ofNat 32 a.headSeq else resp u 2)
      ∧ Answers (exec (.ping unknown true t) s) (fun u => resp u (if unknown then 3 else 0) ∧ u.staged = a.staged)
      ∧ (bit (a.reg (accReg Reg.SAFE_CFG)) 16 = false → Answers (exec (.safeWatchdog t) s) fun u => u = a))
    ∧ (∀ addr val aux,
      (addr % 4 = 0 → Answers (exec (.svcRead addr t) s) fun u => Out.svc (bytesLE (a.readValue addr)) ∈ u.outs ∧ ((regAt addr).isSome = true → a.clkNote addr = none → a.readValue addr = a.peek addr))
      ∧ (addr % 4 ≠ 0 → Answers (exec (.svcRead addr t) s) fun u => u = a)
      ∧ (s.svc.unlocked = true → addr % 4 ≠ 0 → Answers (exec (.svcWrite addr val aux t) s) fun u => u = a.refuse .svc addr val)
      ∧ (s.svc.unlocked = false → Answers (exec (.svcWrite addr val aux t) s) fun u => u = a)
      ∧ (s.svc.unlocked = true → addr % 4 = 0 → Answers (exec (.svcWrite addr val aux t) s) fun u => u = a.regWrite .svc addr val aux))
    ∧ (s.svc.lockout = false → Answers (exec (.svcChallenge t) s) fun u => ∃ r, r.length = 32 ∧ u.svc.challenge = some r ∧ u.outs = Out.svc r :: a.outs)
    ∧ (s.svc.lockout = true → Answers (exec (.svcChallenge t) s) fun u => u = a)
    ∧ (∀ sig, s.svc.challenge = none → Answers (exec (.svcResponse sig t) s) fun u => u = a)
    ∧ (∀ ch sig, s.svc.challenge = some ch →
      (a.svcVerify ch sig = true → Answers (exec (.svcResponse sig t) s) fun u => u.svc = { s.svc with unlocked := true, fails := 0, challenge := none }
        ∧ (a.LogOpen → ∃ o n, Logs a u (0xF0 + 65536) 0x15 o n))
      ∧ (a.svcVerify ch sig = false → Answers (exec (.svcResponse sig t) s) fun u => u.svc.unlocked = s.svc.unlocked ∧ u.svc.challenge = none
        ∧ u.svc.fails = (if 2 ≤ s.svc.fails then 0 else s.svc.fails + 1) ∧ u.svc.lockout = (s.svc.lockout || decide (2 ≤ s.svc.fails)) ∧ cnt u (accReg Reg.SVC_FAIL_CNT)
        ∧ (a.LogOpen → ∃ o n, Logs a u (0xF0 + 2 * 65536) 0x15 o n)))
    ∧ (∀ org, RowActs s (.svcLock org t) (fun b u => u.svc = { b.svc with unlocked := false, challenge := none }))
    ∧ Answers (exec (.svcIdleTimeout t) s) (fun u => u.svc = { s.svc with unlocked := false, challenge := none })
    ∧ Answers (exec (.svcLockoutEnd t) s) (fun u => u.svc = { s.svc with lockout := false })

/-! Housekeeping, power, boot, the damper and the TAP (chapters 20 and 21). -/

/-- R412–R443: a round takes its temperatures and rails, moves the four thresholds and the level, and shuts the die down when fewer than three of its sensors are valid; dips, shutdowns
and resets; the boot stages and the fuses; the damper stops the clocks and lets them run; the TAP reads. A command that finds nothing to do leaves the state. -/
def Obligations.HousekeepingPowerBootAndDamperAct : Prop :=
  ∀ (s : State) (org : Origin) (t : Nat) (m : Fin 12) (x : Straps),
    let a := if s.halted then s else s.advance t
    let same (i : Instr) : Prop := exec i s = .next s
    let wiped (u : State) : Prop := u.regs = State.reset.regs ∧ u.sram = [] ∧ u.time.running = false ∧ u.boot.inReset = true ∧ u.log.held = [] ∧ u.staged = []
    let begins (u : State) (p : Bool) (src : Nat) : Prop := u.boot.inReset = false ∧ (p = true → u.boot.stage = .held ∧ u.damper.frozen = true)
      ∧ (p = false → if src = 3 then u.boot.stage = .held ∧ u.boot.fail = 1 else u.boot.stage = .rom)
    let cnt (u : State) (r : Nat) : Prop := a.canon = true → u.reg r = satU32 ((a.reg r).toNat + 1)
    let now (o : Ans) (P : State → Prop) : Prop := ∃ u, o = .next u ∧ P u
    (s.halted = false →
      (∀ temps rails, temps.length = 22 → rails.length = 12 → (s.time.running = true → s.time.cnt % 512 = 511 ∧ a.stokeCyc ≤ a.now + 1) → Answers (exec (.hkRoundEnd temps rails t) s) fun u =>
        u.hk.rounds = s.hk.rounds + 1
        ∧ (∀ (i : Fin 22) v f, temps[i.val]? = some (v, f) → (u.hk.temps[i]).value = v ∧ ((u.hk.temps[i]).valid = true ↔ (f = 0 ∧ -2560 ≤ v ∧ v ≤ 9600) ∧ ((s.hk.temps[i]).valid = true ∨ 3 ≤ (s.hk.temps[i]).clean)))
        ∧ (∀ (i : Fin 12) mv low b, rails[i.val]? = some (mv, low, b) → (u.hk.rails[i]).mv = mv ∧ (u.hk.rails[i]).below = b)
        ∧ (s.hk.heldBy = [] → s.hk.released = false → (∀ y ∈ temps.take 6, y.2 = 0 ∧ -2560 ≤ y.1 ∧ y.1 ≤ 9600) → ∀ T, u.tjOf = some T → ∀ i : Fin 4,
            let h := s.hk.thr[i]
            let en := if thrTemp i < T then h.entry + 1 else 0
            let ex := if T < thrTemp i - 192 then h.exit + 1 else 0
            u.hk.thr[i] = { set := if 4 ≤ en then true else if 4 ≤ ex then false else h.set, entry := min en 4, exit := min ex 4 })
        ∧ u.hk.level = (if (u.hk.thr[(3 : Fin 4)]).set then 3 else if (u.hk.thr[(2 : Fin 4)]).set then 2 else if (u.hk.thr[(1 : Fin 4)]).set then 1 else 0)
        ∧ (u.hk.level ≠ s.hk.level → u.ints.pend.getLsbD 0xC1 = true)
        ∧ (u.hk.shut = true ↔ u.dieValid < 3))
      ∧ (∀ temps rails, s.time.running = true → (s.time.cnt % 512 ≠ 511 ∨ a.now + 1 < a.stokeCyc) → Answers (exec (.hkRoundEnd temps rails t) s) fun u => u = a)
      ∧ (∀ mv, Answers (exec (.supplyDip m false mv t) s) fun u => (u.hk.rails[m]).low = true
          ∧ (u.hk.rails[m]).lowest = if (s.hk.rails[m]).low = true then min (s.hk.rails[m]).lowest mv else mv)
      ∧ (∀ mv, Answers (exec (.supplyDip m true mv t) s) fun u => (u.hk.rails[m]).low = false ∧ (u.hk.rails[m]).dipRound = true
          ∧ (a.canon = true → u.reg (hkReg Reg.SUP_DIP) = a.reg (hkReg Reg.SUP_DIP) ||| BitVec.ofNat 32 (2 ^ m.val)) ∧ cnt u (hkReg (Reg.SUP_DIP_CNT + 4 * m.val))
          ∧ (m.val = 11 → u.bank.low = false) ∧ u.ints.pend.getLsbD 0xC2 = true ∧ (a.LogOpen → ∃ o n, Logs a u (0xC2 + m.val * 256 + 65536) 0x15 o n))
      ∧ (∀ ok, s.boot.stage = .rom → s.boot.fail = 0 → Answers (exec (.bootRomDone ok t) s) fun u =>
          if ok = true then u.boot.stage = .sram ∧ u.log.started = true ∧ u.bank.drained = s.bank.seq else u = { a with boot := { s.boot with fail := 0xE } })
      ∧ (∀ bad, s.boot.stage = .sram → Answers (exec (.bootSramDone bad t) s) fun u => u.boot.stage = .fetch ∧ u.sram = [] ∧ u.boot.fromHost = (s.boot.bootSrc == 1)
          ∧ ∀ w, w ∈ u.bad ↔ w ∈ bad ∧ w % 4 = 0 ∧ w < 0x3000000)
      ∧ (s.boot.stage = .fetch → (s.boot.fromHost = false ∨ s.boot.fetching = true) →
        (∀ bs, Answers (exec (.bootFetchDone (some bs) t) s) fun u => u.boot.stage = .verify ∧ u.boot.image = bs ∧ u.boot.fetching = false)
        ∧ Answers (exec (.bootFetchDone none t) s) fun u => u.boot.fail = 0xA ∧ u.boot.image = []
          ∧ (s.boot.fromHost = false → s.boot.secondary = false → u.boot.stage = .fetch ∧ u.boot.secondary = true))
      ∧ (s.boot.stage = .verify → Answers (exec (.bootVerifyDone t) s) fun u =>
          if a.bootCheck = 0 then u.boot = { s.boot with stage := .apply } else u.boot.fail = a.bootCheck ∧ (u.boot.stage = .fetch ∨ u.boot.stage = .failed))
      ∧ (∀ aux, s.boot.stage = .apply → Answers (exec (.bootApplyDone aux t) s) fun u => u.boot.image = []
          ∧ ((u.boot.stage = .ready ∧ u.boot.fail = 0 ∧ u.boot.hash = imgHash s.boot.image ∧ u.boot.unsigned = !imgSigned s.boot.image) ∨ (u.boot.stage = .failed ∧ u.boot.fail = 0xD))
          ∧ (configPairs s.boot.image = [] → u.boot.stage = .ready))
      ∧ (∀ j k, s.fuse.job = some (j, k) → Answers (exec (.fuseWriteDone t) s) fun u => u.fuse.busy = false ∧ u.fuse.job = none
          ∧ (∀ i : Fin 4, u.fuse.keys[i] = (if j % 2 = 1 ∧ i = k then some a.keyData else s.fuse.keys[i]) ∧ u.fuse.revoked[i] = (s.fuse.revoked[i] || (decide (j / 2 % 2 = 1) && i == k)))
          ∧ u.fuse.secure = (s.fuse.secure || decide (j / 4 % 2 = 1)))
      ∧ (∀ ok, (s.boot.stage ≠ .rom ∨ s.boot.fail ≠ 0) → Answers (exec (.bootRomDone ok t) s) fun u => u = a)
      ∧ (∀ bad, s.boot.stage ≠ .sram → Answers (exec (.bootSramDone bad t) s) fun u => u = a)
      ∧ (∀ data, (s.boot.stage ≠ .fetch ∨ (s.boot.fromHost = true ∧ s.boot.fetching = false)) → Answers (exec (.bootFetchDone data t) s) fun u => u = a)
      ∧ (s.boot.stage ≠ .verify → Answers (exec (.bootVerifyDone t) s) fun u => u = a)
      ∧ (∀ aux, s.boot.stage ≠ .apply → Answers (exec (.bootApplyDone aux t) s) fun u => u = a)
      ∧ (s.fuse.job = none → Answers (exec (.fuseWriteDone t) s) fun u => u = a)
      ∧ Answers (exec (.damperN true t) s) (fun u => u.damper.pinLow = true ∧ u.killed = true
          ∧ (s.damper.pinLow = false → s.damper.cmd = false → s.damper.stopAtBoundary = false → cnt u (dbgReg Reg.DMP_CNT)
            ∧ if s.time.running = true ∧ bit (a.reg (dbgReg Reg.DMP_CFG)) 0 = false then u.damper.stopAtBoundary = true ∧ u.damper.frozen = false else u.damper.frozen = true))
      ∧ Answers (exec (.damperN false t) s) (fun u => u = { a with damper := { s.damper with pinLow := false } })
      ∧ Answers (exec (.frzEngage t) s) (fun u => u.damper.cmd = true ∧ u.killed = true)
      ∧ Answers (exec (.frzRelease t) s) (fun u => u.damper.cmd = false)
      ∧ Answers (exec (.vbankLow t) s) (fun u => u.bank.low = true ∧ (a.LogOpen → ∃ o n, Logs a u (0xC2 + 11 * 256 + 2 * 65536) 0x15 o n)))
    ∧ (s.halted = true → (∀ low, now (exec (.damperN low t) s) fun u => u.damper.pinLow = low) ∧ now (exec (.frzEngage t) s) (fun u => u.damper.cmd = true)
        ∧ now (exec (.frzRelease t) s) (fun u => u.damper.cmd = false) ∧ now (exec (.vbankLow t) s) (fun u => u = { s with bank := { s.bank with low := true } }))
    ∧ (s.halted = true → ∀ i ∈ [Instr.hkRoundEnd [] [] t, .supplyDip m true 0 t, .bootRomDone true t, .bootSramDone [] t, .bootFetchDone none t, .bootVerifyDone t, .bootApplyDone 0 t,
        .fuseWriteDone t], same i)
    ∧ RowActs s (.hkOverrideRelease org t) (fun b u => u.hk = if b.hk.heldBy = [] then b.hk else { b.hk with heldBy := [], released := true })
    ∧ (∀ val, RowActs s (.dipGateWrite org val t) (fun b u => let v : Word := BitVec.ofNat 32 (val.toNat % 65536)
        let o := b.reg (hkReg Reg.DIP_GATE_STOKES)
        (b.canon = true → u.reg (hkReg Reg.DIP_GATE_STOKES) = v) ∧ (o.toNat < v.toNat → org = .host0 ∨ org = .safe ∨ org = .svc)
        ∧ (v.toNat < o.toNat → (org = .host0 ∨ org = .svc) ∧ b.anyLayer = false)))
    ∧ RowActs s (.bootGo org t) (fun b u => (b.boot.stage = .fetch ∧ b.boot.fromHost = true ∧ b.boot.fetching = false → u.boot.fetching = true
          ∧ Out.hostRead ((b.reg Reg.BOOT_SRC_LO).toNat + 2 ^ 32 * (b.reg Reg.BOOT_SRC_HI).toNat) (fld (b.reg Reg.BOOT_LEN) 0 23) ∈ u.outs)
        ∧ (¬(b.boot.stage = .fetch ∧ b.boot.fromHost = true ∧ b.boot.fetching = false) → u.boot = b.boot))
    ∧ (∀ k : Fin 4, RowActs s (.keyProgram org k t) (fun b u => b.fuse.keys[k] = none ∧ b.fuse.busy = false ∧ u.fuse = { b.fuse with busy := true, job := some (1, k) })
        ∧ RowActs s (.keyRevoke org k t) (fun b u => b.fuse.busy = false ∧ u.fuse = { b.fuse with busy := true, job := some (2, k) }))
    ∧ RowActs s (.setSecure org t) (fun b u => b.fuse.busy = false ∧ (∃ j : Fin 4, b.fuse.keys[j] ≠ none ∧ b.fuse.revoked[j] = false)
        ∧ u.fuse = { b.fuse with busy := true, job := some (4, 0) })
    ∧ RowActs s (.dmpEngage org t) (fun _ u => u.damper.cmd = true ∧ u.killed = true)
    ∧ RowActs s (.dmpRelease org t) (fun _ u => u.damper.cmd = false)
    ∧ (∀ lost, s.hk.shut = false → (lost = false ∨ s.dieValid < 3) → now (exec (.thermalShutdown lost t) s) fun u =>
        u.hk.shut = true ∧ u.hk.shutLost = lost ∧ u.halted = true ∧ u.killed = true
        ∧ (s.boot.inReset = false → ∀ n : Ma, (s.ma[n].m).st ≠ .disabled → (u.ma[n].m).brake = true))
    ∧ (s.hk.shut = true → s.hk.shutLost = false → s.boot.inReset = false → now (exec .shutdownRestart s) fun u =>
        u.hk.shut = false ∧ u.bank.cause = 0x20 ∧ u.regs = State.reset.regs ∧ begins u s.damper.pinLow s.boot.bootSrc)
    ∧ ((s.hk.shut = false ∨ s.hk.shutLost = true) → same .shutdownRestart)
    ∧ (s.hk.shut = true → s.hk.shutLost = false → s.boot.inReset = true → now (exec .shutdownRestart s) fun u => u = { s with hk := { s.hk with shut := false } })
    ∧ (∀ lost, (s.hk.shut = true ∨ (lost = true ∧ 3 ≤ s.dieValid)) → same (.thermalShutdown lost t))
    ∧ (m.val ≠ 11 → m.val ∉ s.boot.railHold → now (exec (.railReset m) s) fun u =>
        wiped u ∧ u.boot.railHold = m.val :: s.boot.railHold ∧ u.bank.cause = if s.boot.inReset then s.bank.cause else 0x10 + m.val)
    ∧ ((m.val = 11 ∨ m.val ∈ s.boot.railHold) → same (.railReset m))
    ∧ (s.boot.railHold = [m.val] → s.boot.rstLow = false → s.boot.stage = .held → now (exec (.railResetRelease m x) s) fun u =>
        u.boot.railHold = [] ∧ u.boot.bootSrc = x.src.val ∧ u.boot.gangId = x.gangId.val ∧ u.boot.gangTm = x.gangTm ∧ u.boot.inReset = false ∧ (s.hk.shut = false → begins u s.damper.pinLow x.src.val))
    ∧ (m.val ∈ s.boot.railHold → (s.boot.rstLow = true ∨ ∃ r ∈ s.boot.railHold, r ≠ m.val) → now (exec (.railResetRelease m x) s) fun u =>
        u = { s with boot := { s.boot with railHold := s.boot.railHold.filter (· != m.val) } })
    ∧ (m.val ∉ s.boot.railHold → same (.railResetRelease m x))
    ∧ now (exec .powerUp s) (fun u => wiped u ∧ u.boot.rstLow = true ∧ u.bank.cause = 1
        ∧ (s.bank.lostNow = true → u.bank.seq = 0 ∧ u.bank.head = bz 32 ∧ u.bank.sec = 0 ∧ u.bank.bankLost = true)
        ∧ (s.bank.lostNow = false → u.bank.seq = s.bank.seq ∧ u.bank.head = s.bank.head ∧ u.bank.sec = s.bankSec ∧ u.bank.bankLost = false))
    ∧ now (exec .mainPowerLoss s) (fun u => wiped u ∧ u.boot.rstLow = true ∧ u.bank.sec = s.bankSec ∧ u.bank.seq = s.bank.seq ∧ u.bank.head = s.bank.head ∧ u.bank.tags = s.bank.tags ∧ u.fuse.keys = s.fuse.keys)
    ∧ now (exec .bankContentsLost s) (fun u => u = { s with bank := { s.bank with lostNow := true } })
    ∧ (s.boot.rstLow = false → now (exec (.rstN false x) s) fun u => wiped u ∧ u.boot.rstLow = true
        ∧ u.bank.cause = if s.boot.inReset then s.bank.cause else if s.hk.shut = true ∧ s.hk.shutLost = true then 0x21 else 2)
    ∧ (s.boot.rstLow = true → same (.rstN false x)) ∧ (s.boot.rstLow = false → same (.rstN true x))
    ∧ (s.boot.rstLow = true → s.boot.railHold ≠ [] → now (exec (.rstN true x) s) fun u => u = { s with boot := { s.boot with rstLow := false } })
    ∧ (s.boot.rstLow = true → s.boot.railHold = [] → s.boot.stage = .held → now (exec (.rstN true x) s) fun u =>
        u.boot.rstLow = false ∧ u.boot.bootSrc = x.src.val ∧ u.boot.gangId = x.gangId.val ∧ u.boot.gangTm = x.gangTm ∧ u.boot.inReset = false ∧ (s.hk.shut = false → begins u s.damper.pinLow x.src.val))
    ∧ (s.damper.frozen = true → s.damper.pinLow = false → s.damper.cmd = false → s.boot.inReset = false → s.hk.shut = false → ∀ sec ns ms,
      Answers (exec (.damperRelease sec ns ms) s) fun u => u.damper.frozen = false ∧ (s.boot.stage = .held → begins u false s.boot.bootSrc)
        ∧ (s.boot.stage ≠ .held → u.time.unaligned = true ∧ u.time.armed = true ∧ u.time.locked = false ∧ u.time.cnt = s.time.cnt ∧ u.ints.pend.getLsbD 0xCA = true
          ∧ ∀ c : Ch, u.las[c].arm = .disarmed ∧ u.las[c].trip = 6))
    ∧ (∀ sec ns ms, (s.boot.inReset = true ∨ s.hk.shut = true) → same (.damperRelease sec ns ms))
    ∧ (∀ sec ns ms, s.boot.inReset = false → s.hk.shut = false → (s.damper.frozen = false ∨ s.damper.pinLow = true ∨ s.damper.cmd = true) →
        Answers (exec (.damperRelease sec ns ms) s) fun u => u = s)
    ∧ now (exec .idcode s) (fun u => Out.data (s.fuse.stepDigit % 16 * 2 ^ 28 + 0x7240 * 2 ^ 12 + 0x5A7 * 2 + 1) ∈ u.outs)
    ∧ now (exec .bypass s) (fun u => Out.data 0 ∈ u.outs)
    ∧ (∀ sp w, now (exec (.frzAddr sp w) s) fun u => u = { s with damper := { s.damper with ir := 0x10, space := sp.val, addr := w.toNat } })
    ∧ now (exec .frzData s) (fun u => u.damper.addr = (s.damper.addr + 4) % 2 ^ 32 ∧ (s.damper.frozen = false → Out.data (2 ^ 39) ∈ u.outs)
        ∧ (s.damper.frozen = true → s.damper.space ≤ 1 → ∃ v, Out.data v ∈ u.outs
          ∧ v % 2 ^ 32 = (if s.damper.space = 0 then s.peek s.damper.addr else s.word s.damper.addr).toNat
          ∧ v / 2 ^ 39 = if s.damper.space = 1 ∧ s.isBad s.damper.addr = true then 1 else 0)
        ∧ (s.damper.frozen = true → s.damper.space = 2 → ∀ (e : Fin 28) w, s.damper.addr / 0x1000 = e.val → (s.eng[e]).itemAt (s.damper.addr % 0x800 / 4) = some w →
          ∃ v, Out.data v ∈ u.outs ∧ v % 2 ^ 32 = w.toNat ∧ v / 2 ^ 39 = 0))

/-! Every command. -/

/-- A step takes the command at the front of the queue and runs it with the queue's rest; on an empty queue the block idles (log entry 2). -/
def Obligations.StepRunsTheFrontCommand : Prop :=
  (∀ (c : Instr) (r : List Instr) (s : State), s.pending = c :: r → step s = exec c { s with pending := r })
  ∧ ∀ s : State, s.pending = [] → step s = .next s

/-- No command faults or is refused: every step answers a next state, keeps registers and SRAM in their canonical forms, so that equal
contents are equal data, and takes the front command alone from the queue. -/
def Obligations.EveryStepAnswersAndKeepsTheForms : Prop :=
  ∀ s : State, s.canon = true → ∃ u, step s = .next u ∧ u.canon = true ∧ u.pending = s.pending.tail

/-- R8, R20, R46, R80, R90, R146, R160, R183, R244, R251, R300, R360, R368, R386, R430, R431: right after reset the queue is empty and the forms are canonical; registers read their
reset values; no stoke runs; channels, servos, lasers, loops, pipelines, axes, rings and ports are in their first states; no interrupt is pending. (Main power with RST_N
low, and every vector masked, are the model's choices of what reset leaves: the log says so.) -/
def Obligations.ResetLeavesTheStatedValues : Prop :=
  let s := State.reset
  s.canon = true ∧ s.pending = [] ∧ s.time.running = false ∧ s.time.cnt = 0 ∧ s.boot.inReset = true ∧ s.halted = true ∧ s.killed = true
  ∧ (∀ a, s.reg a = resetAt a) ∧ (∀ a, s.byte a = 0#8)
  ∧ (∀ c : Ch, s.ch[c].running = false ∧ s.ch[c].inLayer = false ∧ s.ch[c].active = none ∧ s.las[c].arm = .disarmed ∧ s.loop[c].mode = .open_ ∧ s.vec[c].buf = []
    ∧ ∀ a : Ax, (s.sv[c].ax[a]).st = .off)
  ∧ (∀ m : Cam, s.cam[m].st = .stopped) ∧ (∀ n : Ma, (s.ma[n].m).st = .disabled) ∧ (∀ r : Ring, s.rings[r].st = .disabled) ∧ (∀ p : Fin 2, s.lanes.port[p].st = .off)
  ∧ (∀ g : Fin 26, s.tags.tag[g].st = .absent) ∧ s.ints.pend = 0#256 ∧ s.hk.level = 0 ∧ s.svc.unlocked = false ∧ s.gang.st = .solo ∧ s.link.up = false
  ∧ s.reg (accReg Reg.LOG_CFG) = 8#32 ∧ s.reg (accReg Reg.SAFE_CFG) = 100#32 ∧ s.reg (hkReg Reg.DIP_GATE_STOKES) = 16#32 ∧ s.reg (lanReg Reg.PEER_TMO) = 20000#32
  ∧ (∀ c : Ch, s.reg (chReg c Reg.LAS_PCAP) = 0xFFFF#32) ∧ ∀ r : Ring, s.reg (ringReg r Reg.RING_INT_CFG) = 0#32
end

