-- ==== Sys2Proof/Decode.lean ====
section
/-! DEFINITION. Commands spelled as words: none, since no row of the opcode table gives bits. The Tuikin engines' own instruction words are in Machine/Codec.lean. -/

namespace Sys2Proof

/-- The command that a word of `nbits` bits spells by the table's bits: none (log entry 1). -/
def decodeTableWord (_nbits _w : Nat) : Option Instr := none

end Sys2Proof
end

