-- ==== Sys2Proof/Laws/State.lean ====
section
/-! SUPPORT. What every elementary update of the state changes, and what it leaves alone: one lemma for each field. -/

namespace Sys2Proof.Machine
open Sys2Proof

/-! setReg changes regs alone. -/

@[simp] theorem setReg_sram (s : State) (a : Nat) (v : Word) : (s.setReg a v).sram = s.sram := rfl
@[simp] theorem setReg_bad (s : State) (a : Nat) (v : Word) : (s.setReg a v).bad = s.bad := rfl
@[simp] theorem setReg_now (s : State) (a : Nat) (v : Word) : (s.setReg a v).now = s.now := rfl
@[simp] theorem setReg_free (s : State) (a : Nat) (v : Word) : (s.setReg a v).free = s.free := rfl
@[simp] theorem setReg_clk (s : State) (a : Nat) (v : Word) : (s.setReg a v).clk = s.clk := rfl
@[simp] theorem setReg_staged (s : State) (a : Nat) (v : Word) : (s.setReg a v).staged = s.staged := rfl
@[simp] theorem setReg_time (s : State) (a : Nat) (v : Word) : (s.setReg a v).time = s.time := rfl
@[simp] theorem setReg_gang (s : State) (a : Nat) (v : Word) : (s.setReg a v).gang = s.gang := rfl
@[simp] theorem setReg_eng (s : State) (a : Nat) (v : Word) : (s.setReg a v).eng = s.eng := rfl
@[simp] theorem setReg_ch (s : State) (a : Nat) (v : Word) : (s.setReg a v).ch = s.ch := rfl
@[simp] theorem setReg_loadQ (s : State) (a : Nat) (v : Word) : (s.setReg a v).loadQ = s.loadQ := rfl
@[simp] theorem setReg_spare (s : State) (a : Nat) (v : Word) : (s.setReg a v).spare = s.spare := rfl
@[simp] theorem setReg_vec (s : State) (a : Nat) (v : Word) : (s.setReg a v).vec = s.vec := rfl
@[simp] theorem setReg_sync (s : State) (a : Nat) (v : Word) : (s.setReg a v).sync = s.sync := rfl
@[simp] theorem setReg_ta (s : State) (a : Nat) (v : Word) : (s.setReg a v).ta = s.ta := rfl
@[simp] theorem setReg_sv (s : State) (a : Nat) (v : Word) : (s.setReg a v).sv = s.sv := rfl
@[simp] theorem setReg_gridQ (s : State) (a : Nat) (v : Word) : (s.setReg a v).gridQ = s.gridQ := rfl
@[simp] theorem setReg_las (s : State) (a : Nat) (v : Word) : (s.setReg a v).las = s.las := rfl
@[simp] theorem setReg_lsafe (s : State) (a : Nat) (v : Word) : (s.setReg a v).lsafe = s.lsafe := rfl
@[simp] theorem setReg_loop (s : State) (a : Nat) (v : Word) : (s.setReg a v).loop = s.loop := rfl
@[simp] theorem setReg_trace (s : State) (a : Nat) (v : Word) : (s.setReg a v).trace = s.trace := rfl
@[simp] theorem setReg_camTr (s : State) (a : Nat) (v : Word) : (s.setReg a v).camTr = s.camTr := rfl
@[simp] theorem setReg_em (s : State) (a : Nat) (v : Word) : (s.setReg a v).em = s.em := rfl
@[simp] theorem setReg_gd (s : State) (a : Nat) (v : Word) : (s.setReg a v).gd = s.gd := rfl
@[simp] theorem setReg_gm (s : State) (a : Nat) (v : Word) : (s.setReg a v).gm = s.gm := rfl
@[simp] theorem setReg_cam (s : State) (a : Nat) (v : Word) : (s.setReg a v).cam = s.cam := rfl
@[simp] theorem setReg_cal (s : State) (a : Nat) (v : Word) : (s.setReg a v).cal = s.cal := rfl
@[simp] theorem setReg_camEst (s : State) (a : Nat) (v : Word) : (s.setReg a v).camEst = s.camEst := rfl
@[simp] theorem setReg_pool (s : State) (a : Nat) (v : Word) : (s.setReg a v).pool = s.pool := rfl
@[simp] theorem setReg_cl (s : State) (a : Nat) (v : Word) : (s.setReg a v).cl = s.cl := rfl
@[simp] theorem setReg_ma (s : State) (a : Nat) (v : Word) : (s.setReg a v).ma = s.ma := rfl
@[simp] theorem setReg_prb (s : State) (a : Nat) (v : Word) : (s.setReg a v).prb = s.prb := rfl
@[simp] theorem setReg_ill (s : State) (a : Nat) (v : Word) : (s.setReg a v).ill = s.ill := rfl
@[simp] theorem setReg_tags (s : State) (a : Nat) (v : Word) : (s.setReg a v).tags = s.tags := rfl
@[simp] theorem setReg_lanes (s : State) (a : Nat) (v : Word) : (s.setReg a v).lanes = s.lanes := rfl
@[simp] theorem setReg_rings (s : State) (a : Nat) (v : Word) : (s.setReg a v).rings = s.rings := rfl
@[simp] theorem setReg_mcmd (s : State) (a : Nat) (v : Word) : (s.setReg a v).mcmd = s.mcmd := rfl
@[simp] theorem setReg_link (s : State) (a : Nat) (v : Word) : (s.setReg a v).link = s.link := rfl
@[simp] theorem setReg_ints (s : State) (a : Nat) (v : Word) : (s.setReg a v).ints = s.ints := rfl
@[simp] theorem setReg_evt (s : State) (a : Nat) (v : Word) : (s.setReg a v).evt = s.evt := rfl
@[simp] theorem setReg_log (s : State) (a : Nat) (v : Word) : (s.setReg a v).log = s.log := rfl
@[simp] theorem setReg_safe (s : State) (a : Nat) (v : Word) : (s.setReg a v).safe = s.safe := rfl
@[simp] theorem setReg_svc (s : State) (a : Nat) (v : Word) : (s.setReg a v).svc = s.svc := rfl
@[simp] theorem setReg_hk (s : State) (a : Nat) (v : Word) : (s.setReg a v).hk = s.hk := rfl
@[simp] theorem setReg_boot (s : State) (a : Nat) (v : Word) : (s.setReg a v).boot = s.boot := rfl
@[simp] theorem setReg_fuse (s : State) (a : Nat) (v : Word) : (s.setReg a v).fuse = s.fuse := rfl
@[simp] theorem setReg_bank (s : State) (a : Nat) (v : Word) : (s.setReg a v).bank = s.bank := rfl
@[simp] theorem setReg_damper (s : State) (a : Nat) (v : Word) : (s.setReg a v).damper = s.damper := rfl
@[simp] theorem setReg_outs (s : State) (a : Nat) (v : Word) : (s.setReg a v).outs = s.outs := rfl
@[simp] theorem setReg_pending (s : State) (a : Nat) (v : Word) : (s.setReg a v).pending = s.pending := rfl

/-! setByte changes sram alone. -/

@[simp] theorem setByte_regs (s : State) (a : Nat) (b : Byte) : (s.setByte a b).regs = s.regs := rfl
@[simp] theorem setByte_bad (s : State) (a : Nat) (b : Byte) : (s.setByte a b).bad = s.bad := rfl
@[simp] theorem setByte_now (s : State) (a : Nat) (b : Byte) : (s.setByte a b).now = s.now := rfl
@[simp] theorem setByte_free (s : State) (a : Nat) (b : Byte) : (s.setByte a b).free = s.free := rfl
@[simp] theorem setByte_clk (s : State) (a : Nat) (b : Byte) : (s.setByte a b).clk = s.clk := rfl
@[simp] theorem setByte_staged (s : State) (a : Nat) (b : Byte) : (s.setByte a b).staged = s.staged := rfl
@[simp] theorem setByte_time (s : State) (a : Nat) (b : Byte) : (s.setByte a b).time = s.time := rfl
@[simp] theorem setByte_gang (s : State) (a : Nat) (b : Byte) : (s.setByte a b).gang = s.gang := rfl
@[simp] theorem setByte_eng (s : State) (a : Nat) (b : Byte) : (s.setByte a b).eng = s.eng := rfl
@[simp] theorem setByte_ch (s : State) (a : Nat) (b : Byte) : (s.setByte a b).ch = s.ch := rfl
@[simp] theorem setByte_loadQ (s : State) (a : Nat) (b : Byte) : (s.setByte a b).loadQ = s.loadQ := rfl
@[simp] theorem setByte_spare (s : State) (a : Nat) (b : Byte) : (s.setByte a b).spare = s.spare := rfl
@[simp] theorem setByte_vec (s : State) (a : Nat) (b : Byte) : (s.setByte a b).vec = s.vec := rfl
@[simp] theorem setByte_sync (s : State) (a : Nat) (b : Byte) : (s.setByte a b).sync = s.sync := rfl
@[simp] theorem setByte_ta (s : State) (a : Nat) (b : Byte) : (s.setByte a b).ta = s.ta := rfl
@[simp] theorem setByte_sv (s : State) (a : Nat) (b : Byte) : (s.setByte a b).sv = s.sv := rfl
@[simp] theorem setByte_gridQ (s : State) (a : Nat) (b : Byte) : (s.setByte a b).gridQ = s.gridQ := rfl
@[simp] theorem setByte_las (s : State) (a : Nat) (b : Byte) : (s.setByte a b).las = s.las := rfl
@[simp] theorem setByte_lsafe (s : State) (a : Nat) (b : Byte) : (s.setByte a b).lsafe = s.lsafe := rfl
@[simp] theorem setByte_loop (s : State) (a : Nat) (b : Byte) : (s.setByte a b).loop = s.loop := rfl
@[simp] theorem setByte_trace (s : State) (a : Nat) (b : Byte) : (s.setByte a b).trace = s.trace := rfl
@[simp] theorem setByte_camTr (s : State) (a : Nat) (b : Byte) : (s.setByte a b).camTr = s.camTr := rfl
@[simp] theorem setByte_em (s : State) (a : Nat) (b : Byte) : (s.setByte a b).em = s.em := rfl
@[simp] theorem setByte_gd (s : State) (a : Nat) (b : Byte) : (s.setByte a b).gd = s.gd := rfl
@[simp] theorem setByte_gm (s : State) (a : Nat) (b : Byte) : (s.setByte a b).gm = s.gm := rfl
@[simp] theorem setByte_cam (s : State) (a : Nat) (b : Byte) : (s.setByte a b).cam = s.cam := rfl
@[simp] theorem setByte_cal (s : State) (a : Nat) (b : Byte) : (s.setByte a b).cal = s.cal := rfl
@[simp] theorem setByte_camEst (s : State) (a : Nat) (b : Byte) : (s.setByte a b).camEst = s.camEst := rfl
@[simp] theorem setByte_pool (s : State) (a : Nat) (b : Byte) : (s.setByte a b).pool = s.pool := rfl
@[simp] theorem setByte_cl (s : State) (a : Nat) (b : Byte) : (s.setByte a b).cl = s.cl := rfl
@[simp] theorem setByte_ma (s : State) (a : Nat) (b : Byte) : (s.setByte a b).ma = s.ma := rfl
@[simp] theorem setByte_prb (s : State) (a : Nat) (b : Byte) : (s.setByte a b).prb = s.prb := rfl
@[simp] theorem setByte_ill (s : State) (a : Nat) (b : Byte) : (s.setByte a b).ill = s.ill := rfl
@[simp] theorem setByte_tags (s : State) (a : Nat) (b : Byte) : (s.setByte a b).tags = s.tags := rfl
@[simp] theorem setByte_lanes (s : State) (a : Nat) (b : Byte) : (s.setByte a b).lanes = s.lanes := rfl
@[simp] theorem setByte_rings (s : State) (a : Nat) (b : Byte) : (s.setByte a b).rings = s.rings := rfl
@[simp] theorem setByte_mcmd (s : State) (a : Nat) (b : Byte) : (s.setByte a b).mcmd = s.mcmd := rfl
@[simp] theorem setByte_link (s : State) (a : Nat) (b : Byte) : (s.setByte a b).link = s.link := rfl
@[simp] theorem setByte_ints (s : State) (a : Nat) (b : Byte) : (s.setByte a b).ints = s.ints := rfl
@[simp] theorem setByte_evt (s : State) (a : Nat) (b : Byte) : (s.setByte a b).evt = s.evt := rfl
@[simp] theorem setByte_log (s : State) (a : Nat) (b : Byte) : (s.setByte a b).log = s.log := rfl
@[simp] theorem setByte_safe (s : State) (a : Nat) (b : Byte) : (s.setByte a b).safe = s.safe := rfl
@[simp] theorem setByte_svc (s : State) (a : Nat) (b : Byte) : (s.setByte a b).svc = s.svc := rfl
@[simp] theorem setByte_hk (s : State) (a : Nat) (b : Byte) : (s.setByte a b).hk = s.hk := rfl
@[simp] theorem setByte_boot (s : State) (a : Nat) (b : Byte) : (s.setByte a b).boot = s.boot := rfl
@[simp] theorem setByte_fuse (s : State) (a : Nat) (b : Byte) : (s.setByte a b).fuse = s.fuse := rfl
@[simp] theorem setByte_bank (s : State) (a : Nat) (b : Byte) : (s.setByte a b).bank = s.bank := rfl
@[simp] theorem setByte_damper (s : State) (a : Nat) (b : Byte) : (s.setByte a b).damper = s.damper := rfl
@[simp] theorem setByte_outs (s : State) (a : Nat) (b : Byte) : (s.setByte a b).outs = s.outs := rfl
@[simp] theorem setByte_pending (s : State) (a : Nat) (b : Byte) : (s.setByte a b).pending = s.pending := rfl

/-! modCh changes ch alone. -/

@[simp] theorem modCh_regs (s : State) (c : Ch) (f : Chan → Chan) : (s.modCh c f).regs = s.regs := rfl
@[simp] theorem modCh_sram (s : State) (c : Ch) (f : Chan → Chan) : (s.modCh c f).sram = s.sram := rfl
@[simp] theorem modCh_bad (s : State) (c : Ch) (f : Chan → Chan) : (s.modCh c f).bad = s.bad := rfl
@[simp] theorem modCh_now (s : State) (c : Ch) (f : Chan → Chan) : (s.modCh c f).now = s.now := rfl
@[simp] theorem modCh_free (s : State) (c : Ch) (f : Chan → Chan) : (s.modCh c f).free = s.free := rfl
@[simp] theorem modCh_clk (s : State) (c : Ch) (f : Chan → Chan) : (s.modCh c f).clk = s.clk := rfl
@[simp] theorem modCh_staged (s : State) (c : Ch) (f : Chan → Chan) : (s.modCh c f).staged = s.staged := rfl
@[simp] theorem modCh_time (s : State) (c : Ch) (f : Chan → Chan) : (s.modCh c f).time = s.time := rfl
@[simp] theorem modCh_gang (s : State) (c : Ch) (f : Chan → Chan) : (s.modCh c f).gang = s.gang := rfl
@[simp] theorem modCh_eng (s : State) (c : Ch) (f : Chan → Chan) : (s.modCh c f).eng = s.eng := rfl
@[simp] theorem modCh_loadQ (s : State) (c : Ch) (f : Chan → Chan) : (s.modCh c f).loadQ = s.loadQ := rfl
@[simp] theorem modCh_spare (s : State) (c : Ch) (f : Chan → Chan) : (s.modCh c f).spare = s.spare := rfl
@[simp] theorem modCh_vec (s : State) (c : Ch) (f : Chan → Chan) : (s.modCh c f).vec = s.vec := rfl
@[simp] theorem modCh_sync (s : State) (c : Ch) (f : Chan → Chan) : (s.modCh c f).sync = s.sync := rfl
@[simp] theorem modCh_ta (s : State) (c : Ch) (f : Chan → Chan) : (s.modCh c f).ta = s.ta := rfl
@[simp] theorem modCh_sv (s : State) (c : Ch) (f : Chan → Chan) : (s.modCh c f).sv = s.sv := rfl
@[simp] theorem modCh_gridQ (s : State) (c : Ch) (f : Chan → Chan) : (s.modCh c f).gridQ = s.gridQ := rfl
@[simp] theorem modCh_las (s : State) (c : Ch) (f : Chan → Chan) : (s.modCh c f).las = s.las := rfl
@[simp] theorem modCh_lsafe (s : State) (c : Ch) (f : Chan → Chan) : (s.modCh c f).lsafe = s.lsafe := rfl
@[simp] theorem modCh_loop (s : State) (c : Ch) (f : Chan → Chan) : (s.modCh c f).loop = s.loop := rfl
@[simp] theorem modCh_trace (s : State) (c : Ch) (f : Chan → Chan) : (s.modCh c f).trace = s.trace := rfl
@[simp] theorem modCh_camTr (s : State) (c : Ch) (f : Chan → Chan) : (s.modCh c f).camTr = s.camTr := rfl
@[simp] theorem modCh_em (s : State) (c : Ch) (f : Chan → Chan) : (s.modCh c f).em = s.em := rfl
@[simp] theorem modCh_gd (s : State) (c : Ch) (f : Chan → Chan) : (s.modCh c f).gd = s.gd := rfl
@[simp] theorem modCh_gm (s : State) (c : Ch) (f : Chan → Chan) : (s.modCh c f).gm = s.gm := rfl
@[simp] theorem modCh_cam (s : State) (c : Ch) (f : Chan → Chan) : (s.modCh c f).cam = s.cam := rfl
@[simp] theorem modCh_cal (s : State) (c : Ch) (f : Chan → Chan) : (s.modCh c f).cal = s.cal := rfl
@[simp] theorem modCh_camEst (s : State) (c : Ch) (f : Chan → Chan) : (s.modCh c f).camEst = s.camEst := rfl
@[simp] theorem modCh_pool (s : State) (c : Ch) (f : Chan → Chan) : (s.modCh c f).pool = s.pool := rfl
@[simp] theorem modCh_cl (s : State) (c : Ch) (f : Chan → Chan) : (s.modCh c f).cl = s.cl := rfl
@[simp] theorem modCh_ma (s : State) (c : Ch) (f : Chan → Chan) : (s.modCh c f).ma = s.ma := rfl
@[simp] theorem modCh_prb (s : State) (c : Ch) (f : Chan → Chan) : (s.modCh c f).prb = s.prb := rfl
@[simp] theorem modCh_ill (s : State) (c : Ch) (f : Chan → Chan) : (s.modCh c f).ill = s.ill := rfl
@[simp] theorem modCh_tags (s : State) (c : Ch) (f : Chan → Chan) : (s.modCh c f).tags = s.tags := rfl
@[simp] theorem modCh_lanes (s : State) (c : Ch) (f : Chan → Chan) : (s.modCh c f).lanes = s.lanes := rfl
@[simp] theorem modCh_rings (s : State) (c : Ch) (f : Chan → Chan) : (s.modCh c f).rings = s.rings := rfl
@[simp] theorem modCh_mcmd (s : State) (c : Ch) (f : Chan → Chan) : (s.modCh c f).mcmd = s.mcmd := rfl
@[simp] theorem modCh_link (s : State) (c : Ch) (f : Chan → Chan) : (s.modCh c f).link = s.link := rfl
@[simp] theorem modCh_ints (s : State) (c : Ch) (f : Chan → Chan) : (s.modCh c f).ints = s.ints := rfl
@[simp] theorem modCh_evt (s : State) (c : Ch) (f : Chan → Chan) : (s.modCh c f).evt = s.evt := rfl
@[simp] theorem modCh_log (s : State) (c : Ch) (f : Chan → Chan) : (s.modCh c f).log = s.log := rfl
@[simp] theorem modCh_safe (s : State) (c : Ch) (f : Chan → Chan) : (s.modCh c f).safe = s.safe := rfl
@[simp] theorem modCh_svc (s : State) (c : Ch) (f : Chan → Chan) : (s.modCh c f).svc = s.svc := rfl
@[simp] theorem modCh_hk (s : State) (c : Ch) (f : Chan → Chan) : (s.modCh c f).hk = s.hk := rfl
@[simp] theorem modCh_boot (s : State) (c : Ch) (f : Chan → Chan) : (s.modCh c f).boot = s.boot := rfl
@[simp] theorem modCh_fuse (s : State) (c : Ch) (f : Chan → Chan) : (s.modCh c f).fuse = s.fuse := rfl
@[simp] theorem modCh_bank (s : State) (c : Ch) (f : Chan → Chan) : (s.modCh c f).bank = s.bank := rfl
@[simp] theorem modCh_damper (s : State) (c : Ch) (f : Chan → Chan) : (s.modCh c f).damper = s.damper := rfl
@[simp] theorem modCh_outs (s : State) (c : Ch) (f : Chan → Chan) : (s.modCh c f).outs = s.outs := rfl
@[simp] theorem modCh_pending (s : State) (c : Ch) (f : Chan → Chan) : (s.modCh c f).pending = s.pending := rfl

/-! modVec changes vec alone. -/

@[simp] theorem modVec_regs (s : State) (c : Ch) (f : VecSt → VecSt) : (s.modVec c f).regs = s.regs := rfl
@[simp] theorem modVec_sram (s : State) (c : Ch) (f : VecSt → VecSt) : (s.modVec c f).sram = s.sram := rfl
@[simp] theorem modVec_bad (s : State) (c : Ch) (f : VecSt → VecSt) : (s.modVec c f).bad = s.bad := rfl
@[simp] theorem modVec_now (s : State) (c : Ch) (f : VecSt → VecSt) : (s.modVec c f).now = s.now := rfl
@[simp] theorem modVec_free (s : State) (c : Ch) (f : VecSt → VecSt) : (s.modVec c f).free = s.free := rfl
@[simp] theorem modVec_clk (s : State) (c : Ch) (f : VecSt → VecSt) : (s.modVec c f).clk = s.clk := rfl
@[simp] theorem modVec_staged (s : State) (c : Ch) (f : VecSt → VecSt) : (s.modVec c f).staged = s.staged := rfl
@[simp] theorem modVec_time (s : State) (c : Ch) (f : VecSt → VecSt) : (s.modVec c f).time = s.time := rfl
@[simp] theorem modVec_gang (s : State) (c : Ch) (f : VecSt → VecSt) : (s.modVec c f).gang = s.gang := rfl
@[simp] theorem modVec_eng (s : State) (c : Ch) (f : VecSt → VecSt) : (s.modVec c f).eng = s.eng := rfl
@[simp] theorem modVec_ch (s : State) (c : Ch) (f : VecSt → VecSt) : (s.modVec c f).ch = s.ch := rfl
@[simp] theorem modVec_loadQ (s : State) (c : Ch) (f : VecSt → VecSt) : (s.modVec c f).loadQ = s.loadQ := rfl
@[simp] theorem modVec_spare (s : State) (c : Ch) (f : VecSt → VecSt) : (s.modVec c f).spare = s.spare := rfl
@[simp] theorem modVec_sync (s : State) (c : Ch) (f : VecSt → VecSt) : (s.modVec c f).sync = s.sync := rfl
@[simp] theorem modVec_ta (s : State) (c : Ch) (f : VecSt → VecSt) : (s.modVec c f).ta = s.ta := rfl
@[simp] theorem modVec_sv (s : State) (c : Ch) (f : VecSt → VecSt) : (s.modVec c f).sv = s.sv := rfl
@[simp] theorem modVec_gridQ (s : State) (c : Ch) (f : VecSt → VecSt) : (s.modVec c f).gridQ = s.gridQ := rfl
@[simp] theorem modVec_las (s : State) (c : Ch) (f : VecSt → VecSt) : (s.modVec c f).las = s.las := rfl
@[simp] theorem modVec_lsafe (s : State) (c : Ch) (f : VecSt → VecSt) : (s.modVec c f).lsafe = s.lsafe := rfl
@[simp] theorem modVec_loop (s : State) (c : Ch) (f : VecSt → VecSt) : (s.modVec c f).loop = s.loop := rfl
@[simp] theorem modVec_trace (s : State) (c : Ch) (f : VecSt → VecSt) : (s.modVec c f).trace = s.trace := rfl
@[simp] theorem modVec_camTr (s : State) (c : Ch) (f : VecSt → VecSt) : (s.modVec c f).camTr = s.camTr := rfl
@[simp] theorem modVec_em (s : State) (c : Ch) (f : VecSt → VecSt) : (s.modVec c f).em = s.em := rfl
@[simp] theorem modVec_gd (s : State) (c : Ch) (f : VecSt → VecSt) : (s.modVec c f).gd = s.gd := rfl
@[simp] theorem modVec_gm (s : State) (c : Ch) (f : VecSt → VecSt) : (s.modVec c f).gm = s.gm := rfl
@[simp] theorem modVec_cam (s : State) (c : Ch) (f : VecSt → VecSt) : (s.modVec c f).cam = s.cam := rfl
@[simp] theorem modVec_cal (s : State) (c : Ch) (f : VecSt → VecSt) : (s.modVec c f).cal = s.cal := rfl
@[simp] theorem modVec_camEst (s : State) (c : Ch) (f : VecSt → VecSt) : (s.modVec c f).camEst = s.camEst := rfl
@[simp] theorem modVec_pool (s : State) (c : Ch) (f : VecSt → VecSt) : (s.modVec c f).pool = s.pool := rfl
@[simp] theorem modVec_cl (s : State) (c : Ch) (f : VecSt → VecSt) : (s.modVec c f).cl = s.cl := rfl
@[simp] theorem modVec_ma (s : State) (c : Ch) (f : VecSt → VecSt) : (s.modVec c f).ma = s.ma := rfl
@[simp] theorem modVec_prb (s : State) (c : Ch) (f : VecSt → VecSt) : (s.modVec c f).prb = s.prb := rfl
@[simp] theorem modVec_ill (s : State) (c : Ch) (f : VecSt → VecSt) : (s.modVec c f).ill = s.ill := rfl
@[simp] theorem modVec_tags (s : State) (c : Ch) (f : VecSt → VecSt) : (s.modVec c f).tags = s.tags := rfl
@[simp] theorem modVec_lanes (s : State) (c : Ch) (f : VecSt → VecSt) : (s.modVec c f).lanes = s.lanes := rfl
@[simp] theorem modVec_rings (s : State) (c : Ch) (f : VecSt → VecSt) : (s.modVec c f).rings = s.rings := rfl
@[simp] theorem modVec_mcmd (s : State) (c : Ch) (f : VecSt → VecSt) : (s.modVec c f).mcmd = s.mcmd := rfl
@[simp] theorem modVec_link (s : State) (c : Ch) (f : VecSt → VecSt) : (s.modVec c f).link = s.link := rfl
@[simp] theorem modVec_ints (s : State) (c : Ch) (f : VecSt → VecSt) : (s.modVec c f).ints = s.ints := rfl
@[simp] theorem modVec_evt (s : State) (c : Ch) (f : VecSt → VecSt) : (s.modVec c f).evt = s.evt := rfl
@[simp] theorem modVec_log (s : State) (c : Ch) (f : VecSt → VecSt) : (s.modVec c f).log = s.log := rfl
@[simp] theorem modVec_safe (s : State) (c : Ch) (f : VecSt → VecSt) : (s.modVec c f).safe = s.safe := rfl
@[simp] theorem modVec_svc (s : State) (c : Ch) (f : VecSt → VecSt) : (s.modVec c f).svc = s.svc := rfl
@[simp] theorem modVec_hk (s : State) (c : Ch) (f : VecSt → VecSt) : (s.modVec c f).hk = s.hk := rfl
@[simp] theorem modVec_boot (s : State) (c : Ch) (f : VecSt → VecSt) : (s.modVec c f).boot = s.boot := rfl
@[simp] theorem modVec_fuse (s : State) (c : Ch) (f : VecSt → VecSt) : (s.modVec c f).fuse = s.fuse := rfl
@[simp] theorem modVec_bank (s : State) (c : Ch) (f : VecSt → VecSt) : (s.modVec c f).bank = s.bank := rfl
@[simp] theorem modVec_damper (s : State) (c : Ch) (f : VecSt → VecSt) : (s.modVec c f).damper = s.damper := rfl
@[simp] theorem modVec_outs (s : State) (c : Ch) (f : VecSt → VecSt) : (s.modVec c f).outs = s.outs := rfl
@[simp] theorem modVec_pending (s : State) (c : Ch) (f : VecSt → VecSt) : (s.modVec c f).pending = s.pending := rfl

/-! modSync changes sync alone. -/

@[simp] theorem modSync_regs (s : State) (c : Ch) (f : SyncSt → SyncSt) : (s.modSync c f).regs = s.regs := rfl
@[simp] theorem modSync_sram (s : State) (c : Ch) (f : SyncSt → SyncSt) : (s.modSync c f).sram = s.sram := rfl
@[simp] theorem modSync_bad (s : State) (c : Ch) (f : SyncSt → SyncSt) : (s.modSync c f).bad = s.bad := rfl
@[simp] theorem modSync_now (s : State) (c : Ch) (f : SyncSt → SyncSt) : (s.modSync c f).now = s.now := rfl
@[simp] theorem modSync_free (s : State) (c : Ch) (f : SyncSt → SyncSt) : (s.modSync c f).free = s.free := rfl
@[simp] theorem modSync_clk (s : State) (c : Ch) (f : SyncSt → SyncSt) : (s.modSync c f).clk = s.clk := rfl
@[simp] theorem modSync_staged (s : State) (c : Ch) (f : SyncSt → SyncSt) : (s.modSync c f).staged = s.staged := rfl
@[simp] theorem modSync_time (s : State) (c : Ch) (f : SyncSt → SyncSt) : (s.modSync c f).time = s.time := rfl
@[simp] theorem modSync_gang (s : State) (c : Ch) (f : SyncSt → SyncSt) : (s.modSync c f).gang = s.gang := rfl
@[simp] theorem modSync_eng (s : State) (c : Ch) (f : SyncSt → SyncSt) : (s.modSync c f).eng = s.eng := rfl
@[simp] theorem modSync_ch (s : State) (c : Ch) (f : SyncSt → SyncSt) : (s.modSync c f).ch = s.ch := rfl
@[simp] theorem modSync_loadQ (s : State) (c : Ch) (f : SyncSt → SyncSt) : (s.modSync c f).loadQ = s.loadQ := rfl
@[simp] theorem modSync_spare (s : State) (c : Ch) (f : SyncSt → SyncSt) : (s.modSync c f).spare = s.spare := rfl
@[simp] theorem modSync_vec (s : State) (c : Ch) (f : SyncSt → SyncSt) : (s.modSync c f).vec = s.vec := rfl
@[simp] theorem modSync_ta (s : State) (c : Ch) (f : SyncSt → SyncSt) : (s.modSync c f).ta = s.ta := rfl
@[simp] theorem modSync_sv (s : State) (c : Ch) (f : SyncSt → SyncSt) : (s.modSync c f).sv = s.sv := rfl
@[simp] theorem modSync_gridQ (s : State) (c : Ch) (f : SyncSt → SyncSt) : (s.modSync c f).gridQ = s.gridQ := rfl
@[simp] theorem modSync_las (s : State) (c : Ch) (f : SyncSt → SyncSt) : (s.modSync c f).las = s.las := rfl
@[simp] theorem modSync_lsafe (s : State) (c : Ch) (f : SyncSt → SyncSt) : (s.modSync c f).lsafe = s.lsafe := rfl
@[simp] theorem modSync_loop (s : State) (c : Ch) (f : SyncSt → SyncSt) : (s.modSync c f).loop = s.loop := rfl
@[simp] theorem modSync_trace (s : State) (c : Ch) (f : SyncSt → SyncSt) : (s.modSync c f).trace = s.trace := rfl
@[simp] theorem modSync_camTr (s : State) (c : Ch) (f : SyncSt → SyncSt) : (s.modSync c f).camTr = s.camTr := rfl
@[simp] theorem modSync_em (s : State) (c : Ch) (f : SyncSt → SyncSt) : (s.modSync c f).em = s.em := rfl
@[simp] theorem modSync_gd (s : State) (c : Ch) (f : SyncSt → SyncSt) : (s.modSync c f).gd = s.gd := rfl
@[simp] theorem modSync_gm (s : State) (c : Ch) (f : SyncSt → SyncSt) : (s.modSync c f).gm = s.gm := rfl
@[simp] theorem modSync_cam (s : State) (c : Ch) (f : SyncSt → SyncSt) : (s.modSync c f).cam = s.cam := rfl
@[simp] theorem modSync_cal (s : State) (c : Ch) (f : SyncSt → SyncSt) : (s.modSync c f).cal = s.cal := rfl
@[simp] theorem modSync_camEst (s : State) (c : Ch) (f : SyncSt → SyncSt) : (s.modSync c f).camEst = s.camEst := rfl
@[simp] theorem modSync_pool (s : State) (c : Ch) (f : SyncSt → SyncSt) : (s.modSync c f).pool = s.pool := rfl
@[simp] theorem modSync_cl (s : State) (c : Ch) (f : SyncSt → SyncSt) : (s.modSync c f).cl = s.cl := rfl
@[simp] theorem modSync_ma (s : State) (c : Ch) (f : SyncSt → SyncSt) : (s.modSync c f).ma = s.ma := rfl
@[simp] theorem modSync_prb (s : State) (c : Ch) (f : SyncSt → SyncSt) : (s.modSync c f).prb = s.prb := rfl
@[simp] theorem modSync_ill (s : State) (c : Ch) (f : SyncSt → SyncSt) : (s.modSync c f).ill = s.ill := rfl
@[simp] theorem modSync_tags (s : State) (c : Ch) (f : SyncSt → SyncSt) : (s.modSync c f).tags = s.tags := rfl
@[simp] theorem modSync_lanes (s : State) (c : Ch) (f : SyncSt → SyncSt) : (s.modSync c f).lanes = s.lanes := rfl
@[simp] theorem modSync_rings (s : State) (c : Ch) (f : SyncSt → SyncSt) : (s.modSync c f).rings = s.rings := rfl
@[simp] theorem modSync_mcmd (s : State) (c : Ch) (f : SyncSt → SyncSt) : (s.modSync c f).mcmd = s.mcmd := rfl
@[simp] theorem modSync_link (s : State) (c : Ch) (f : SyncSt → SyncSt) : (s.modSync c f).link = s.link := rfl
@[simp] theorem modSync_ints (s : State) (c : Ch) (f : SyncSt → SyncSt) : (s.modSync c f).ints = s.ints := rfl
@[simp] theorem modSync_evt (s : State) (c : Ch) (f : SyncSt → SyncSt) : (s.modSync c f).evt = s.evt := rfl
@[simp] theorem modSync_log (s : State) (c : Ch) (f : SyncSt → SyncSt) : (s.modSync c f).log = s.log := rfl
@[simp] theorem modSync_safe (s : State) (c : Ch) (f : SyncSt → SyncSt) : (s.modSync c f).safe = s.safe := rfl
@[simp] theorem modSync_svc (s : State) (c : Ch) (f : SyncSt → SyncSt) : (s.modSync c f).svc = s.svc := rfl
@[simp] theorem modSync_hk (s : State) (c : Ch) (f : SyncSt → SyncSt) : (s.modSync c f).hk = s.hk := rfl
@[simp] theorem modSync_boot (s : State) (c : Ch) (f : SyncSt → SyncSt) : (s.modSync c f).boot = s.boot := rfl
@[simp] theorem modSync_fuse (s : State) (c : Ch) (f : SyncSt → SyncSt) : (s.modSync c f).fuse = s.fuse := rfl
@[simp] theorem modSync_bank (s : State) (c : Ch) (f : SyncSt → SyncSt) : (s.modSync c f).bank = s.bank := rfl
@[simp] theorem modSync_damper (s : State) (c : Ch) (f : SyncSt → SyncSt) : (s.modSync c f).damper = s.damper := rfl
@[simp] theorem modSync_outs (s : State) (c : Ch) (f : SyncSt → SyncSt) : (s.modSync c f).outs = s.outs := rfl
@[simp] theorem modSync_pending (s : State) (c : Ch) (f : SyncSt → SyncSt) : (s.modSync c f).pending = s.pending := rfl

/-! modSv changes sv alone. -/

@[simp] theorem modSv_regs (s : State) (c : Ch) (f : SvCh → SvCh) : (s.modSv c f).regs = s.regs := rfl
@[simp] theorem modSv_sram (s : State) (c : Ch) (f : SvCh → SvCh) : (s.modSv c f).sram = s.sram := rfl
@[simp] theorem modSv_bad (s : State) (c : Ch) (f : SvCh → SvCh) : (s.modSv c f).bad = s.bad := rfl
@[simp] theorem modSv_now (s : State) (c : Ch) (f : SvCh → SvCh) : (s.modSv c f).now = s.now := rfl
@[simp] theorem modSv_free (s : State) (c : Ch) (f : SvCh → SvCh) : (s.modSv c f).free = s.free := rfl
@[simp] theorem modSv_clk (s : State) (c : Ch) (f : SvCh → SvCh) : (s.modSv c f).clk = s.clk := rfl
@[simp] theorem modSv_staged (s : State) (c : Ch) (f : SvCh → SvCh) : (s.modSv c f).staged = s.staged := rfl
@[simp] theorem modSv_time (s : State) (c : Ch) (f : SvCh → SvCh) : (s.modSv c f).time = s.time := rfl
@[simp] theorem modSv_gang (s : State) (c : Ch) (f : SvCh → SvCh) : (s.modSv c f).gang = s.gang := rfl
@[simp] theorem modSv_eng (s : State) (c : Ch) (f : SvCh → SvCh) : (s.modSv c f).eng = s.eng := rfl
@[simp] theorem modSv_ch (s : State) (c : Ch) (f : SvCh → SvCh) : (s.modSv c f).ch = s.ch := rfl
@[simp] theorem modSv_loadQ (s : State) (c : Ch) (f : SvCh → SvCh) : (s.modSv c f).loadQ = s.loadQ := rfl
@[simp] theorem modSv_spare (s : State) (c : Ch) (f : SvCh → SvCh) : (s.modSv c f).spare = s.spare := rfl
@[simp] theorem modSv_vec (s : State) (c : Ch) (f : SvCh → SvCh) : (s.modSv c f).vec = s.vec := rfl
@[simp] theorem modSv_sync (s : State) (c : Ch) (f : SvCh → SvCh) : (s.modSv c f).sync = s.sync := rfl
@[simp] theorem modSv_ta (s : State) (c : Ch) (f : SvCh → SvCh) : (s.modSv c f).ta = s.ta := rfl
@[simp] theorem modSv_gridQ (s : State) (c : Ch) (f : SvCh → SvCh) : (s.modSv c f).gridQ = s.gridQ := rfl
@[simp] theorem modSv_las (s : State) (c : Ch) (f : SvCh → SvCh) : (s.modSv c f).las = s.las := rfl
@[simp] theorem modSv_lsafe (s : State) (c : Ch) (f : SvCh → SvCh) : (s.modSv c f).lsafe = s.lsafe := rfl
@[simp] theorem modSv_loop (s : State) (c : Ch) (f : SvCh → SvCh) : (s.modSv c f).loop = s.loop := rfl
@[simp] theorem modSv_trace (s : State) (c : Ch) (f : SvCh → SvCh) : (s.modSv c f).trace = s.trace := rfl
@[simp] theorem modSv_camTr (s : State) (c : Ch) (f : SvCh → SvCh) : (s.modSv c f).camTr = s.camTr := rfl
@[simp] theorem modSv_em (s : State) (c : Ch) (f : SvCh → SvCh) : (s.modSv c f).em = s.em := rfl
@[simp] theorem modSv_gd (s : State) (c : Ch) (f : SvCh → SvCh) : (s.modSv c f).gd = s.gd := rfl
@[simp] theorem modSv_gm (s : State) (c : Ch) (f : SvCh → SvCh) : (s.modSv c f).gm = s.gm := rfl
@[simp] theorem modSv_cam (s : State) (c : Ch) (f : SvCh → SvCh) : (s.modSv c f).cam = s.cam := rfl
@[simp] theorem modSv_cal (s : State) (c : Ch) (f : SvCh → SvCh) : (s.modSv c f).cal = s.cal := rfl
@[simp] theorem modSv_camEst (s : State) (c : Ch) (f : SvCh → SvCh) : (s.modSv c f).camEst = s.camEst := rfl
@[simp] theorem modSv_pool (s : State) (c : Ch) (f : SvCh → SvCh) : (s.modSv c f).pool = s.pool := rfl
@[simp] theorem modSv_cl (s : State) (c : Ch) (f : SvCh → SvCh) : (s.modSv c f).cl = s.cl := rfl
@[simp] theorem modSv_ma (s : State) (c : Ch) (f : SvCh → SvCh) : (s.modSv c f).ma = s.ma := rfl
@[simp] theorem modSv_prb (s : State) (c : Ch) (f : SvCh → SvCh) : (s.modSv c f).prb = s.prb := rfl
@[simp] theorem modSv_ill (s : State) (c : Ch) (f : SvCh → SvCh) : (s.modSv c f).ill = s.ill := rfl
@[simp] theorem modSv_tags (s : State) (c : Ch) (f : SvCh → SvCh) : (s.modSv c f).tags = s.tags := rfl
@[simp] theorem modSv_lanes (s : State) (c : Ch) (f : SvCh → SvCh) : (s.modSv c f).lanes = s.lanes := rfl
@[simp] theorem modSv_rings (s : State) (c : Ch) (f : SvCh → SvCh) : (s.modSv c f).rings = s.rings := rfl
@[simp] theorem modSv_mcmd (s : State) (c : Ch) (f : SvCh → SvCh) : (s.modSv c f).mcmd = s.mcmd := rfl
@[simp] theorem modSv_link (s : State) (c : Ch) (f : SvCh → SvCh) : (s.modSv c f).link = s.link := rfl
@[simp] theorem modSv_ints (s : State) (c : Ch) (f : SvCh → SvCh) : (s.modSv c f).ints = s.ints := rfl
@[simp] theorem modSv_evt (s : State) (c : Ch) (f : SvCh → SvCh) : (s.modSv c f).evt = s.evt := rfl
@[simp] theorem modSv_log (s : State) (c : Ch) (f : SvCh → SvCh) : (s.modSv c f).log = s.log := rfl
@[simp] theorem modSv_safe (s : State) (c : Ch) (f : SvCh → SvCh) : (s.modSv c f).safe = s.safe := rfl
@[simp] theorem modSv_svc (s : State) (c : Ch) (f : SvCh → SvCh) : (s.modSv c f).svc = s.svc := rfl
@[simp] theorem modSv_hk (s : State) (c : Ch) (f : SvCh → SvCh) : (s.modSv c f).hk = s.hk := rfl
@[simp] theorem modSv_boot (s : State) (c : Ch) (f : SvCh → SvCh) : (s.modSv c f).boot = s.boot := rfl
@[simp] theorem modSv_fuse (s : State) (c : Ch) (f : SvCh → SvCh) : (s.modSv c f).fuse = s.fuse := rfl
@[simp] theorem modSv_bank (s : State) (c : Ch) (f : SvCh → SvCh) : (s.modSv c f).bank = s.bank := rfl
@[simp] theorem modSv_damper (s : State) (c : Ch) (f : SvCh → SvCh) : (s.modSv c f).damper = s.damper := rfl
@[simp] theorem modSv_outs (s : State) (c : Ch) (f : SvCh → SvCh) : (s.modSv c f).outs = s.outs := rfl
@[simp] theorem modSv_pending (s : State) (c : Ch) (f : SvCh → SvCh) : (s.modSv c f).pending = s.pending := rfl

/-! modLas changes las alone. -/

@[simp] theorem modLas_regs (s : State) (c : Ch) (f : Las → Las) : (s.modLas c f).regs = s.regs := rfl
@[simp] theorem modLas_sram (s : State) (c : Ch) (f : Las → Las) : (s.modLas c f).sram = s.sram := rfl
@[simp] theorem modLas_bad (s : State) (c : Ch) (f : Las → Las) : (s.modLas c f).bad = s.bad := rfl
@[simp] theorem modLas_now (s : State) (c : Ch) (f : Las → Las) : (s.modLas c f).now = s.now := rfl
@[simp] theorem modLas_free (s : State) (c : Ch) (f : Las → Las) : (s.modLas c f).free = s.free := rfl
@[simp] theorem modLas_clk (s : State) (c : Ch) (f : Las → Las) : (s.modLas c f).clk = s.clk := rfl
@[simp] theorem modLas_staged (s : State) (c : Ch) (f : Las → Las) : (s.modLas c f).staged = s.staged := rfl
@[simp] theorem modLas_time (s : State) (c : Ch) (f : Las → Las) : (s.modLas c f).time = s.time := rfl
@[simp] theorem modLas_gang (s : State) (c : Ch) (f : Las → Las) : (s.modLas c f).gang = s.gang := rfl
@[simp] theorem modLas_eng (s : State) (c : Ch) (f : Las → Las) : (s.modLas c f).eng = s.eng := rfl
@[simp] theorem modLas_ch (s : State) (c : Ch) (f : Las → Las) : (s.modLas c f).ch = s.ch := rfl
@[simp] theorem modLas_loadQ (s : State) (c : Ch) (f : Las → Las) : (s.modLas c f).loadQ = s.loadQ := rfl
@[simp] theorem modLas_spare (s : State) (c : Ch) (f : Las → Las) : (s.modLas c f).spare = s.spare := rfl
@[simp] theorem modLas_vec (s : State) (c : Ch) (f : Las → Las) : (s.modLas c f).vec = s.vec := rfl
@[simp] theorem modLas_sync (s : State) (c : Ch) (f : Las → Las) : (s.modLas c f).sync = s.sync := rfl
@[simp] theorem modLas_ta (s : State) (c : Ch) (f : Las → Las) : (s.modLas c f).ta = s.ta := rfl
@[simp] theorem modLas_sv (s : State) (c : Ch) (f : Las → Las) : (s.modLas c f).sv = s.sv := rfl
@[simp] theorem modLas_gridQ (s : State) (c : Ch) (f : Las → Las) : (s.modLas c f).gridQ = s.gridQ := rfl
@[simp] theorem modLas_lsafe (s : State) (c : Ch) (f : Las → Las) : (s.modLas c f).lsafe = s.lsafe := rfl
@[simp] theorem modLas_loop (s : State) (c : Ch) (f : Las → Las) : (s.modLas c f).loop = s.loop := rfl
@[simp] theorem modLas_trace (s : State) (c : Ch) (f : Las → Las) : (s.modLas c f).trace = s.trace := rfl
@[simp] theorem modLas_camTr (s : State) (c : Ch) (f : Las → Las) : (s.modLas c f).camTr = s.camTr := rfl
@[simp] theorem modLas_em (s : State) (c : Ch) (f : Las → Las) : (s.modLas c f).em = s.em := rfl
@[simp] theorem modLas_gd (s : State) (c : Ch) (f : Las → Las) : (s.modLas c f).gd = s.gd := rfl
@[simp] theorem modLas_gm (s : State) (c : Ch) (f : Las → Las) : (s.modLas c f).gm = s.gm := rfl
@[simp] theorem modLas_cam (s : State) (c : Ch) (f : Las → Las) : (s.modLas c f).cam = s.cam := rfl
@[simp] theorem modLas_cal (s : State) (c : Ch) (f : Las → Las) : (s.modLas c f).cal = s.cal := rfl
@[simp] theorem modLas_camEst (s : State) (c : Ch) (f : Las → Las) : (s.modLas c f).camEst = s.camEst := rfl
@[simp] theorem modLas_pool (s : State) (c : Ch) (f : Las → Las) : (s.modLas c f).pool = s.pool := rfl
@[simp] theorem modLas_cl (s : State) (c : Ch) (f : Las → Las) : (s.modLas c f).cl = s.cl := rfl
@[simp] theorem modLas_ma (s : State) (c : Ch) (f : Las → Las) : (s.modLas c f).ma = s.ma := rfl
@[simp] theorem modLas_prb (s : State) (c : Ch) (f : Las → Las) : (s.modLas c f).prb = s.prb := rfl
@[simp] theorem modLas_ill (s : State) (c : Ch) (f : Las → Las) : (s.modLas c f).ill = s.ill := rfl
@[simp] theorem modLas_tags (s : State) (c : Ch) (f : Las → Las) : (s.modLas c f).tags = s.tags := rfl
@[simp] theorem modLas_lanes (s : State) (c : Ch) (f : Las → Las) : (s.modLas c f).lanes = s.lanes := rfl
@[simp] theorem modLas_rings (s : State) (c : Ch) (f : Las → Las) : (s.modLas c f).rings = s.rings := rfl
@[simp] theorem modLas_mcmd (s : State) (c : Ch) (f : Las → Las) : (s.modLas c f).mcmd = s.mcmd := rfl
@[simp] theorem modLas_link (s : State) (c : Ch) (f : Las → Las) : (s.modLas c f).link = s.link := rfl
@[simp] theorem modLas_ints (s : State) (c : Ch) (f : Las → Las) : (s.modLas c f).ints = s.ints := rfl
@[simp] theorem modLas_evt (s : State) (c : Ch) (f : Las → Las) : (s.modLas c f).evt = s.evt := rfl
@[simp] theorem modLas_log (s : State) (c : Ch) (f : Las → Las) : (s.modLas c f).log = s.log := rfl
@[simp] theorem modLas_safe (s : State) (c : Ch) (f : Las → Las) : (s.modLas c f).safe = s.safe := rfl
@[simp] theorem modLas_svc (s : State) (c : Ch) (f : Las → Las) : (s.modLas c f).svc = s.svc := rfl
@[simp] theorem modLas_hk (s : State) (c : Ch) (f : Las → Las) : (s.modLas c f).hk = s.hk := rfl
@[simp] theorem modLas_boot (s : State) (c : Ch) (f : Las → Las) : (s.modLas c f).boot = s.boot := rfl
@[simp] theorem modLas_fuse (s : State) (c : Ch) (f : Las → Las) : (s.modLas c f).fuse = s.fuse := rfl
@[simp] theorem modLas_bank (s : State) (c : Ch) (f : Las → Las) : (s.modLas c f).bank = s.bank := rfl
@[simp] theorem modLas_damper (s : State) (c : Ch) (f : Las → Las) : (s.modLas c f).damper = s.damper := rfl
@[simp] theorem modLas_outs (s : State) (c : Ch) (f : Las → Las) : (s.modLas c f).outs = s.outs := rfl
@[simp] theorem modLas_pending (s : State) (c : Ch) (f : Las → Las) : (s.modLas c f).pending = s.pending := rfl

/-! modLoop changes loop alone. -/

@[simp] theorem modLoop_regs (s : State) (c : Ch) (f : LoopU → LoopU) : (s.modLoop c f).regs = s.regs := rfl
@[simp] theorem modLoop_sram (s : State) (c : Ch) (f : LoopU → LoopU) : (s.modLoop c f).sram = s.sram := rfl
@[simp] theorem modLoop_bad (s : State) (c : Ch) (f : LoopU → LoopU) : (s.modLoop c f).bad = s.bad := rfl
@[simp] theorem modLoop_now (s : State) (c : Ch) (f : LoopU → LoopU) : (s.modLoop c f).now = s.now := rfl
@[simp] theorem modLoop_free (s : State) (c : Ch) (f : LoopU → LoopU) : (s.modLoop c f).free = s.free := rfl
@[simp] theorem modLoop_clk (s : State) (c : Ch) (f : LoopU → LoopU) : (s.modLoop c f).clk = s.clk := rfl
@[simp] theorem modLoop_staged (s : State) (c : Ch) (f : LoopU → LoopU) : (s.modLoop c f).staged = s.staged := rfl
@[simp] theorem modLoop_time (s : State) (c : Ch) (f : LoopU → LoopU) : (s.modLoop c f).time = s.time := rfl
@[simp] theorem modLoop_gang (s : State) (c : Ch) (f : LoopU → LoopU) : (s.modLoop c f).gang = s.gang := rfl
@[simp] theorem modLoop_eng (s : State) (c : Ch) (f : LoopU → LoopU) : (s.modLoop c f).eng = s.eng := rfl
@[simp] theorem modLoop_ch (s : State) (c : Ch) (f : LoopU → LoopU) : (s.modLoop c f).ch = s.ch := rfl
@[simp] theorem modLoop_loadQ (s : State) (c : Ch) (f : LoopU → LoopU) : (s.modLoop c f).loadQ = s.loadQ := rfl
@[simp] theorem modLoop_spare (s : State) (c : Ch) (f : LoopU → LoopU) : (s.modLoop c f).spare = s.spare := rfl
@[simp] theorem modLoop_vec (s : State) (c : Ch) (f : LoopU → LoopU) : (s.modLoop c f).vec = s.vec := rfl
@[simp] theorem modLoop_sync (s : State) (c : Ch) (f : LoopU → LoopU) : (s.modLoop c f).sync = s.sync := rfl
@[simp] theorem modLoop_ta (s : State) (c : Ch) (f : LoopU → LoopU) : (s.modLoop c f).ta = s.ta := rfl
@[simp] theorem modLoop_sv (s : State) (c : Ch) (f : LoopU → LoopU) : (s.modLoop c f).sv = s.sv := rfl
@[simp] theorem modLoop_gridQ (s : State) (c : Ch) (f : LoopU → LoopU) : (s.modLoop c f).gridQ = s.gridQ := rfl
@[simp] theorem modLoop_las (s : State) (c : Ch) (f : LoopU → LoopU) : (s.modLoop c f).las = s.las := rfl
@[simp] theorem modLoop_lsafe (s : State) (c : Ch) (f : LoopU → LoopU) : (s.modLoop c f).lsafe = s.lsafe := rfl
@[simp] theorem modLoop_trace (s : State) (c : Ch) (f : LoopU → LoopU) : (s.modLoop c f).trace = s.trace := rfl
@[simp] theorem modLoop_camTr (s : State) (c : Ch) (f : LoopU → LoopU) : (s.modLoop c f).camTr = s.camTr := rfl
@[simp] theorem modLoop_em (s : State) (c : Ch) (f : LoopU → LoopU) : (s.modLoop c f).em = s.em := rfl
@[simp] theorem modLoop_gd (s : State) (c : Ch) (f : LoopU → LoopU) : (s.modLoop c f).gd = s.gd := rfl
@[simp] theorem modLoop_gm (s : State) (c : Ch) (f : LoopU → LoopU) : (s.modLoop c f).gm = s.gm := rfl
@[simp] theorem modLoop_cam (s : State) (c : Ch) (f : LoopU → LoopU) : (s.modLoop c f).cam = s.cam := rfl
@[simp] theorem modLoop_cal (s : State) (c : Ch) (f : LoopU → LoopU) : (s.modLoop c f).cal = s.cal := rfl
@[simp] theorem modLoop_camEst (s : State) (c : Ch) (f : LoopU → LoopU) : (s.modLoop c f).camEst = s.camEst := rfl
@[simp] theorem modLoop_pool (s : State) (c : Ch) (f : LoopU → LoopU) : (s.modLoop c f).pool = s.pool := rfl
@[simp] theorem modLoop_cl (s : State) (c : Ch) (f : LoopU → LoopU) : (s.modLoop c f).cl = s.cl := rfl
@[simp] theorem modLoop_ma (s : State) (c : Ch) (f : LoopU → LoopU) : (s.modLoop c f).ma = s.ma := rfl
@[simp] theorem modLoop_prb (s : State) (c : Ch) (f : LoopU → LoopU) : (s.modLoop c f).prb = s.prb := rfl
@[simp] theorem modLoop_ill (s : State) (c : Ch) (f : LoopU → LoopU) : (s.modLoop c f).ill = s.ill := rfl
@[simp] theorem modLoop_tags (s : State) (c : Ch) (f : LoopU → LoopU) : (s.modLoop c f).tags = s.tags := rfl
@[simp] theorem modLoop_lanes (s : State) (c : Ch) (f : LoopU → LoopU) : (s.modLoop c f).lanes = s.lanes := rfl
@[simp] theorem modLoop_rings (s : State) (c : Ch) (f : LoopU → LoopU) : (s.modLoop c f).rings = s.rings := rfl
@[simp] theorem modLoop_mcmd (s : State) (c : Ch) (f : LoopU → LoopU) : (s.modLoop c f).mcmd = s.mcmd := rfl
@[simp] theorem modLoop_link (s : State) (c : Ch) (f : LoopU → LoopU) : (s.modLoop c f).link = s.link := rfl
@[simp] theorem modLoop_ints (s : State) (c : Ch) (f : LoopU → LoopU) : (s.modLoop c f).ints = s.ints := rfl
@[simp] theorem modLoop_evt (s : State) (c : Ch) (f : LoopU → LoopU) : (s.modLoop c f).evt = s.evt := rfl
@[simp] theorem modLoop_log (s : State) (c : Ch) (f : LoopU → LoopU) : (s.modLoop c f).log = s.log := rfl
@[simp] theorem modLoop_safe (s : State) (c : Ch) (f : LoopU → LoopU) : (s.modLoop c f).safe = s.safe := rfl
@[simp] theorem modLoop_svc (s : State) (c : Ch) (f : LoopU → LoopU) : (s.modLoop c f).svc = s.svc := rfl
@[simp] theorem modLoop_hk (s : State) (c : Ch) (f : LoopU → LoopU) : (s.modLoop c f).hk = s.hk := rfl
@[simp] theorem modLoop_boot (s : State) (c : Ch) (f : LoopU → LoopU) : (s.modLoop c f).boot = s.boot := rfl
@[simp] theorem modLoop_fuse (s : State) (c : Ch) (f : LoopU → LoopU) : (s.modLoop c f).fuse = s.fuse := rfl
@[simp] theorem modLoop_bank (s : State) (c : Ch) (f : LoopU → LoopU) : (s.modLoop c f).bank = s.bank := rfl
@[simp] theorem modLoop_damper (s : State) (c : Ch) (f : LoopU → LoopU) : (s.modLoop c f).damper = s.damper := rfl
@[simp] theorem modLoop_outs (s : State) (c : Ch) (f : LoopU → LoopU) : (s.modLoop c f).outs = s.outs := rfl
@[simp] theorem modLoop_pending (s : State) (c : Ch) (f : LoopU → LoopU) : (s.modLoop c f).pending = s.pending := rfl

/-! modTrace changes trace alone. -/

@[simp] theorem modTrace_regs (s : State) (c : Ch) (f : TraceU → TraceU) : (s.modTrace c f).regs = s.regs := rfl
@[simp] theorem modTrace_sram (s : State) (c : Ch) (f : TraceU → TraceU) : (s.modTrace c f).sram = s.sram := rfl
@[simp] theorem modTrace_bad (s : State) (c : Ch) (f : TraceU → TraceU) : (s.modTrace c f).bad = s.bad := rfl
@[simp] theorem modTrace_now (s : State) (c : Ch) (f : TraceU → TraceU) : (s.modTrace c f).now = s.now := rfl
@[simp] theorem modTrace_free (s : State) (c : Ch) (f : TraceU → TraceU) : (s.modTrace c f).free = s.free := rfl
@[simp] theorem modTrace_clk (s : State) (c : Ch) (f : TraceU → TraceU) : (s.modTrace c f).clk = s.clk := rfl
@[simp] theorem modTrace_staged (s : State) (c : Ch) (f : TraceU → TraceU) : (s.modTrace c f).staged = s.staged := rfl
@[simp] theorem modTrace_time (s : State) (c : Ch) (f : TraceU → TraceU) : (s.modTrace c f).time = s.time := rfl
@[simp] theorem modTrace_gang (s : State) (c : Ch) (f : TraceU → TraceU) : (s.modTrace c f).gang = s.gang := rfl
@[simp] theorem modTrace_eng (s : State) (c : Ch) (f : TraceU → TraceU) : (s.modTrace c f).eng = s.eng := rfl
@[simp] theorem modTrace_ch (s : State) (c : Ch) (f : TraceU → TraceU) : (s.modTrace c f).ch = s.ch := rfl
@[simp] theorem modTrace_loadQ (s : State) (c : Ch) (f : TraceU → TraceU) : (s.modTrace c f).loadQ = s.loadQ := rfl
@[simp] theorem modTrace_spare (s : State) (c : Ch) (f : TraceU → TraceU) : (s.modTrace c f).spare = s.spare := rfl
@[simp] theorem modTrace_vec (s : State) (c : Ch) (f : TraceU → TraceU) : (s.modTrace c f).vec = s.vec := rfl
@[simp] theorem modTrace_sync (s : State) (c : Ch) (f : TraceU → TraceU) : (s.modTrace c f).sync = s.sync := rfl
@[simp] theorem modTrace_ta (s : State) (c : Ch) (f : TraceU → TraceU) : (s.modTrace c f).ta = s.ta := rfl
@[simp] theorem modTrace_sv (s : State) (c : Ch) (f : TraceU → TraceU) : (s.modTrace c f).sv = s.sv := rfl
@[simp] theorem modTrace_gridQ (s : State) (c : Ch) (f : TraceU → TraceU) : (s.modTrace c f).gridQ = s.gridQ := rfl
@[simp] theorem modTrace_las (s : State) (c : Ch) (f : TraceU → TraceU) : (s.modTrace c f).las = s.las := rfl
@[simp] theorem modTrace_lsafe (s : State) (c : Ch) (f : TraceU → TraceU) : (s.modTrace c f).lsafe = s.lsafe := rfl
@[simp] theorem modTrace_loop (s : State) (c : Ch) (f : TraceU → TraceU) : (s.modTrace c f).loop = s.loop := rfl
@[simp] theorem modTrace_camTr (s : State) (c : Ch) (f : TraceU → TraceU) : (s.modTrace c f).camTr = s.camTr := rfl
@[simp] theorem modTrace_em (s : State) (c : Ch) (f : TraceU → TraceU) : (s.modTrace c f).em = s.em := rfl
@[simp] theorem modTrace_gd (s : State) (c : Ch) (f : TraceU → TraceU) : (s.modTrace c f).gd = s.gd := rfl
@[simp] theorem modTrace_gm (s : State) (c : Ch) (f : TraceU → TraceU) : (s.modTrace c f).gm = s.gm := rfl
@[simp] theorem modTrace_cam (s : State) (c : Ch) (f : TraceU → TraceU) : (s.modTrace c f).cam = s.cam := rfl
@[simp] theorem modTrace_cal (s : State) (c : Ch) (f : TraceU → TraceU) : (s.modTrace c f).cal = s.cal := rfl
@[simp] theorem modTrace_camEst (s : State) (c : Ch) (f : TraceU → TraceU) : (s.modTrace c f).camEst = s.camEst := rfl
@[simp] theorem modTrace_pool (s : State) (c : Ch) (f : TraceU → TraceU) : (s.modTrace c f).pool = s.pool := rfl
@[simp] theorem modTrace_cl (s : State) (c : Ch) (f : TraceU → TraceU) : (s.modTrace c f).cl = s.cl := rfl
@[simp] theorem modTrace_ma (s : State) (c : Ch) (f : TraceU → TraceU) : (s.modTrace c f).ma = s.ma := rfl
@[simp] theorem modTrace_prb (s : State) (c : Ch) (f : TraceU → TraceU) : (s.modTrace c f).prb = s.prb := rfl
@[simp] theorem modTrace_ill (s : State) (c : Ch) (f : TraceU → TraceU) : (s.modTrace c f).ill = s.ill := rfl
@[simp] theorem modTrace_tags (s : State) (c : Ch) (f : TraceU → TraceU) : (s.modTrace c f).tags = s.tags := rfl
@[simp] theorem modTrace_lanes (s : State) (c : Ch) (f : TraceU → TraceU) : (s.modTrace c f).lanes = s.lanes := rfl
@[simp] theorem modTrace_rings (s : State) (c : Ch) (f : TraceU → TraceU) : (s.modTrace c f).rings = s.rings := rfl
@[simp] theorem modTrace_mcmd (s : State) (c : Ch) (f : TraceU → TraceU) : (s.modTrace c f).mcmd = s.mcmd := rfl
@[simp] theorem modTrace_link (s : State) (c : Ch) (f : TraceU → TraceU) : (s.modTrace c f).link = s.link := rfl
@[simp] theorem modTrace_ints (s : State) (c : Ch) (f : TraceU → TraceU) : (s.modTrace c f).ints = s.ints := rfl
@[simp] theorem modTrace_evt (s : State) (c : Ch) (f : TraceU → TraceU) : (s.modTrace c f).evt = s.evt := rfl
@[simp] theorem modTrace_log (s : State) (c : Ch) (f : TraceU → TraceU) : (s.modTrace c f).log = s.log := rfl
@[simp] theorem modTrace_safe (s : State) (c : Ch) (f : TraceU → TraceU) : (s.modTrace c f).safe = s.safe := rfl
@[simp] theorem modTrace_svc (s : State) (c : Ch) (f : TraceU → TraceU) : (s.modTrace c f).svc = s.svc := rfl
@[simp] theorem modTrace_hk (s : State) (c : Ch) (f : TraceU → TraceU) : (s.modTrace c f).hk = s.hk := rfl
@[simp] theorem modTrace_boot (s : State) (c : Ch) (f : TraceU → TraceU) : (s.modTrace c f).boot = s.boot := rfl
@[simp] theorem modTrace_fuse (s : State) (c : Ch) (f : TraceU → TraceU) : (s.modTrace c f).fuse = s.fuse := rfl
@[simp] theorem modTrace_bank (s : State) (c : Ch) (f : TraceU → TraceU) : (s.modTrace c f).bank = s.bank := rfl
@[simp] theorem modTrace_damper (s : State) (c : Ch) (f : TraceU → TraceU) : (s.modTrace c f).damper = s.damper := rfl
@[simp] theorem modTrace_outs (s : State) (c : Ch) (f : TraceU → TraceU) : (s.modTrace c f).outs = s.outs := rfl
@[simp] theorem modTrace_pending (s : State) (c : Ch) (f : TraceU → TraceU) : (s.modTrace c f).pending = s.pending := rfl

/-! modCl changes cl alone. -/

@[simp] theorem modCl_regs (s : State) (k : Cl) (f : Cluster → Cluster) : (s.modCl k f).regs = s.regs := rfl
@[simp] theorem modCl_sram (s : State) (k : Cl) (f : Cluster → Cluster) : (s.modCl k f).sram = s.sram := rfl
@[simp] theorem modCl_bad (s : State) (k : Cl) (f : Cluster → Cluster) : (s.modCl k f).bad = s.bad := rfl
@[simp] theorem modCl_now (s : State) (k : Cl) (f : Cluster → Cluster) : (s.modCl k f).now = s.now := rfl
@[simp] theorem modCl_free (s : State) (k : Cl) (f : Cluster → Cluster) : (s.modCl k f).free = s.free := rfl
@[simp] theorem modCl_clk (s : State) (k : Cl) (f : Cluster → Cluster) : (s.modCl k f).clk = s.clk := rfl
@[simp] theorem modCl_staged (s : State) (k : Cl) (f : Cluster → Cluster) : (s.modCl k f).staged = s.staged := rfl
@[simp] theorem modCl_time (s : State) (k : Cl) (f : Cluster → Cluster) : (s.modCl k f).time = s.time := rfl
@[simp] theorem modCl_gang (s : State) (k : Cl) (f : Cluster → Cluster) : (s.modCl k f).gang = s.gang := rfl
@[simp] theorem modCl_eng (s : State) (k : Cl) (f : Cluster → Cluster) : (s.modCl k f).eng = s.eng := rfl
@[simp] theorem modCl_ch (s : State) (k : Cl) (f : Cluster → Cluster) : (s.modCl k f).ch = s.ch := rfl
@[simp] theorem modCl_loadQ (s : State) (k : Cl) (f : Cluster → Cluster) : (s.modCl k f).loadQ = s.loadQ := rfl
@[simp] theorem modCl_spare (s : State) (k : Cl) (f : Cluster → Cluster) : (s.modCl k f).spare = s.spare := rfl
@[simp] theorem modCl_vec (s : State) (k : Cl) (f : Cluster → Cluster) : (s.modCl k f).vec = s.vec := rfl
@[simp] theorem modCl_sync (s : State) (k : Cl) (f : Cluster → Cluster) : (s.modCl k f).sync = s.sync := rfl
@[simp] theorem modCl_ta (s : State) (k : Cl) (f : Cluster → Cluster) : (s.modCl k f).ta = s.ta := rfl
@[simp] theorem modCl_sv (s : State) (k : Cl) (f : Cluster → Cluster) : (s.modCl k f).sv = s.sv := rfl
@[simp] theorem modCl_gridQ (s : State) (k : Cl) (f : Cluster → Cluster) : (s.modCl k f).gridQ = s.gridQ := rfl
@[simp] theorem modCl_las (s : State) (k : Cl) (f : Cluster → Cluster) : (s.modCl k f).las = s.las := rfl
@[simp] theorem modCl_lsafe (s : State) (k : Cl) (f : Cluster → Cluster) : (s.modCl k f).lsafe = s.lsafe := rfl
@[simp] theorem modCl_loop (s : State) (k : Cl) (f : Cluster → Cluster) : (s.modCl k f).loop = s.loop := rfl
@[simp] theorem modCl_trace (s : State) (k : Cl) (f : Cluster → Cluster) : (s.modCl k f).trace = s.trace := rfl
@[simp] theorem modCl_camTr (s : State) (k : Cl) (f : Cluster → Cluster) : (s.modCl k f).camTr = s.camTr := rfl
@[simp] theorem modCl_em (s : State) (k : Cl) (f : Cluster → Cluster) : (s.modCl k f).em = s.em := rfl
@[simp] theorem modCl_gd (s : State) (k : Cl) (f : Cluster → Cluster) : (s.modCl k f).gd = s.gd := rfl
@[simp] theorem modCl_gm (s : State) (k : Cl) (f : Cluster → Cluster) : (s.modCl k f).gm = s.gm := rfl
@[simp] theorem modCl_cam (s : State) (k : Cl) (f : Cluster → Cluster) : (s.modCl k f).cam = s.cam := rfl
@[simp] theorem modCl_cal (s : State) (k : Cl) (f : Cluster → Cluster) : (s.modCl k f).cal = s.cal := rfl
@[simp] theorem modCl_camEst (s : State) (k : Cl) (f : Cluster → Cluster) : (s.modCl k f).camEst = s.camEst := rfl
@[simp] theorem modCl_pool (s : State) (k : Cl) (f : Cluster → Cluster) : (s.modCl k f).pool = s.pool := rfl
@[simp] theorem modCl_ma (s : State) (k : Cl) (f : Cluster → Cluster) : (s.modCl k f).ma = s.ma := rfl
@[simp] theorem modCl_prb (s : State) (k : Cl) (f : Cluster → Cluster) : (s.modCl k f).prb = s.prb := rfl
@[simp] theorem modCl_ill (s : State) (k : Cl) (f : Cluster → Cluster) : (s.modCl k f).ill = s.ill := rfl
@[simp] theorem modCl_tags (s : State) (k : Cl) (f : Cluster → Cluster) : (s.modCl k f).tags = s.tags := rfl
@[simp] theorem modCl_lanes (s : State) (k : Cl) (f : Cluster → Cluster) : (s.modCl k f).lanes = s.lanes := rfl
@[simp] theorem modCl_rings (s : State) (k : Cl) (f : Cluster → Cluster) : (s.modCl k f).rings = s.rings := rfl
@[simp] theorem modCl_mcmd (s : State) (k : Cl) (f : Cluster → Cluster) : (s.modCl k f).mcmd = s.mcmd := rfl
@[simp] theorem modCl_link (s : State) (k : Cl) (f : Cluster → Cluster) : (s.modCl k f).link = s.link := rfl
@[simp] theorem modCl_ints (s : State) (k : Cl) (f : Cluster → Cluster) : (s.modCl k f).ints = s.ints := rfl
@[simp] theorem modCl_evt (s : State) (k : Cl) (f : Cluster → Cluster) : (s.modCl k f).evt = s.evt := rfl
@[simp] theorem modCl_log (s : State) (k : Cl) (f : Cluster → Cluster) : (s.modCl k f).log = s.log := rfl
@[simp] theorem modCl_safe (s : State) (k : Cl) (f : Cluster → Cluster) : (s.modCl k f).safe = s.safe := rfl
@[simp] theorem modCl_svc (s : State) (k : Cl) (f : Cluster → Cluster) : (s.modCl k f).svc = s.svc := rfl
@[simp] theorem modCl_hk (s : State) (k : Cl) (f : Cluster → Cluster) : (s.modCl k f).hk = s.hk := rfl
@[simp] theorem modCl_boot (s : State) (k : Cl) (f : Cluster → Cluster) : (s.modCl k f).boot = s.boot := rfl
@[simp] theorem modCl_fuse (s : State) (k : Cl) (f : Cluster → Cluster) : (s.modCl k f).fuse = s.fuse := rfl
@[simp] theorem modCl_bank (s : State) (k : Cl) (f : Cluster → Cluster) : (s.modCl k f).bank = s.bank := rfl
@[simp] theorem modCl_damper (s : State) (k : Cl) (f : Cluster → Cluster) : (s.modCl k f).damper = s.damper := rfl
@[simp] theorem modCl_outs (s : State) (k : Cl) (f : Cluster → Cluster) : (s.modCl k f).outs = s.outs := rfl
@[simp] theorem modCl_pending (s : State) (k : Cl) (f : Cluster → Cluster) : (s.modCl k f).pending = s.pending := rfl

/-! modRing changes rings alone. -/

@[simp] theorem modRing_regs (s : State) (r : Ring) (f : RingU → RingU) : (s.modRing r f).regs = s.regs := rfl
@[simp] theorem modRing_sram (s : State) (r : Ring) (f : RingU → RingU) : (s.modRing r f).sram = s.sram := rfl
@[simp] theorem modRing_bad (s : State) (r : Ring) (f : RingU → RingU) : (s.modRing r f).bad = s.bad := rfl
@[simp] theorem modRing_now (s : State) (r : Ring) (f : RingU → RingU) : (s.modRing r f).now = s.now := rfl
@[simp] theorem modRing_free (s : State) (r : Ring) (f : RingU → RingU) : (s.modRing r f).free = s.free := rfl
@[simp] theorem modRing_clk (s : State) (r : Ring) (f : RingU → RingU) : (s.modRing r f).clk = s.clk := rfl
@[simp] theorem modRing_staged (s : State) (r : Ring) (f : RingU → RingU) : (s.modRing r f).staged = s.staged := rfl
@[simp] theorem modRing_time (s : State) (r : Ring) (f : RingU → RingU) : (s.modRing r f).time = s.time := rfl
@[simp] theorem modRing_gang (s : State) (r : Ring) (f : RingU → RingU) : (s.modRing r f).gang = s.gang := rfl
@[simp] theorem modRing_eng (s : State) (r : Ring) (f : RingU → RingU) : (s.modRing r f).eng = s.eng := rfl
@[simp] theorem modRing_ch (s : State) (r : Ring) (f : RingU → RingU) : (s.modRing r f).ch = s.ch := rfl
@[simp] theorem modRing_loadQ (s : State) (r : Ring) (f : RingU → RingU) : (s.modRing r f).loadQ = s.loadQ := rfl
@[simp] theorem modRing_spare (s : State) (r : Ring) (f : RingU → RingU) : (s.modRing r f).spare = s.spare := rfl
@[simp] theorem modRing_vec (s : State) (r : Ring) (f : RingU → RingU) : (s.modRing r f).vec = s.vec := rfl
@[simp] theorem modRing_sync (s : State) (r : Ring) (f : RingU → RingU) : (s.modRing r f).sync = s.sync := rfl
@[simp] theorem modRing_ta (s : State) (r : Ring) (f : RingU → RingU) : (s.modRing r f).ta = s.ta := rfl
@[simp] theorem modRing_sv (s : State) (r : Ring) (f : RingU → RingU) : (s.modRing r f).sv = s.sv := rfl
@[simp] theorem modRing_gridQ (s : State) (r : Ring) (f : RingU → RingU) : (s.modRing r f).gridQ = s.gridQ := rfl
@[simp] theorem modRing_las (s : State) (r : Ring) (f : RingU → RingU) : (s.modRing r f).las = s.las := rfl
@[simp] theorem modRing_lsafe (s : State) (r : Ring) (f : RingU → RingU) : (s.modRing r f).lsafe = s.lsafe := rfl
@[simp] theorem modRing_loop (s : State) (r : Ring) (f : RingU → RingU) : (s.modRing r f).loop = s.loop := rfl
@[simp] theorem modRing_trace (s : State) (r : Ring) (f : RingU → RingU) : (s.modRing r f).trace = s.trace := rfl
@[simp] theorem modRing_camTr (s : State) (r : Ring) (f : RingU → RingU) : (s.modRing r f).camTr = s.camTr := rfl
@[simp] theorem modRing_em (s : State) (r : Ring) (f : RingU → RingU) : (s.modRing r f).em = s.em := rfl
@[simp] theorem modRing_gd (s : State) (r : Ring) (f : RingU → RingU) : (s.modRing r f).gd = s.gd := rfl
@[simp] theorem modRing_gm (s : State) (r : Ring) (f : RingU → RingU) : (s.modRing r f).gm = s.gm := rfl
@[simp] theorem modRing_cam (s : State) (r : Ring) (f : RingU → RingU) : (s.modRing r f).cam = s.cam := rfl
@[simp] theorem modRing_cal (s : State) (r : Ring) (f : RingU → RingU) : (s.modRing r f).cal = s.cal := rfl
@[simp] theorem modRing_camEst (s : State) (r : Ring) (f : RingU → RingU) : (s.modRing r f).camEst = s.camEst := rfl
@[simp] theorem modRing_pool (s : State) (r : Ring) (f : RingU → RingU) : (s.modRing r f).pool = s.pool := rfl
@[simp] theorem modRing_cl (s : State) (r : Ring) (f : RingU → RingU) : (s.modRing r f).cl = s.cl := rfl
@[simp] theorem modRing_ma (s : State) (r : Ring) (f : RingU → RingU) : (s.modRing r f).ma = s.ma := rfl
@[simp] theorem modRing_prb (s : State) (r : Ring) (f : RingU → RingU) : (s.modRing r f).prb = s.prb := rfl
@[simp] theorem modRing_ill (s : State) (r : Ring) (f : RingU → RingU) : (s.modRing r f).ill = s.ill := rfl
@[simp] theorem modRing_tags (s : State) (r : Ring) (f : RingU → RingU) : (s.modRing r f).tags = s.tags := rfl
@[simp] theorem modRing_lanes (s : State) (r : Ring) (f : RingU → RingU) : (s.modRing r f).lanes = s.lanes := rfl
@[simp] theorem modRing_mcmd (s : State) (r : Ring) (f : RingU → RingU) : (s.modRing r f).mcmd = s.mcmd := rfl
@[simp] theorem modRing_link (s : State) (r : Ring) (f : RingU → RingU) : (s.modRing r f).link = s.link := rfl
@[simp] theorem modRing_ints (s : State) (r : Ring) (f : RingU → RingU) : (s.modRing r f).ints = s.ints := rfl
@[simp] theorem modRing_evt (s : State) (r : Ring) (f : RingU → RingU) : (s.modRing r f).evt = s.evt := rfl
@[simp] theorem modRing_log (s : State) (r : Ring) (f : RingU → RingU) : (s.modRing r f).log = s.log := rfl
@[simp] theorem modRing_safe (s : State) (r : Ring) (f : RingU → RingU) : (s.modRing r f).safe = s.safe := rfl
@[simp] theorem modRing_svc (s : State) (r : Ring) (f : RingU → RingU) : (s.modRing r f).svc = s.svc := rfl
@[simp] theorem modRing_hk (s : State) (r : Ring) (f : RingU → RingU) : (s.modRing r f).hk = s.hk := rfl
@[simp] theorem modRing_boot (s : State) (r : Ring) (f : RingU → RingU) : (s.modRing r f).boot = s.boot := rfl
@[simp] theorem modRing_fuse (s : State) (r : Ring) (f : RingU → RingU) : (s.modRing r f).fuse = s.fuse := rfl
@[simp] theorem modRing_bank (s : State) (r : Ring) (f : RingU → RingU) : (s.modRing r f).bank = s.bank := rfl
@[simp] theorem modRing_damper (s : State) (r : Ring) (f : RingU → RingU) : (s.modRing r f).damper = s.damper := rfl
@[simp] theorem modRing_outs (s : State) (r : Ring) (f : RingU → RingU) : (s.modRing r f).outs = s.outs := rfl
@[simp] theorem modRing_pending (s : State) (r : Ring) (f : RingU → RingU) : (s.modRing r f).pending = s.pending := rfl

/-! modEng changes eng alone. -/

@[simp] theorem modEng_regs (s : State) (e : Fin 28) (f : Core → Core) : (s.modEng e f).regs = s.regs := rfl
@[simp] theorem modEng_sram (s : State) (e : Fin 28) (f : Core → Core) : (s.modEng e f).sram = s.sram := rfl
@[simp] theorem modEng_bad (s : State) (e : Fin 28) (f : Core → Core) : (s.modEng e f).bad = s.bad := rfl
@[simp] theorem modEng_now (s : State) (e : Fin 28) (f : Core → Core) : (s.modEng e f).now = s.now := rfl
@[simp] theorem modEng_free (s : State) (e : Fin 28) (f : Core → Core) : (s.modEng e f).free = s.free := rfl
@[simp] theorem modEng_clk (s : State) (e : Fin 28) (f : Core → Core) : (s.modEng e f).clk = s.clk := rfl
@[simp] theorem modEng_staged (s : State) (e : Fin 28) (f : Core → Core) : (s.modEng e f).staged = s.staged := rfl
@[simp] theorem modEng_time (s : State) (e : Fin 28) (f : Core → Core) : (s.modEng e f).time = s.time := rfl
@[simp] theorem modEng_gang (s : State) (e : Fin 28) (f : Core → Core) : (s.modEng e f).gang = s.gang := rfl
@[simp] theorem modEng_ch (s : State) (e : Fin 28) (f : Core → Core) : (s.modEng e f).ch = s.ch := rfl
@[simp] theorem modEng_loadQ (s : State) (e : Fin 28) (f : Core → Core) : (s.modEng e f).loadQ = s.loadQ := rfl
@[simp] theorem modEng_spare (s : State) (e : Fin 28) (f : Core → Core) : (s.modEng e f).spare = s.spare := rfl
@[simp] theorem modEng_vec (s : State) (e : Fin 28) (f : Core → Core) : (s.modEng e f).vec = s.vec := rfl
@[simp] theorem modEng_sync (s : State) (e : Fin 28) (f : Core → Core) : (s.modEng e f).sync = s.sync := rfl
@[simp] theorem modEng_ta (s : State) (e : Fin 28) (f : Core → Core) : (s.modEng e f).ta = s.ta := rfl
@[simp] theorem modEng_sv (s : State) (e : Fin 28) (f : Core → Core) : (s.modEng e f).sv = s.sv := rfl
@[simp] theorem modEng_gridQ (s : State) (e : Fin 28) (f : Core → Core) : (s.modEng e f).gridQ = s.gridQ := rfl
@[simp] theorem modEng_las (s : State) (e : Fin 28) (f : Core → Core) : (s.modEng e f).las = s.las := rfl
@[simp] theorem modEng_lsafe (s : State) (e : Fin 28) (f : Core → Core) : (s.modEng e f).lsafe = s.lsafe := rfl
@[simp] theorem modEng_loop (s : State) (e : Fin 28) (f : Core → Core) : (s.modEng e f).loop = s.loop := rfl
@[simp] theorem modEng_trace (s : State) (e : Fin 28) (f : Core → Core) : (s.modEng e f).trace = s.trace := rfl
@[simp] theorem modEng_camTr (s : State) (e : Fin 28) (f : Core → Core) : (s.modEng e f).camTr = s.camTr := rfl
@[simp] theorem modEng_em (s : State) (e : Fin 28) (f : Core → Core) : (s.modEng e f).em = s.em := rfl
@[simp] theorem modEng_gd (s : State) (e : Fin 28) (f : Core → Core) : (s.modEng e f).gd = s.gd := rfl
@[simp] theorem modEng_gm (s : State) (e : Fin 28) (f : Core → Core) : (s.modEng e f).gm = s.gm := rfl
@[simp] theorem modEng_cam (s : State) (e : Fin 28) (f : Core → Core) : (s.modEng e f).cam = s.cam := rfl
@[simp] theorem modEng_cal (s : State) (e : Fin 28) (f : Core → Core) : (s.modEng e f).cal = s.cal := rfl
@[simp] theorem modEng_camEst (s : State) (e : Fin 28) (f : Core → Core) : (s.modEng e f).camEst = s.camEst := rfl
@[simp] theorem modEng_pool (s : State) (e : Fin 28) (f : Core → Core) : (s.modEng e f).pool = s.pool := rfl
@[simp] theorem modEng_cl (s : State) (e : Fin 28) (f : Core → Core) : (s.modEng e f).cl = s.cl := rfl
@[simp] theorem modEng_ma (s : State) (e : Fin 28) (f : Core → Core) : (s.modEng e f).ma = s.ma := rfl
@[simp] theorem modEng_prb (s : State) (e : Fin 28) (f : Core → Core) : (s.modEng e f).prb = s.prb := rfl
@[simp] theorem modEng_ill (s : State) (e : Fin 28) (f : Core → Core) : (s.modEng e f).ill = s.ill := rfl
@[simp] theorem modEng_tags (s : State) (e : Fin 28) (f : Core → Core) : (s.modEng e f).tags = s.tags := rfl
@[simp] theorem modEng_lanes (s : State) (e : Fin 28) (f : Core → Core) : (s.modEng e f).lanes = s.lanes := rfl
@[simp] theorem modEng_rings (s : State) (e : Fin 28) (f : Core → Core) : (s.modEng e f).rings = s.rings := rfl
@[simp] theorem modEng_mcmd (s : State) (e : Fin 28) (f : Core → Core) : (s.modEng e f).mcmd = s.mcmd := rfl
@[simp] theorem modEng_link (s : State) (e : Fin 28) (f : Core → Core) : (s.modEng e f).link = s.link := rfl
@[simp] theorem modEng_ints (s : State) (e : Fin 28) (f : Core → Core) : (s.modEng e f).ints = s.ints := rfl
@[simp] theorem modEng_evt (s : State) (e : Fin 28) (f : Core → Core) : (s.modEng e f).evt = s.evt := rfl
@[simp] theorem modEng_log (s : State) (e : Fin 28) (f : Core → Core) : (s.modEng e f).log = s.log := rfl
@[simp] theorem modEng_safe (s : State) (e : Fin 28) (f : Core → Core) : (s.modEng e f).safe = s.safe := rfl
@[simp] theorem modEng_svc (s : State) (e : Fin 28) (f : Core → Core) : (s.modEng e f).svc = s.svc := rfl
@[simp] theorem modEng_hk (s : State) (e : Fin 28) (f : Core → Core) : (s.modEng e f).hk = s.hk := rfl
@[simp] theorem modEng_boot (s : State) (e : Fin 28) (f : Core → Core) : (s.modEng e f).boot = s.boot := rfl
@[simp] theorem modEng_fuse (s : State) (e : Fin 28) (f : Core → Core) : (s.modEng e f).fuse = s.fuse := rfl
@[simp] theorem modEng_bank (s : State) (e : Fin 28) (f : Core → Core) : (s.modEng e f).bank = s.bank := rfl
@[simp] theorem modEng_damper (s : State) (e : Fin 28) (f : Core → Core) : (s.modEng e f).damper = s.damper := rfl
@[simp] theorem modEng_outs (s : State) (e : Fin 28) (f : Core → Core) : (s.modEng e f).outs = s.outs := rfl
@[simp] theorem modEng_pending (s : State) (e : Fin 28) (f : Core → Core) : (s.modEng e f).pending = s.pending := rfl

/-! at_ changes now alone. -/

@[simp] theorem at_regs (s : State) (t : Nat) : (s.at_ t).regs = s.regs := rfl
@[simp] theorem at_sram (s : State) (t : Nat) : (s.at_ t).sram = s.sram := rfl
@[simp] theorem at_bad (s : State) (t : Nat) : (s.at_ t).bad = s.bad := rfl
@[simp] theorem at_free (s : State) (t : Nat) : (s.at_ t).free = s.free := rfl
@[simp] theorem at_clk (s : State) (t : Nat) : (s.at_ t).clk = s.clk := rfl
@[simp] theorem at_staged (s : State) (t : Nat) : (s.at_ t).staged = s.staged := rfl
@[simp] theorem at_time (s : State) (t : Nat) : (s.at_ t).time = s.time := rfl
@[simp] theorem at_gang (s : State) (t : Nat) : (s.at_ t).gang = s.gang := rfl
@[simp] theorem at_eng (s : State) (t : Nat) : (s.at_ t).eng = s.eng := rfl
@[simp] theorem at_ch (s : State) (t : Nat) : (s.at_ t).ch = s.ch := rfl
@[simp] theorem at_loadQ (s : State) (t : Nat) : (s.at_ t).loadQ = s.loadQ := rfl
@[simp] theorem at_spare (s : State) (t : Nat) : (s.at_ t).spare = s.spare := rfl
@[simp] theorem at_vec (s : State) (t : Nat) : (s.at_ t).vec = s.vec := rfl
@[simp] theorem at_sync (s : State) (t : Nat) : (s.at_ t).sync = s.sync := rfl
@[simp] theorem at_ta (s : State) (t : Nat) : (s.at_ t).ta = s.ta := rfl
@[simp] theorem at_sv (s : State) (t : Nat) : (s.at_ t).sv = s.sv := rfl
@[simp] theorem at_gridQ (s : State) (t : Nat) : (s.at_ t).gridQ = s.gridQ := rfl
@[simp] theorem at_las (s : State) (t : Nat) : (s.at_ t).las = s.las := rfl
@[simp] theorem at_lsafe (s : State) (t : Nat) : (s.at_ t).lsafe = s.lsafe := rfl
@[simp] theorem at_loop (s : State) (t : Nat) : (s.at_ t).loop = s.loop := rfl
@[simp] theorem at_trace (s : State) (t : Nat) : (s.at_ t).trace = s.trace := rfl
@[simp] theorem at_camTr (s : State) (t : Nat) : (s.at_ t).camTr = s.camTr := rfl
@[simp] theorem at_em (s : State) (t : Nat) : (s.at_ t).em = s.em := rfl
@[simp] theorem at_gd (s : State) (t : Nat) : (s.at_ t).gd = s.gd := rfl
@[simp] theorem at_gm (s : State) (t : Nat) : (s.at_ t).gm = s.gm := rfl
@[simp] theorem at_cam (s : State) (t : Nat) : (s.at_ t).cam = s.cam := rfl
@[simp] theorem at_cal (s : State) (t : Nat) : (s.at_ t).cal = s.cal := rfl
@[simp] theorem at_camEst (s : State) (t : Nat) : (s.at_ t).camEst = s.camEst := rfl
@[simp] theorem at_pool (s : State) (t : Nat) : (s.at_ t).pool = s.pool := rfl
@[simp] theorem at_cl (s : State) (t : Nat) : (s.at_ t).cl = s.cl := rfl
@[simp] theorem at_ma (s : State) (t : Nat) : (s.at_ t).ma = s.ma := rfl
@[simp] theorem at_prb (s : State) (t : Nat) : (s.at_ t).prb = s.prb := rfl
@[simp] theorem at_ill (s : State) (t : Nat) : (s.at_ t).ill = s.ill := rfl
@[simp] theorem at_tags (s : State) (t : Nat) : (s.at_ t).tags = s.tags := rfl
@[simp] theorem at_lanes (s : State) (t : Nat) : (s.at_ t).lanes = s.lanes := rfl
@[simp] theorem at_rings (s : State) (t : Nat) : (s.at_ t).rings = s.rings := rfl
@[simp] theorem at_mcmd (s : State) (t : Nat) : (s.at_ t).mcmd = s.mcmd := rfl
@[simp] theorem at_link (s : State) (t : Nat) : (s.at_ t).link = s.link := rfl
@[simp] theorem at_ints (s : State) (t : Nat) : (s.at_ t).ints = s.ints := rfl
@[simp] theorem at_evt (s : State) (t : Nat) : (s.at_ t).evt = s.evt := rfl
@[simp] theorem at_log (s : State) (t : Nat) : (s.at_ t).log = s.log := rfl
@[simp] theorem at_safe (s : State) (t : Nat) : (s.at_ t).safe = s.safe := rfl
@[simp] theorem at_svc (s : State) (t : Nat) : (s.at_ t).svc = s.svc := rfl
@[simp] theorem at_hk (s : State) (t : Nat) : (s.at_ t).hk = s.hk := rfl
@[simp] theorem at_boot (s : State) (t : Nat) : (s.at_ t).boot = s.boot := rfl
@[simp] theorem at_fuse (s : State) (t : Nat) : (s.at_ t).fuse = s.fuse := rfl
@[simp] theorem at_bank (s : State) (t : Nat) : (s.at_ t).bank = s.bank := rfl
@[simp] theorem at_damper (s : State) (t : Nat) : (s.at_ t).damper = s.damper := rfl
@[simp] theorem at_outs (s : State) (t : Nat) : (s.at_ t).outs = s.outs := rfl
@[simp] theorem at_pending (s : State) (t : Nat) : (s.at_ t).pending = s.pending := rfl

/-! out changes outs alone. -/

@[simp] theorem out_regs (s : State) (o : Out) : (s.out o).regs = s.regs := rfl
@[simp] theorem out_sram (s : State) (o : Out) : (s.out o).sram = s.sram := rfl
@[simp] theorem out_bad (s : State) (o : Out) : (s.out o).bad = s.bad := rfl
@[simp] theorem out_now (s : State) (o : Out) : (s.out o).now = s.now := rfl
@[simp] theorem out_free (s : State) (o : Out) : (s.out o).free = s.free := rfl
@[simp] theorem out_clk (s : State) (o : Out) : (s.out o).clk = s.clk := rfl
@[simp] theorem out_staged (s : State) (o : Out) : (s.out o).staged = s.staged := rfl
@[simp] theorem out_time (s : State) (o : Out) : (s.out o).time = s.time := rfl
@[simp] theorem out_gang (s : State) (o : Out) : (s.out o).gang = s.gang := rfl
@[simp] theorem out_eng (s : State) (o : Out) : (s.out o).eng = s.eng := rfl
@[simp] theorem out_ch (s : State) (o : Out) : (s.out o).ch = s.ch := rfl
@[simp] theorem out_loadQ (s : State) (o : Out) : (s.out o).loadQ = s.loadQ := rfl
@[simp] theorem out_spare (s : State) (o : Out) : (s.out o).spare = s.spare := rfl
@[simp] theorem out_vec (s : State) (o : Out) : (s.out o).vec = s.vec := rfl
@[simp] theorem out_sync (s : State) (o : Out) : (s.out o).sync = s.sync := rfl
@[simp] theorem out_ta (s : State) (o : Out) : (s.out o).ta = s.ta := rfl
@[simp] theorem out_sv (s : State) (o : Out) : (s.out o).sv = s.sv := rfl
@[simp] theorem out_gridQ (s : State) (o : Out) : (s.out o).gridQ = s.gridQ := rfl
@[simp] theorem out_las (s : State) (o : Out) : (s.out o).las = s.las := rfl
@[simp] theorem out_lsafe (s : State) (o : Out) : (s.out o).lsafe = s.lsafe := rfl
@[simp] theorem out_loop (s : State) (o : Out) : (s.out o).loop = s.loop := rfl
@[simp] theorem out_trace (s : State) (o : Out) : (s.out o).trace = s.trace := rfl
@[simp] theorem out_camTr (s : State) (o : Out) : (s.out o).camTr = s.camTr := rfl
@[simp] theorem out_em (s : State) (o : Out) : (s.out o).em = s.em := rfl
@[simp] theorem out_gd (s : State) (o : Out) : (s.out o).gd = s.gd := rfl
@[simp] theorem out_gm (s : State) (o : Out) : (s.out o).gm = s.gm := rfl
@[simp] theorem out_cam (s : State) (o : Out) : (s.out o).cam = s.cam := rfl
@[simp] theorem out_cal (s : State) (o : Out) : (s.out o).cal = s.cal := rfl
@[simp] theorem out_camEst (s : State) (o : Out) : (s.out o).camEst = s.camEst := rfl
@[simp] theorem out_pool (s : State) (o : Out) : (s.out o).pool = s.pool := rfl
@[simp] theorem out_cl (s : State) (o : Out) : (s.out o).cl = s.cl := rfl
@[simp] theorem out_ma (s : State) (o : Out) : (s.out o).ma = s.ma := rfl
@[simp] theorem out_prb (s : State) (o : Out) : (s.out o).prb = s.prb := rfl
@[simp] theorem out_ill (s : State) (o : Out) : (s.out o).ill = s.ill := rfl
@[simp] theorem out_tags (s : State) (o : Out) : (s.out o).tags = s.tags := rfl
@[simp] theorem out_lanes (s : State) (o : Out) : (s.out o).lanes = s.lanes := rfl
@[simp] theorem out_rings (s : State) (o : Out) : (s.out o).rings = s.rings := rfl
@[simp] theorem out_mcmd (s : State) (o : Out) : (s.out o).mcmd = s.mcmd := rfl
@[simp] theorem out_link (s : State) (o : Out) : (s.out o).link = s.link := rfl
@[simp] theorem out_ints (s : State) (o : Out) : (s.out o).ints = s.ints := rfl
@[simp] theorem out_evt (s : State) (o : Out) : (s.out o).evt = s.evt := rfl
@[simp] theorem out_log (s : State) (o : Out) : (s.out o).log = s.log := rfl
@[simp] theorem out_safe (s : State) (o : Out) : (s.out o).safe = s.safe := rfl
@[simp] theorem out_svc (s : State) (o : Out) : (s.out o).svc = s.svc := rfl
@[simp] theorem out_hk (s : State) (o : Out) : (s.out o).hk = s.hk := rfl
@[simp] theorem out_boot (s : State) (o : Out) : (s.out o).boot = s.boot := rfl
@[simp] theorem out_fuse (s : State) (o : Out) : (s.out o).fuse = s.fuse := rfl
@[simp] theorem out_bank (s : State) (o : Out) : (s.out o).bank = s.bank := rfl
@[simp] theorem out_damper (s : State) (o : Out) : (s.out o).damper = s.damper := rfl
@[simp] theorem out_pending (s : State) (o : Out) : (s.out o).pending = s.pending := rfl

/-! clkAdd changes clk alone. -/

@[simp] theorem clkAdd_regs (s : State) (a : Nat) (f : Word → Word) : (s.clkAdd a f).regs = s.regs := rfl
@[simp] theorem clkAdd_sram (s : State) (a : Nat) (f : Word → Word) : (s.clkAdd a f).sram = s.sram := rfl
@[simp] theorem clkAdd_bad (s : State) (a : Nat) (f : Word → Word) : (s.clkAdd a f).bad = s.bad := rfl
@[simp] theorem clkAdd_now (s : State) (a : Nat) (f : Word → Word) : (s.clkAdd a f).now = s.now := rfl
@[simp] theorem clkAdd_free (s : State) (a : Nat) (f : Word → Word) : (s.clkAdd a f).free = s.free := rfl
@[simp] theorem clkAdd_staged (s : State) (a : Nat) (f : Word → Word) : (s.clkAdd a f).staged = s.staged := rfl
@[simp] theorem clkAdd_time (s : State) (a : Nat) (f : Word → Word) : (s.clkAdd a f).time = s.time := rfl
@[simp] theorem clkAdd_gang (s : State) (a : Nat) (f : Word → Word) : (s.clkAdd a f).gang = s.gang := rfl
@[simp] theorem clkAdd_eng (s : State) (a : Nat) (f : Word → Word) : (s.clkAdd a f).eng = s.eng := rfl
@[simp] theorem clkAdd_ch (s : State) (a : Nat) (f : Word → Word) : (s.clkAdd a f).ch = s.ch := rfl
@[simp] theorem clkAdd_loadQ (s : State) (a : Nat) (f : Word → Word) : (s.clkAdd a f).loadQ = s.loadQ := rfl
@[simp] theorem clkAdd_spare (s : State) (a : Nat) (f : Word → Word) : (s.clkAdd a f).spare = s.spare := rfl
@[simp] theorem clkAdd_vec (s : State) (a : Nat) (f : Word → Word) : (s.clkAdd a f).vec = s.vec := rfl
@[simp] theorem clkAdd_sync (s : State) (a : Nat) (f : Word → Word) : (s.clkAdd a f).sync = s.sync := rfl
@[simp] theorem clkAdd_ta (s : State) (a : Nat) (f : Word → Word) : (s.clkAdd a f).ta = s.ta := rfl
@[simp] theorem clkAdd_sv (s : State) (a : Nat) (f : Word → Word) : (s.clkAdd a f).sv = s.sv := rfl
@[simp] theorem clkAdd_gridQ (s : State) (a : Nat) (f : Word → Word) : (s.clkAdd a f).gridQ = s.gridQ := rfl
@[simp] theorem clkAdd_las (s : State) (a : Nat) (f : Word → Word) : (s.clkAdd a f).las = s.las := rfl
@[simp] theorem clkAdd_lsafe (s : State) (a : Nat) (f : Word → Word) : (s.clkAdd a f).lsafe = s.lsafe := rfl
@[simp] theorem clkAdd_loop (s : State) (a : Nat) (f : Word → Word) : (s.clkAdd a f).loop = s.loop := rfl
@[simp] theorem clkAdd_trace (s : State) (a : Nat) (f : Word → Word) : (s.clkAdd a f).trace = s.trace := rfl
@[simp] theorem clkAdd_camTr (s : State) (a : Nat) (f : Word → Word) : (s.clkAdd a f).camTr = s.camTr := rfl
@[simp] theorem clkAdd_em (s : State) (a : Nat) (f : Word → Word) : (s.clkAdd a f).em = s.em := rfl
@[simp] theorem clkAdd_gd (s : State) (a : Nat) (f : Word → Word) : (s.clkAdd a f).gd = s.gd := rfl
@[simp] theorem clkAdd_gm (s : State) (a : Nat) (f : Word → Word) : (s.clkAdd a f).gm = s.gm := rfl
@[simp] theorem clkAdd_cam (s : State) (a : Nat) (f : Word → Word) : (s.clkAdd a f).cam = s.cam := rfl
@[simp] theorem clkAdd_cal (s : State) (a : Nat) (f : Word → Word) : (s.clkAdd a f).cal = s.cal := rfl
@[simp] theorem clkAdd_camEst (s : State) (a : Nat) (f : Word → Word) : (s.clkAdd a f).camEst = s.camEst := rfl
@[simp] theorem clkAdd_pool (s : State) (a : Nat) (f : Word → Word) : (s.clkAdd a f).pool = s.pool := rfl
@[simp] theorem clkAdd_cl (s : State) (a : Nat) (f : Word → Word) : (s.clkAdd a f).cl = s.cl := rfl
@[simp] theorem clkAdd_ma (s : State) (a : Nat) (f : Word → Word) : (s.clkAdd a f).ma = s.ma := rfl
@[simp] theorem clkAdd_prb (s : State) (a : Nat) (f : Word → Word) : (s.clkAdd a f).prb = s.prb := rfl
@[simp] theorem clkAdd_ill (s : State) (a : Nat) (f : Word → Word) : (s.clkAdd a f).ill = s.ill := rfl
@[simp] theorem clkAdd_tags (s : State) (a : Nat) (f : Word → Word) : (s.clkAdd a f).tags = s.tags := rfl
@[simp] theorem clkAdd_lanes (s : State) (a : Nat) (f : Word → Word) : (s.clkAdd a f).lanes = s.lanes := rfl
@[simp] theorem clkAdd_rings (s : State) (a : Nat) (f : Word → Word) : (s.clkAdd a f).rings = s.rings := rfl
@[simp] theorem clkAdd_mcmd (s : State) (a : Nat) (f : Word → Word) : (s.clkAdd a f).mcmd = s.mcmd := rfl
@[simp] theorem clkAdd_link (s : State) (a : Nat) (f : Word → Word) : (s.clkAdd a f).link = s.link := rfl
@[simp] theorem clkAdd_ints (s : State) (a : Nat) (f : Word → Word) : (s.clkAdd a f).ints = s.ints := rfl
@[simp] theorem clkAdd_evt (s : State) (a : Nat) (f : Word → Word) : (s.clkAdd a f).evt = s.evt := rfl
@[simp] theorem clkAdd_log (s : State) (a : Nat) (f : Word → Word) : (s.clkAdd a f).log = s.log := rfl
@[simp] theorem clkAdd_safe (s : State) (a : Nat) (f : Word → Word) : (s.clkAdd a f).safe = s.safe := rfl
@[simp] theorem clkAdd_svc (s : State) (a : Nat) (f : Word → Word) : (s.clkAdd a f).svc = s.svc := rfl
@[simp] theorem clkAdd_hk (s : State) (a : Nat) (f : Word → Word) : (s.clkAdd a f).hk = s.hk := rfl
@[simp] theorem clkAdd_boot (s : State) (a : Nat) (f : Word → Word) : (s.clkAdd a f).boot = s.boot := rfl
@[simp] theorem clkAdd_fuse (s : State) (a : Nat) (f : Word → Word) : (s.clkAdd a f).fuse = s.fuse := rfl
@[simp] theorem clkAdd_bank (s : State) (a : Nat) (f : Word → Word) : (s.clkAdd a f).bank = s.bank := rfl
@[simp] theorem clkAdd_damper (s : State) (a : Nat) (f : Word → Word) : (s.clkAdd a f).damper = s.damper := rfl
@[simp] theorem clkAdd_outs (s : State) (a : Nat) (f : Word → Word) : (s.clkAdd a f).outs = s.outs := rfl
@[simp] theorem clkAdd_pending (s : State) (a : Nat) (f : Word → Word) : (s.clkAdd a f).pending = s.pending := rfl

/-! The element that an update changes, and the others. -/

@[simp] theorem modCh_at (s : State) (c : Ch) (f : Chan → Chan) : (s.modCh c f).ch[c] = f s.ch[c] := by
  simp [State.modCh]
@[simp] theorem modCh_nth (s : State) (c : Ch) (f : Chan → Chan) : (s.modCh c f).ch[c.val] = f s.ch[c.val] := by
  simp [State.modCh]
theorem modCh_ne (s : State) {c x : Ch} (f : Chan → Chan) (h : x ≠ c) : (s.modCh c f).ch[x] = s.ch[x] := by
  have hv : c.val ≠ x.val := fun e => h (Fin.ext e.symm)
  simp [State.modCh, hv]
@[simp] theorem modVec_at (s : State) (c : Ch) (f : VecSt → VecSt) : (s.modVec c f).vec[c] = f s.vec[c] := by
  simp [State.modVec]
@[simp] theorem modVec_nth (s : State) (c : Ch) (f : VecSt → VecSt) : (s.modVec c f).vec[c.val] = f s.vec[c.val] := by
  simp [State.modVec]
theorem modVec_ne (s : State) {c x : Ch} (f : VecSt → VecSt) (h : x ≠ c) : (s.modVec c f).vec[x] = s.vec[x] := by
  have hv : c.val ≠ x.val := fun e => h (Fin.ext e.symm)
  simp [State.modVec, hv]
@[simp] theorem modSync_at (s : State) (c : Ch) (f : SyncSt → SyncSt) : (s.modSync c f).sync[c] = f s.sync[c] := by
  simp [State.modSync]
@[simp] theorem modSync_nth (s : State) (c : Ch) (f : SyncSt → SyncSt) : (s.modSync c f).sync[c.val] = f s.sync[c.val] := by
  simp [State.modSync]
theorem modSync_ne (s : State) {c x : Ch} (f : SyncSt → SyncSt) (h : x ≠ c) : (s.modSync c f).sync[x] = s.sync[x] := by
  have hv : c.val ≠ x.val := fun e => h (Fin.ext e.symm)
  simp [State.modSync, hv]
@[simp] theorem modSv_at (s : State) (c : Ch) (f : SvCh → SvCh) : (s.modSv c f).sv[c] = f s.sv[c] := by
  simp [State.modSv]
@[simp] theorem modSv_nth (s : State) (c : Ch) (f : SvCh → SvCh) : (s.modSv c f).sv[c.val] = f s.sv[c.val] := by
  simp [State.modSv]
theorem modSv_ne (s : State) {c x : Ch} (f : SvCh → SvCh) (h : x ≠ c) : (s.modSv c f).sv[x] = s.sv[x] := by
  have hv : c.val ≠ x.val := fun e => h (Fin.ext e.symm)
  simp [State.modSv, hv]
@[simp] theorem modLas_at (s : State) (c : Ch) (f : Las → Las) : (s.modLas c f).las[c] = f s.las[c] := by
  simp [State.modLas]
@[simp] theorem modLas_nth (s : State) (c : Ch) (f : Las → Las) : (s.modLas c f).las[c.val] = f s.las[c.val] := by
  simp [State.modLas]
theorem modLas_ne (s : State) {c x : Ch} (f : Las → Las) (h : x ≠ c) : (s.modLas c f).las[x] = s.las[x] := by
  have hv : c.val ≠ x.val := fun e => h (Fin.ext e.symm)
  simp [State.modLas, hv]
@[simp] theorem modLoop_at (s : State) (c : Ch) (f : LoopU → LoopU) : (s.modLoop c f).loop[c] = f s.loop[c] := by
  simp [State.modLoop]
@[simp] theorem modLoop_nth (s : State) (c : Ch) (f : LoopU → LoopU) : (s.modLoop c f).loop[c.val] = f s.loop[c.val] := by
  simp [State.modLoop]
theorem modLoop_ne (s : State) {c x : Ch} (f : LoopU → LoopU) (h : x ≠ c) : (s.modLoop c f).loop[x] = s.loop[x] := by
  have hv : c.val ≠ x.val := fun e => h (Fin.ext e.symm)
  simp [State.modLoop, hv]
@[simp] theorem modTrace_at (s : State) (c : Ch) (f : TraceU → TraceU) : (s.modTrace c f).trace[c] = f s.trace[c] := by
  simp [State.modTrace]
@[simp] theorem modTrace_nth (s : State) (c : Ch) (f : TraceU → TraceU) : (s.modTrace c f).trace[c.val] = f s.trace[c.val] := by
  simp [State.modTrace]
theorem modTrace_ne (s : State) {c x : Ch} (f : TraceU → TraceU) (h : x ≠ c) : (s.modTrace c f).trace[x] = s.trace[x] := by
  have hv : c.val ≠ x.val := fun e => h (Fin.ext e.symm)
  simp [State.modTrace, hv]
@[simp] theorem modCl_at (s : State) (c : Cl) (f : Cluster → Cluster) : (s.modCl c f).cl[c] = f s.cl[c] := by
  simp [State.modCl]
@[simp] theorem modCl_nth (s : State) (c : Cl) (f : Cluster → Cluster) : (s.modCl c f).cl[c.val] = f s.cl[c.val] := by
  simp [State.modCl]
theorem modCl_ne (s : State) {c x : Cl} (f : Cluster → Cluster) (h : x ≠ c) : (s.modCl c f).cl[x] = s.cl[x] := by
  have hv : c.val ≠ x.val := fun e => h (Fin.ext e.symm)
  simp [State.modCl, hv]
@[simp] theorem modRing_at (s : State) (c : Ring) (f : RingU → RingU) : (s.modRing c f).rings[c] = f s.rings[c] := by
  simp [State.modRing]
@[simp] theorem modRing_nth (s : State) (c : Ring) (f : RingU → RingU) : (s.modRing c f).rings[c.val] = f s.rings[c.val] := by
  simp [State.modRing]
theorem modRing_ne (s : State) {c x : Ring} (f : RingU → RingU) (h : x ≠ c) : (s.modRing c f).rings[x] = s.rings[x] := by
  have hv : c.val ≠ x.val := fun e => h (Fin.ext e.symm)
  simp [State.modRing, hv]
@[simp] theorem modEng_at (s : State) (c : Fin 28) (f : Core → Core) : (s.modEng c f).eng[c] = f s.eng[c] := by
  simp [State.modEng]
@[simp] theorem modEng_nth (s : State) (c : Fin 28) (f : Core → Core) : (s.modEng c f).eng[c.val] = f s.eng[c.val] := by
  simp [State.modEng]
theorem modEng_ne (s : State) {c x : Fin 28} (f : Core → Core) (h : x ≠ c) : (s.modEng c f).eng[x] = s.eng[x] := by
  have hv : c.val ≠ x.val := fun e => h (Fin.ext e.symm)
  simp [State.modEng, hv]

end Sys2Proof.Machine
end

