-- ==== Sys2Proof/Laws/Frames.lean ====
section
/-! SUPPORT. What the shared announcements do: log entries, interrupts, records and event lines touch the log, the rings, the interrupts, counters and the lines, and nothing else. -/

namespace Sys2Proof.Machine
open Sys2Proof

/-- `u` is `s` but for what announces: the log and its chain, interrupts, rings, what has left the device, registers and the notes of the clock. -/
def Notes (s u : State) : Prop :=
  u = { s with regs := u.regs, log := u.log, bank := u.bank, ints := u.ints, outs := u.outs, rings := u.rings, clk := u.clk }

/-- Nothing announced. -/
theorem Notes.refl (s : State) : Notes s s := rfl
/-- One announcement after another. -/
theorem Notes.trans {a b c : State} (h : Notes a b) (k : Notes b c) : Notes a c := by
  unfold Notes at *
  rw [h] at k
  exact k

/-- The same, the later first. -/
theorem Notes.after {a b c : State} (k : Notes b c) (h : Notes a b) : Notes a c := h.trans k

theorem setReg_notes (s : State) (a : Nat) (v : Word) : Notes s (s.setReg a v) := rfl
theorem event_notes (s : State) (a : Nat) (f : Word → Word) : Notes s (s.event a f) := rfl
theorem setBits_notes (s : State) (a : Nat) (v : Word) : Notes s (s.setBits a v) := rfl
theorem addCnt_notes (s : State) (a n : Nat) : Notes s (s.addCnt a n) := rfl
theorem bump_notes (s : State) (a : Nat) : Notes s (s.bump a) := rfl
theorem modRing_notes (s : State) (r : Ring) (f : RingU → RingU) : Notes s (s.modRing r f) := rfl
theorem out_notes (s : State) (x : Out) : Notes s (s.out x) := rfl
theorem sendVec_notes (s : State) (v : Nat) : Notes s (s.sendVec v) := by
  unfold State.sendVec
  split <;> rfl
theorem raiseSrc_notes (s : State) (v : Nat) : Notes s (s.raiseSrc v) := by
  unfold State.raiseSrc
  dsimp only
  split
  · rfl
  · split
    · rfl
    · split
      · rfl
      · exact Notes.after (sendVec_notes _ _) rfl
theorem ringAdvanceN_notes (s : State) (r : Ring) (n : Nat) : Notes s (s.ringAdvanceN r n) := by
  unfold State.ringAdvanceN
  dsimp only
  have h : ∀ x : State, Notes s x → ∀ (f g : RingU → RingU) (p : Prop) [Decidable p],
      Notes s (if p then ((x.modRing r f).modRing r g).raiseSrc r.val else x.modRing r f) := by
    intro x hx f g p _
    split
    · exact Notes.after (raiseSrc_notes _ _) (Notes.trans hx (Notes.trans (modRing_notes _ _ _) (modRing_notes _ _ _)))
    · exact Notes.trans hx (modRing_notes _ _ _)
  apply h
  split <;> rfl
theorem ringAdvance_notes (s : State) (r : Ring) : Notes s (s.ringAdvance r) := ringAdvanceN_notes s r 1
theorem ringDrop_notes (s : State) (r : Ring) : Notes s (s.ringDrop r) := rfl
theorem emitTo_notes (s : State) (r : Ring) (f : Bool → List Byte) : Notes s (s.emitTo r f) := by
  unfold State.emitTo
  dsimp only
  split
  · rfl
  · rfl
  · split
    · rfl
    · exact Notes.after (ringAdvance_notes _ _) rfl
theorem emitRole_notes (s : State) (a b : Nat) (f : Bool → List Byte) : Notes s (s.emitRole a b f) := by
  unfold State.emitRole
  split
  · rfl
  · exact emitTo_notes _ _ _
theorem raiseEv_notes (s : State) (a b c d : Nat) : Notes s (s.raiseEv a b c d) := (raiseSrc_notes _ _).trans (emitRole_notes _ _ _ _)
theorem chCause_notes (s : State) (c : Ch) (b : Nat) : Notes s (s.chCause c b) := (setBits_notes s _ _).trans (raiseSrc_notes _ _)
theorem logStore_notes (s : State) (e : LogEntry) : Notes s (s.logStore e) := by
  unfold State.logStore
  split
  · rfl
  · dsimp only
    split
    · exact Notes.after (raiseEv_notes _ _ _ _ _) rfl
    · rfl
theorem logPush_notes (s : State) (org : Origin) (sup : Bool) (obj kind : Nat) (old new : Word) : Notes s (s.logPush org sup obj kind old new) := by
  unfold State.logPush
  split
  · rfl
  · dsimp only
    split
    · rfl
    · exact logStore_notes _ _
theorem logEvent_notes (s : State) (a b c d e : Nat) : Notes s (s.logEvent a b c d e) := logPush_notes _ _ _ _ _ _ _
theorem logExt_notes (s : State) (org : Origin) (obj : Nat) (l : List Word) : Notes s (s.logExt org obj l) := by
  fun_induction State.logExt s org obj l with
  | case1 s a b r ih => exact (logPush_notes _ _ _ _ _ _ _).trans ih
  | case2 s a => exact logPush_notes _ _ _ _ _ _ _
  | case3 s => rfl
theorem logRunBy_notes (s : State) (org : Origin) (k obj : Nat) (bs : List Byte) : Notes s (s.logRunBy org k obj bs) := by
  unfold State.logRunBy
  split
  · exact (logPush_notes _ _ _ _ _ _ _).trans (logExt_notes _ _ _ _)
  · rfl
theorem logRun_notes (s : State) (k obj : Nat) (bs : List Byte) : Notes s (s.logRun k obj bs) := logRunBy_notes _ _ _ _ _
theorem hwWriteK_notes (s : State) (k a : Nat) (v : Word) : Notes s (s.hwWriteK k a v) := Notes.after (logPush_notes _ _ _ _ _ _ _) rfl
theorem hwWrite_notes (s : State) (a : Nat) (v : Word) : Notes s (s.hwWrite a v) := hwWriteK_notes _ _ _ _
theorem ringChange_notes (s : State) (r : Ring) (f : RingU → RingU) : Notes s (s.ringChange r f) := Notes.after (logPush_notes _ _ _ _ _ _ _) rfl
theorem ringStop_notes (s : State) (r : Ring) (k : Nat) : Notes s (s.ringStop r k) := by
  unfold State.ringStop
  split
  · exact (ringChange_notes _ _ _).trans (raiseSrc_notes _ _)
  · rfl
theorem denyWith_notes (s : State) (org : Origin) (a : Nat) (x v : Word) : Notes s (s.denyWith org a x v) := by
  unfold State.denyWith
  have h : ∀ u : State, Notes s u → Notes s (if u.log.denied < u.denyLimit then
        ({ u with log := { u.log with denied := u.log.denied + 1 } }).logPush org false a 2 x v
      else ({ u with log := { u.log with suppressed := u.log.suppressed + 1 } }).bump (accReg Reg.DENIED_SUPPR_CNT)) := by
    intro u hu
    split
    · exact Notes.after (logPush_notes _ _ _ _ _ _ _) (Notes.trans hu rfl)
    · exact Notes.trans hu rfl
  exact h _ (Notes.after (raiseEv_notes _ _ _ _ _) rfl)
theorem deny_notes (s : State) (org : Origin) (a : Nat) (v : Word) : Notes s (s.deny org a v) := denyWith_notes _ _ _ _ _
theorem suppressEnd_notes (s : State) : Notes s s.suppressEnd := by
  unfold State.suppressEnd
  dsimp only
  split
  · rfl
  · exact Notes.after (logPush_notes _ _ _ _ _ _ _) rfl

/-- `u` is `s` but for the event lines, their acts and their counters, and the notes of the clock. -/
def LinesOnly (s u : State) : Prop := u = { s with regs := u.regs, evt := u.evt, clk := u.clk }
/-- One change of the lines after another. -/
theorem LinesOnly.trans {a b c : State} (h : LinesOnly a b) (k : LinesOnly b c) : LinesOnly a c := by
  unfold LinesOnly at *
  rw [h] at k
  exact k
theorem evLine_lines (s : State) (t : Nat) (l : Fin 64) (x : Bool) : LinesOnly s (s.evLine t l x) := by
  unfold State.evLine
  dsimp only
  split
  · split <;> rfl
  · rfl
theorem evLines_lines (l : List (Fin 64)) (t : Nat) (x : Bool) (s : State) : LinesOnly s (l.foldl (fun (s : State) (k : Fin 64) => s.evLine t k x) s) := by
  induction l generalizing s with
  | nil => rfl
  | cons k r ih => exact (evLine_lines s t k x).trans (ih _)
theorem evSetAt_lines (s : State) (t src : Nat) (x : Bool) : LinesOnly s (s.evSetAt t src x) := by
  refine LinesOnly.trans (b := { s with evt := _ }) rfl (evLines_lines _ _ _ _)
theorem evSet_lines (s : State) (src : Nat) (x : Bool) : LinesOnly s (s.evSet src x) := evSetAt_lines _ _ _ _
theorem evPulse_lines (s : State) (src : Nat) : LinesOnly s (s.evPulse src) := (evSet_lines _ _ _).trans (evSet_lines _ _ _)
theorem evProgram_lines (s : State) (src : Nat) : LinesOnly s (s.evProgram src) := (evSetAt_lines _ _ _ _).trans (evSetAt_lines _ _ _ _)

/-! The fields that stand. -/

theorem Notes.sram {s u : State} (h : Notes s u) : u.sram = s.sram := by
  unfold Notes at h
  rw [h]
theorem Notes.bad {s u : State} (h : Notes s u) : u.bad = s.bad := by
  unfold Notes at h
  rw [h]
theorem Notes.now {s u : State} (h : Notes s u) : u.now = s.now := by
  unfold Notes at h
  rw [h]
theorem Notes.free {s u : State} (h : Notes s u) : u.free = s.free := by
  unfold Notes at h
  rw [h]
theorem Notes.staged {s u : State} (h : Notes s u) : u.staged = s.staged := by
  unfold Notes at h
  rw [h]
theorem Notes.time {s u : State} (h : Notes s u) : u.time = s.time := by
  unfold Notes at h
  rw [h]
theorem Notes.gang {s u : State} (h : Notes s u) : u.gang = s.gang := by
  unfold Notes at h
  rw [h]
theorem Notes.eng {s u : State} (h : Notes s u) : u.eng = s.eng := by
  unfold Notes at h
  rw [h]
theorem Notes.ch {s u : State} (h : Notes s u) : u.ch = s.ch := by
  unfold Notes at h
  rw [h]
theorem Notes.loadQ {s u : State} (h : Notes s u) : u.loadQ = s.loadQ := by
  unfold Notes at h
  rw [h]
theorem Notes.spare {s u : State} (h : Notes s u) : u.spare = s.spare := by
  unfold Notes at h
  rw [h]
theorem Notes.vec {s u : State} (h : Notes s u) : u.vec = s.vec := by
  unfold Notes at h
  rw [h]
theorem Notes.sync {s u : State} (h : Notes s u) : u.sync = s.sync := by
  unfold Notes at h
  rw [h]
theorem Notes.ta {s u : State} (h : Notes s u) : u.ta = s.ta := by
  unfold Notes at h
  rw [h]
theorem Notes.sv {s u : State} (h : Notes s u) : u.sv = s.sv := by
  unfold Notes at h
  rw [h]
theorem Notes.gridQ {s u : State} (h : Notes s u) : u.gridQ = s.gridQ := by
  unfold Notes at h
  rw [h]
theorem Notes.las {s u : State} (h : Notes s u) : u.las = s.las := by
  unfold Notes at h
  rw [h]
theorem Notes.lsafe {s u : State} (h : Notes s u) : u.lsafe = s.lsafe := by
  unfold Notes at h
  rw [h]
theorem Notes.loop {s u : State} (h : Notes s u) : u.loop = s.loop := by
  unfold Notes at h
  rw [h]
theorem Notes.trace {s u : State} (h : Notes s u) : u.trace = s.trace := by
  unfold Notes at h
  rw [h]
theorem Notes.camTr {s u : State} (h : Notes s u) : u.camTr = s.camTr := by
  unfold Notes at h
  rw [h]
theorem Notes.em {s u : State} (h : Notes s u) : u.em = s.em := by
  unfold Notes at h
  rw [h]
theorem Notes.gd {s u : State} (h : Notes s u) : u.gd = s.gd := by
  unfold Notes at h
  rw [h]
theorem Notes.gm {s u : State} (h : Notes s u) : u.gm = s.gm := by
  unfold Notes at h
  rw [h]
theorem Notes.cam {s u : State} (h : Notes s u) : u.cam = s.cam := by
  unfold Notes at h
  rw [h]
theorem Notes.cal {s u : State} (h : Notes s u) : u.cal = s.cal := by
  unfold Notes at h
  rw [h]
theorem Notes.camEst {s u : State} (h : Notes s u) : u.camEst = s.camEst := by
  unfold Notes at h
  rw [h]
theorem Notes.pool {s u : State} (h : Notes s u) : u.pool = s.pool := by
  unfold Notes at h
  rw [h]
theorem Notes.cl {s u : State} (h : Notes s u) : u.cl = s.cl := by
  unfold Notes at h
  rw [h]
theorem Notes.ma {s u : State} (h : Notes s u) : u.ma = s.ma := by
  unfold Notes at h
  rw [h]
theorem Notes.prb {s u : State} (h : Notes s u) : u.prb = s.prb := by
  unfold Notes at h
  rw [h]
theorem Notes.ill {s u : State} (h : Notes s u) : u.ill = s.ill := by
  unfold Notes at h
  rw [h]
theorem Notes.tags {s u : State} (h : Notes s u) : u.tags = s.tags := by
  unfold Notes at h
  rw [h]
theorem Notes.lanes {s u : State} (h : Notes s u) : u.lanes = s.lanes := by
  unfold Notes at h
  rw [h]
theorem Notes.mcmd {s u : State} (h : Notes s u) : u.mcmd = s.mcmd := by
  unfold Notes at h
  rw [h]
theorem Notes.link {s u : State} (h : Notes s u) : u.link = s.link := by
  unfold Notes at h
  rw [h]
theorem Notes.evt {s u : State} (h : Notes s u) : u.evt = s.evt := by
  unfold Notes at h
  rw [h]
theorem Notes.safe {s u : State} (h : Notes s u) : u.safe = s.safe := by
  unfold Notes at h
  rw [h]
theorem Notes.svc {s u : State} (h : Notes s u) : u.svc = s.svc := by
  unfold Notes at h
  rw [h]
theorem Notes.hk {s u : State} (h : Notes s u) : u.hk = s.hk := by
  unfold Notes at h
  rw [h]
theorem Notes.boot {s u : State} (h : Notes s u) : u.boot = s.boot := by
  unfold Notes at h
  rw [h]
theorem Notes.fuse {s u : State} (h : Notes s u) : u.fuse = s.fuse := by
  unfold Notes at h
  rw [h]
theorem Notes.damper {s u : State} (h : Notes s u) : u.damper = s.damper := by
  unfold Notes at h
  rw [h]
theorem Notes.pending {s u : State} (h : Notes s u) : u.pending = s.pending := by
  unfold Notes at h
  rw [h]
theorem LinesOnly.sram {s u : State} (h : LinesOnly s u) : u.sram = s.sram := by
  unfold LinesOnly at h
  rw [h]
theorem LinesOnly.bad {s u : State} (h : LinesOnly s u) : u.bad = s.bad := by
  unfold LinesOnly at h
  rw [h]
theorem LinesOnly.now {s u : State} (h : LinesOnly s u) : u.now = s.now := by
  unfold LinesOnly at h
  rw [h]
theorem LinesOnly.free {s u : State} (h : LinesOnly s u) : u.free = s.free := by
  unfold LinesOnly at h
  rw [h]
theorem LinesOnly.staged {s u : State} (h : LinesOnly s u) : u.staged = s.staged := by
  unfold LinesOnly at h
  rw [h]
theorem LinesOnly.time {s u : State} (h : LinesOnly s u) : u.time = s.time := by
  unfold LinesOnly at h
  rw [h]
theorem LinesOnly.gang {s u : State} (h : LinesOnly s u) : u.gang = s.gang := by
  unfold LinesOnly at h
  rw [h]
theorem LinesOnly.eng {s u : State} (h : LinesOnly s u) : u.eng = s.eng := by
  unfold LinesOnly at h
  rw [h]
theorem LinesOnly.ch {s u : State} (h : LinesOnly s u) : u.ch = s.ch := by
  unfold LinesOnly at h
  rw [h]
theorem LinesOnly.loadQ {s u : State} (h : LinesOnly s u) : u.loadQ = s.loadQ := by
  unfold LinesOnly at h
  rw [h]
theorem LinesOnly.spare {s u : State} (h : LinesOnly s u) : u.spare = s.spare := by
  unfold LinesOnly at h
  rw [h]
theorem LinesOnly.vec {s u : State} (h : LinesOnly s u) : u.vec = s.vec := by
  unfold LinesOnly at h
  rw [h]
theorem LinesOnly.sync {s u : State} (h : LinesOnly s u) : u.sync = s.sync := by
  unfold LinesOnly at h
  rw [h]
theorem LinesOnly.ta {s u : State} (h : LinesOnly s u) : u.ta = s.ta := by
  unfold LinesOnly at h
  rw [h]
theorem LinesOnly.sv {s u : State} (h : LinesOnly s u) : u.sv = s.sv := by
  unfold LinesOnly at h
  rw [h]
theorem LinesOnly.gridQ {s u : State} (h : LinesOnly s u) : u.gridQ = s.gridQ := by
  unfold LinesOnly at h
  rw [h]
theorem LinesOnly.las {s u : State} (h : LinesOnly s u) : u.las = s.las := by
  unfold LinesOnly at h
  rw [h]
theorem LinesOnly.lsafe {s u : State} (h : LinesOnly s u) : u.lsafe = s.lsafe := by
  unfold LinesOnly at h
  rw [h]
theorem LinesOnly.loop {s u : State} (h : LinesOnly s u) : u.loop = s.loop := by
  unfold LinesOnly at h
  rw [h]
theorem LinesOnly.trace {s u : State} (h : LinesOnly s u) : u.trace = s.trace := by
  unfold LinesOnly at h
  rw [h]
theorem LinesOnly.camTr {s u : State} (h : LinesOnly s u) : u.camTr = s.camTr := by
  unfold LinesOnly at h
  rw [h]
theorem LinesOnly.em {s u : State} (h : LinesOnly s u) : u.em = s.em := by
  unfold LinesOnly at h
  rw [h]
theorem LinesOnly.gd {s u : State} (h : LinesOnly s u) : u.gd = s.gd := by
  unfold LinesOnly at h
  rw [h]
theorem LinesOnly.gm {s u : State} (h : LinesOnly s u) : u.gm = s.gm := by
  unfold LinesOnly at h
  rw [h]
theorem LinesOnly.cam {s u : State} (h : LinesOnly s u) : u.cam = s.cam := by
  unfold LinesOnly at h
  rw [h]
theorem LinesOnly.cal {s u : State} (h : LinesOnly s u) : u.cal = s.cal := by
  unfold LinesOnly at h
  rw [h]
theorem LinesOnly.camEst {s u : State} (h : LinesOnly s u) : u.camEst = s.camEst := by
  unfold LinesOnly at h
  rw [h]
theorem LinesOnly.pool {s u : State} (h : LinesOnly s u) : u.pool = s.pool := by
  unfold LinesOnly at h
  rw [h]
theorem LinesOnly.cl {s u : State} (h : LinesOnly s u) : u.cl = s.cl := by
  unfold LinesOnly at h
  rw [h]
theorem LinesOnly.ma {s u : State} (h : LinesOnly s u) : u.ma = s.ma := by
  unfold LinesOnly at h
  rw [h]
theorem LinesOnly.prb {s u : State} (h : LinesOnly s u) : u.prb = s.prb := by
  unfold LinesOnly at h
  rw [h]
theorem LinesOnly.ill {s u : State} (h : LinesOnly s u) : u.ill = s.ill := by
  unfold LinesOnly at h
  rw [h]
theorem LinesOnly.tags {s u : State} (h : LinesOnly s u) : u.tags = s.tags := by
  unfold LinesOnly at h
  rw [h]
theorem LinesOnly.lanes {s u : State} (h : LinesOnly s u) : u.lanes = s.lanes := by
  unfold LinesOnly at h
  rw [h]
theorem LinesOnly.rings {s u : State} (h : LinesOnly s u) : u.rings = s.rings := by
  unfold LinesOnly at h
  rw [h]
theorem LinesOnly.mcmd {s u : State} (h : LinesOnly s u) : u.mcmd = s.mcmd := by
  unfold LinesOnly at h
  rw [h]
theorem LinesOnly.link {s u : State} (h : LinesOnly s u) : u.link = s.link := by
  unfold LinesOnly at h
  rw [h]
theorem LinesOnly.ints {s u : State} (h : LinesOnly s u) : u.ints = s.ints := by
  unfold LinesOnly at h
  rw [h]
theorem LinesOnly.log {s u : State} (h : LinesOnly s u) : u.log = s.log := by
  unfold LinesOnly at h
  rw [h]
theorem LinesOnly.safe {s u : State} (h : LinesOnly s u) : u.safe = s.safe := by
  unfold LinesOnly at h
  rw [h]
theorem LinesOnly.svc {s u : State} (h : LinesOnly s u) : u.svc = s.svc := by
  unfold LinesOnly at h
  rw [h]
theorem LinesOnly.hk {s u : State} (h : LinesOnly s u) : u.hk = s.hk := by
  unfold LinesOnly at h
  rw [h]
theorem LinesOnly.boot {s u : State} (h : LinesOnly s u) : u.boot = s.boot := by
  unfold LinesOnly at h
  rw [h]
theorem LinesOnly.fuse {s u : State} (h : LinesOnly s u) : u.fuse = s.fuse := by
  unfold LinesOnly at h
  rw [h]
theorem LinesOnly.bank {s u : State} (h : LinesOnly s u) : u.bank = s.bank := by
  unfold LinesOnly at h
  rw [h]
theorem LinesOnly.damper {s u : State} (h : LinesOnly s u) : u.damper = s.damper := by
  unfold LinesOnly at h
  rw [h]
theorem LinesOnly.outs {s u : State} (h : LinesOnly s u) : u.outs = s.outs := by
  unfold LinesOnly at h
  rw [h]
theorem LinesOnly.pending {s u : State} (h : LinesOnly s u) : u.pending = s.pending := by
  unfold LinesOnly at h
  rw [h]

/-! bump. -/

@[simp] theorem bump_sram (s : State) (a : Nat) : (s.bump a).sram = s.sram := (bump_notes s a).sram
@[simp] theorem bump_bad (s : State) (a : Nat) : (s.bump a).bad = s.bad := (bump_notes s a).bad
@[simp] theorem bump_now (s : State) (a : Nat) : (s.bump a).now = s.now := (bump_notes s a).now
@[simp] theorem bump_free (s : State) (a : Nat) : (s.bump a).free = s.free := (bump_notes s a).free
@[simp] theorem bump_staged (s : State) (a : Nat) : (s.bump a).staged = s.staged := (bump_notes s a).staged
@[simp] theorem bump_time (s : State) (a : Nat) : (s.bump a).time = s.time := (bump_notes s a).time
@[simp] theorem bump_gang (s : State) (a : Nat) : (s.bump a).gang = s.gang := (bump_notes s a).gang
@[simp] theorem bump_eng (s : State) (a : Nat) : (s.bump a).eng = s.eng := (bump_notes s a).eng
@[simp] theorem bump_ch (s : State) (a : Nat) : (s.bump a).ch = s.ch := (bump_notes s a).ch
@[simp] theorem bump_loadQ (s : State) (a : Nat) : (s.bump a).loadQ = s.loadQ := (bump_notes s a).loadQ
@[simp] theorem bump_spare (s : State) (a : Nat) : (s.bump a).spare = s.spare := (bump_notes s a).spare
@[simp] theorem bump_vec (s : State) (a : Nat) : (s.bump a).vec = s.vec := (bump_notes s a).vec
@[simp] theorem bump_sync (s : State) (a : Nat) : (s.bump a).sync = s.sync := (bump_notes s a).sync
@[simp] theorem bump_ta (s : State) (a : Nat) : (s.bump a).ta = s.ta := (bump_notes s a).ta
@[simp] theorem bump_sv (s : State) (a : Nat) : (s.bump a).sv = s.sv := (bump_notes s a).sv
@[simp] theorem bump_gridQ (s : State) (a : Nat) : (s.bump a).gridQ = s.gridQ := (bump_notes s a).gridQ
@[simp] theorem bump_las (s : State) (a : Nat) : (s.bump a).las = s.las := (bump_notes s a).las
@[simp] theorem bump_lsafe (s : State) (a : Nat) : (s.bump a).lsafe = s.lsafe := (bump_notes s a).lsafe
@[simp] theorem bump_loop (s : State) (a : Nat) : (s.bump a).loop = s.loop := (bump_notes s a).loop
@[simp] theorem bump_trace (s : State) (a : Nat) : (s.bump a).trace = s.trace := (bump_notes s a).trace
@[simp] theorem bump_camTr (s : State) (a : Nat) : (s.bump a).camTr = s.camTr := (bump_notes s a).camTr
@[simp] theorem bump_em (s : State) (a : Nat) : (s.bump a).em = s.em := (bump_notes s a).em
@[simp] theorem bump_gd (s : State) (a : Nat) : (s.bump a).gd = s.gd := (bump_notes s a).gd
@[simp] theorem bump_gm (s : State) (a : Nat) : (s.bump a).gm = s.gm := (bump_notes s a).gm
@[simp] theorem bump_cam (s : State) (a : Nat) : (s.bump a).cam = s.cam := (bump_notes s a).cam
@[simp] theorem bump_cal (s : State) (a : Nat) : (s.bump a).cal = s.cal := (bump_notes s a).cal
@[simp] theorem bump_camEst (s : State) (a : Nat) : (s.bump a).camEst = s.camEst := (bump_notes s a).camEst
@[simp] theorem bump_pool (s : State) (a : Nat) : (s.bump a).pool = s.pool := (bump_notes s a).pool
@[simp] theorem bump_cl (s : State) (a : Nat) : (s.bump a).cl = s.cl := (bump_notes s a).cl
@[simp] theorem bump_ma (s : State) (a : Nat) : (s.bump a).ma = s.ma := (bump_notes s a).ma
@[simp] theorem bump_prb (s : State) (a : Nat) : (s.bump a).prb = s.prb := (bump_notes s a).prb
@[simp] theorem bump_ill (s : State) (a : Nat) : (s.bump a).ill = s.ill := (bump_notes s a).ill
@[simp] theorem bump_tags (s : State) (a : Nat) : (s.bump a).tags = s.tags := (bump_notes s a).tags
@[simp] theorem bump_lanes (s : State) (a : Nat) : (s.bump a).lanes = s.lanes := (bump_notes s a).lanes
@[simp] theorem bump_mcmd (s : State) (a : Nat) : (s.bump a).mcmd = s.mcmd := (bump_notes s a).mcmd
@[simp] theorem bump_link (s : State) (a : Nat) : (s.bump a).link = s.link := (bump_notes s a).link
@[simp] theorem bump_evt (s : State) (a : Nat) : (s.bump a).evt = s.evt := (bump_notes s a).evt
@[simp] theorem bump_safe (s : State) (a : Nat) : (s.bump a).safe = s.safe := (bump_notes s a).safe
@[simp] theorem bump_svc (s : State) (a : Nat) : (s.bump a).svc = s.svc := (bump_notes s a).svc
@[simp] theorem bump_hk (s : State) (a : Nat) : (s.bump a).hk = s.hk := (bump_notes s a).hk
@[simp] theorem bump_boot (s : State) (a : Nat) : (s.bump a).boot = s.boot := (bump_notes s a).boot
@[simp] theorem bump_fuse (s : State) (a : Nat) : (s.bump a).fuse = s.fuse := (bump_notes s a).fuse
@[simp] theorem bump_damper (s : State) (a : Nat) : (s.bump a).damper = s.damper := (bump_notes s a).damper
@[simp] theorem bump_pending (s : State) (a : Nat) : (s.bump a).pending = s.pending := (bump_notes s a).pending

/-! addCnt. -/

@[simp] theorem addCnt_sram (s : State) (a n : Nat) : (s.addCnt a n).sram = s.sram := (addCnt_notes s a n).sram
@[simp] theorem addCnt_bad (s : State) (a n : Nat) : (s.addCnt a n).bad = s.bad := (addCnt_notes s a n).bad
@[simp] theorem addCnt_now (s : State) (a n : Nat) : (s.addCnt a n).now = s.now := (addCnt_notes s a n).now
@[simp] theorem addCnt_free (s : State) (a n : Nat) : (s.addCnt a n).free = s.free := (addCnt_notes s a n).free
@[simp] theorem addCnt_staged (s : State) (a n : Nat) : (s.addCnt a n).staged = s.staged := (addCnt_notes s a n).staged
@[simp] theorem addCnt_time (s : State) (a n : Nat) : (s.addCnt a n).time = s.time := (addCnt_notes s a n).time
@[simp] theorem addCnt_gang (s : State) (a n : Nat) : (s.addCnt a n).gang = s.gang := (addCnt_notes s a n).gang
@[simp] theorem addCnt_eng (s : State) (a n : Nat) : (s.addCnt a n).eng = s.eng := (addCnt_notes s a n).eng
@[simp] theorem addCnt_ch (s : State) (a n : Nat) : (s.addCnt a n).ch = s.ch := (addCnt_notes s a n).ch
@[simp] theorem addCnt_loadQ (s : State) (a n : Nat) : (s.addCnt a n).loadQ = s.loadQ := (addCnt_notes s a n).loadQ
@[simp] theorem addCnt_spare (s : State) (a n : Nat) : (s.addCnt a n).spare = s.spare := (addCnt_notes s a n).spare
@[simp] theorem addCnt_vec (s : State) (a n : Nat) : (s.addCnt a n).vec = s.vec := (addCnt_notes s a n).vec
@[simp] theorem addCnt_sync (s : State) (a n : Nat) : (s.addCnt a n).sync = s.sync := (addCnt_notes s a n).sync
@[simp] theorem addCnt_ta (s : State) (a n : Nat) : (s.addCnt a n).ta = s.ta := (addCnt_notes s a n).ta
@[simp] theorem addCnt_sv (s : State) (a n : Nat) : (s.addCnt a n).sv = s.sv := (addCnt_notes s a n).sv
@[simp] theorem addCnt_gridQ (s : State) (a n : Nat) : (s.addCnt a n).gridQ = s.gridQ := (addCnt_notes s a n).gridQ
@[simp] theorem addCnt_las (s : State) (a n : Nat) : (s.addCnt a n).las = s.las := (addCnt_notes s a n).las
@[simp] theorem addCnt_lsafe (s : State) (a n : Nat) : (s.addCnt a n).lsafe = s.lsafe := (addCnt_notes s a n).lsafe
@[simp] theorem addCnt_loop (s : State) (a n : Nat) : (s.addCnt a n).loop = s.loop := (addCnt_notes s a n).loop
@[simp] theorem addCnt_trace (s : State) (a n : Nat) : (s.addCnt a n).trace = s.trace := (addCnt_notes s a n).trace
@[simp] theorem addCnt_camTr (s : State) (a n : Nat) : (s.addCnt a n).camTr = s.camTr := (addCnt_notes s a n).camTr
@[simp] theorem addCnt_em (s : State) (a n : Nat) : (s.addCnt a n).em = s.em := (addCnt_notes s a n).em
@[simp] theorem addCnt_gd (s : State) (a n : Nat) : (s.addCnt a n).gd = s.gd := (addCnt_notes s a n).gd
@[simp] theorem addCnt_gm (s : State) (a n : Nat) : (s.addCnt a n).gm = s.gm := (addCnt_notes s a n).gm
@[simp] theorem addCnt_cam (s : State) (a n : Nat) : (s.addCnt a n).cam = s.cam := (addCnt_notes s a n).cam
@[simp] theorem addCnt_cal (s : State) (a n : Nat) : (s.addCnt a n).cal = s.cal := (addCnt_notes s a n).cal
@[simp] theorem addCnt_camEst (s : State) (a n : Nat) : (s.addCnt a n).camEst = s.camEst := (addCnt_notes s a n).camEst
@[simp] theorem addCnt_pool (s : State) (a n : Nat) : (s.addCnt a n).pool = s.pool := (addCnt_notes s a n).pool
@[simp] theorem addCnt_cl (s : State) (a n : Nat) : (s.addCnt a n).cl = s.cl := (addCnt_notes s a n).cl
@[simp] theorem addCnt_ma (s : State) (a n : Nat) : (s.addCnt a n).ma = s.ma := (addCnt_notes s a n).ma
@[simp] theorem addCnt_prb (s : State) (a n : Nat) : (s.addCnt a n).prb = s.prb := (addCnt_notes s a n).prb
@[simp] theorem addCnt_ill (s : State) (a n : Nat) : (s.addCnt a n).ill = s.ill := (addCnt_notes s a n).ill
@[simp] theorem addCnt_tags (s : State) (a n : Nat) : (s.addCnt a n).tags = s.tags := (addCnt_notes s a n).tags
@[simp] theorem addCnt_lanes (s : State) (a n : Nat) : (s.addCnt a n).lanes = s.lanes := (addCnt_notes s a n).lanes
@[simp] theorem addCnt_mcmd (s : State) (a n : Nat) : (s.addCnt a n).mcmd = s.mcmd := (addCnt_notes s a n).mcmd
@[simp] theorem addCnt_link (s : State) (a n : Nat) : (s.addCnt a n).link = s.link := (addCnt_notes s a n).link
@[simp] theorem addCnt_evt (s : State) (a n : Nat) : (s.addCnt a n).evt = s.evt := (addCnt_notes s a n).evt
@[simp] theorem addCnt_safe (s : State) (a n : Nat) : (s.addCnt a n).safe = s.safe := (addCnt_notes s a n).safe
@[simp] theorem addCnt_svc (s : State) (a n : Nat) : (s.addCnt a n).svc = s.svc := (addCnt_notes s a n).svc
@[simp] theorem addCnt_hk (s : State) (a n : Nat) : (s.addCnt a n).hk = s.hk := (addCnt_notes s a n).hk
@[simp] theorem addCnt_boot (s : State) (a n : Nat) : (s.addCnt a n).boot = s.boot := (addCnt_notes s a n).boot
@[simp] theorem addCnt_fuse (s : State) (a n : Nat) : (s.addCnt a n).fuse = s.fuse := (addCnt_notes s a n).fuse
@[simp] theorem addCnt_damper (s : State) (a n : Nat) : (s.addCnt a n).damper = s.damper := (addCnt_notes s a n).damper
@[simp] theorem addCnt_pending (s : State) (a n : Nat) : (s.addCnt a n).pending = s.pending := (addCnt_notes s a n).pending

/-! setBits. -/

@[simp] theorem setBits_sram (s : State) (a : Nat) (v : Word) : (s.setBits a v).sram = s.sram := (setBits_notes s a v).sram
@[simp] theorem setBits_bad (s : State) (a : Nat) (v : Word) : (s.setBits a v).bad = s.bad := (setBits_notes s a v).bad
@[simp] theorem setBits_now (s : State) (a : Nat) (v : Word) : (s.setBits a v).now = s.now := (setBits_notes s a v).now
@[simp] theorem setBits_free (s : State) (a : Nat) (v : Word) : (s.setBits a v).free = s.free := (setBits_notes s a v).free
@[simp] theorem setBits_staged (s : State) (a : Nat) (v : Word) : (s.setBits a v).staged = s.staged := (setBits_notes s a v).staged
@[simp] theorem setBits_time (s : State) (a : Nat) (v : Word) : (s.setBits a v).time = s.time := (setBits_notes s a v).time
@[simp] theorem setBits_gang (s : State) (a : Nat) (v : Word) : (s.setBits a v).gang = s.gang := (setBits_notes s a v).gang
@[simp] theorem setBits_eng (s : State) (a : Nat) (v : Word) : (s.setBits a v).eng = s.eng := (setBits_notes s a v).eng
@[simp] theorem setBits_ch (s : State) (a : Nat) (v : Word) : (s.setBits a v).ch = s.ch := (setBits_notes s a v).ch
@[simp] theorem setBits_loadQ (s : State) (a : Nat) (v : Word) : (s.setBits a v).loadQ = s.loadQ := (setBits_notes s a v).loadQ
@[simp] theorem setBits_spare (s : State) (a : Nat) (v : Word) : (s.setBits a v).spare = s.spare := (setBits_notes s a v).spare
@[simp] theorem setBits_vec (s : State) (a : Nat) (v : Word) : (s.setBits a v).vec = s.vec := (setBits_notes s a v).vec
@[simp] theorem setBits_sync (s : State) (a : Nat) (v : Word) : (s.setBits a v).sync = s.sync := (setBits_notes s a v).sync
@[simp] theorem setBits_ta (s : State) (a : Nat) (v : Word) : (s.setBits a v).ta = s.ta := (setBits_notes s a v).ta
@[simp] theorem setBits_sv (s : State) (a : Nat) (v : Word) : (s.setBits a v).sv = s.sv := (setBits_notes s a v).sv
@[simp] theorem setBits_gridQ (s : State) (a : Nat) (v : Word) : (s.setBits a v).gridQ = s.gridQ := (setBits_notes s a v).gridQ
@[simp] theorem setBits_las (s : State) (a : Nat) (v : Word) : (s.setBits a v).las = s.las := (setBits_notes s a v).las
@[simp] theorem setBits_lsafe (s : State) (a : Nat) (v : Word) : (s.setBits a v).lsafe = s.lsafe := (setBits_notes s a v).lsafe
@[simp] theorem setBits_loop (s : State) (a : Nat) (v : Word) : (s.setBits a v).loop = s.loop := (setBits_notes s a v).loop
@[simp] theorem setBits_trace (s : State) (a : Nat) (v : Word) : (s.setBits a v).trace = s.trace := (setBits_notes s a v).trace
@[simp] theorem setBits_camTr (s : State) (a : Nat) (v : Word) : (s.setBits a v).camTr = s.camTr := (setBits_notes s a v).camTr
@[simp] theorem setBits_em (s : State) (a : Nat) (v : Word) : (s.setBits a v).em = s.em := (setBits_notes s a v).em
@[simp] theorem setBits_gd (s : State) (a : Nat) (v : Word) : (s.setBits a v).gd = s.gd := (setBits_notes s a v).gd
@[simp] theorem setBits_gm (s : State) (a : Nat) (v : Word) : (s.setBits a v).gm = s.gm := (setBits_notes s a v).gm
@[simp] theorem setBits_cam (s : State) (a : Nat) (v : Word) : (s.setBits a v).cam = s.cam := (setBits_notes s a v).cam
@[simp] theorem setBits_cal (s : State) (a : Nat) (v : Word) : (s.setBits a v).cal = s.cal := (setBits_notes s a v).cal
@[simp] theorem setBits_camEst (s : State) (a : Nat) (v : Word) : (s.setBits a v).camEst = s.camEst := (setBits_notes s a v).camEst
@[simp] theorem setBits_pool (s : State) (a : Nat) (v : Word) : (s.setBits a v).pool = s.pool := (setBits_notes s a v).pool
@[simp] theorem setBits_cl (s : State) (a : Nat) (v : Word) : (s.setBits a v).cl = s.cl := (setBits_notes s a v).cl
@[simp] theorem setBits_ma (s : State) (a : Nat) (v : Word) : (s.setBits a v).ma = s.ma := (setBits_notes s a v).ma
@[simp] theorem setBits_prb (s : State) (a : Nat) (v : Word) : (s.setBits a v).prb = s.prb := (setBits_notes s a v).prb
@[simp] theorem setBits_ill (s : State) (a : Nat) (v : Word) : (s.setBits a v).ill = s.ill := (setBits_notes s a v).ill
@[simp] theorem setBits_tags (s : State) (a : Nat) (v : Word) : (s.setBits a v).tags = s.tags := (setBits_notes s a v).tags
@[simp] theorem setBits_lanes (s : State) (a : Nat) (v : Word) : (s.setBits a v).lanes = s.lanes := (setBits_notes s a v).lanes
@[simp] theorem setBits_mcmd (s : State) (a : Nat) (v : Word) : (s.setBits a v).mcmd = s.mcmd := (setBits_notes s a v).mcmd
@[simp] theorem setBits_link (s : State) (a : Nat) (v : Word) : (s.setBits a v).link = s.link := (setBits_notes s a v).link
@[simp] theorem setBits_evt (s : State) (a : Nat) (v : Word) : (s.setBits a v).evt = s.evt := (setBits_notes s a v).evt
@[simp] theorem setBits_safe (s : State) (a : Nat) (v : Word) : (s.setBits a v).safe = s.safe := (setBits_notes s a v).safe
@[simp] theorem setBits_svc (s : State) (a : Nat) (v : Word) : (s.setBits a v).svc = s.svc := (setBits_notes s a v).svc
@[simp] theorem setBits_hk (s : State) (a : Nat) (v : Word) : (s.setBits a v).hk = s.hk := (setBits_notes s a v).hk
@[simp] theorem setBits_boot (s : State) (a : Nat) (v : Word) : (s.setBits a v).boot = s.boot := (setBits_notes s a v).boot
@[simp] theorem setBits_fuse (s : State) (a : Nat) (v : Word) : (s.setBits a v).fuse = s.fuse := (setBits_notes s a v).fuse
@[simp] theorem setBits_damper (s : State) (a : Nat) (v : Word) : (s.setBits a v).damper = s.damper := (setBits_notes s a v).damper
@[simp] theorem setBits_pending (s : State) (a : Nat) (v : Word) : (s.setBits a v).pending = s.pending := (setBits_notes s a v).pending

/-! raiseSrc. -/

@[simp] theorem raiseSrc_sram (s : State) (v : Nat) : (s.raiseSrc v).sram = s.sram := (raiseSrc_notes s v).sram
@[simp] theorem raiseSrc_bad (s : State) (v : Nat) : (s.raiseSrc v).bad = s.bad := (raiseSrc_notes s v).bad
@[simp] theorem raiseSrc_now (s : State) (v : Nat) : (s.raiseSrc v).now = s.now := (raiseSrc_notes s v).now
@[simp] theorem raiseSrc_free (s : State) (v : Nat) : (s.raiseSrc v).free = s.free := (raiseSrc_notes s v).free
@[simp] theorem raiseSrc_staged (s : State) (v : Nat) : (s.raiseSrc v).staged = s.staged := (raiseSrc_notes s v).staged
@[simp] theorem raiseSrc_time (s : State) (v : Nat) : (s.raiseSrc v).time = s.time := (raiseSrc_notes s v).time
@[simp] theorem raiseSrc_gang (s : State) (v : Nat) : (s.raiseSrc v).gang = s.gang := (raiseSrc_notes s v).gang
@[simp] theorem raiseSrc_eng (s : State) (v : Nat) : (s.raiseSrc v).eng = s.eng := (raiseSrc_notes s v).eng
@[simp] theorem raiseSrc_ch (s : State) (v : Nat) : (s.raiseSrc v).ch = s.ch := (raiseSrc_notes s v).ch
@[simp] theorem raiseSrc_loadQ (s : State) (v : Nat) : (s.raiseSrc v).loadQ = s.loadQ := (raiseSrc_notes s v).loadQ
@[simp] theorem raiseSrc_spare (s : State) (v : Nat) : (s.raiseSrc v).spare = s.spare := (raiseSrc_notes s v).spare
@[simp] theorem raiseSrc_vec (s : State) (v : Nat) : (s.raiseSrc v).vec = s.vec := (raiseSrc_notes s v).vec
@[simp] theorem raiseSrc_sync (s : State) (v : Nat) : (s.raiseSrc v).sync = s.sync := (raiseSrc_notes s v).sync
@[simp] theorem raiseSrc_ta (s : State) (v : Nat) : (s.raiseSrc v).ta = s.ta := (raiseSrc_notes s v).ta
@[simp] theorem raiseSrc_sv (s : State) (v : Nat) : (s.raiseSrc v).sv = s.sv := (raiseSrc_notes s v).sv
@[simp] theorem raiseSrc_gridQ (s : State) (v : Nat) : (s.raiseSrc v).gridQ = s.gridQ := (raiseSrc_notes s v).gridQ
@[simp] theorem raiseSrc_las (s : State) (v : Nat) : (s.raiseSrc v).las = s.las := (raiseSrc_notes s v).las
@[simp] theorem raiseSrc_lsafe (s : State) (v : Nat) : (s.raiseSrc v).lsafe = s.lsafe := (raiseSrc_notes s v).lsafe
@[simp] theorem raiseSrc_loop (s : State) (v : Nat) : (s.raiseSrc v).loop = s.loop := (raiseSrc_notes s v).loop
@[simp] theorem raiseSrc_trace (s : State) (v : Nat) : (s.raiseSrc v).trace = s.trace := (raiseSrc_notes s v).trace
@[simp] theorem raiseSrc_camTr (s : State) (v : Nat) : (s.raiseSrc v).camTr = s.camTr := (raiseSrc_notes s v).camTr
@[simp] theorem raiseSrc_em (s : State) (v : Nat) : (s.raiseSrc v).em = s.em := (raiseSrc_notes s v).em
@[simp] theorem raiseSrc_gd (s : State) (v : Nat) : (s.raiseSrc v).gd = s.gd := (raiseSrc_notes s v).gd
@[simp] theorem raiseSrc_gm (s : State) (v : Nat) : (s.raiseSrc v).gm = s.gm := (raiseSrc_notes s v).gm
@[simp] theorem raiseSrc_cam (s : State) (v : Nat) : (s.raiseSrc v).cam = s.cam := (raiseSrc_notes s v).cam
@[simp] theorem raiseSrc_cal (s : State) (v : Nat) : (s.raiseSrc v).cal = s.cal := (raiseSrc_notes s v).cal
@[simp] theorem raiseSrc_camEst (s : State) (v : Nat) : (s.raiseSrc v).camEst = s.camEst := (raiseSrc_notes s v).camEst
@[simp] theorem raiseSrc_pool (s : State) (v : Nat) : (s.raiseSrc v).pool = s.pool := (raiseSrc_notes s v).pool
@[simp] theorem raiseSrc_cl (s : State) (v : Nat) : (s.raiseSrc v).cl = s.cl := (raiseSrc_notes s v).cl
@[simp] theorem raiseSrc_ma (s : State) (v : Nat) : (s.raiseSrc v).ma = s.ma := (raiseSrc_notes s v).ma
@[simp] theorem raiseSrc_prb (s : State) (v : Nat) : (s.raiseSrc v).prb = s.prb := (raiseSrc_notes s v).prb
@[simp] theorem raiseSrc_ill (s : State) (v : Nat) : (s.raiseSrc v).ill = s.ill := (raiseSrc_notes s v).ill
@[simp] theorem raiseSrc_tags (s : State) (v : Nat) : (s.raiseSrc v).tags = s.tags := (raiseSrc_notes s v).tags
@[simp] theorem raiseSrc_lanes (s : State) (v : Nat) : (s.raiseSrc v).lanes = s.lanes := (raiseSrc_notes s v).lanes
@[simp] theorem raiseSrc_mcmd (s : State) (v : Nat) : (s.raiseSrc v).mcmd = s.mcmd := (raiseSrc_notes s v).mcmd
@[simp] theorem raiseSrc_link (s : State) (v : Nat) : (s.raiseSrc v).link = s.link := (raiseSrc_notes s v).link
@[simp] theorem raiseSrc_evt (s : State) (v : Nat) : (s.raiseSrc v).evt = s.evt := (raiseSrc_notes s v).evt
@[simp] theorem raiseSrc_safe (s : State) (v : Nat) : (s.raiseSrc v).safe = s.safe := (raiseSrc_notes s v).safe
@[simp] theorem raiseSrc_svc (s : State) (v : Nat) : (s.raiseSrc v).svc = s.svc := (raiseSrc_notes s v).svc
@[simp] theorem raiseSrc_hk (s : State) (v : Nat) : (s.raiseSrc v).hk = s.hk := (raiseSrc_notes s v).hk
@[simp] theorem raiseSrc_boot (s : State) (v : Nat) : (s.raiseSrc v).boot = s.boot := (raiseSrc_notes s v).boot
@[simp] theorem raiseSrc_fuse (s : State) (v : Nat) : (s.raiseSrc v).fuse = s.fuse := (raiseSrc_notes s v).fuse
@[simp] theorem raiseSrc_damper (s : State) (v : Nat) : (s.raiseSrc v).damper = s.damper := (raiseSrc_notes s v).damper
@[simp] theorem raiseSrc_pending (s : State) (v : Nat) : (s.raiseSrc v).pending = s.pending := (raiseSrc_notes s v).pending

/-! emitRole. -/

@[simp] theorem emitRole_sram (s : State) (a b : Nat) (f : Bool → List Byte) : (s.emitRole a b f).sram = s.sram := (emitRole_notes s a b f).sram
@[simp] theorem emitRole_bad (s : State) (a b : Nat) (f : Bool → List Byte) : (s.emitRole a b f).bad = s.bad := (emitRole_notes s a b f).bad
@[simp] theorem emitRole_now (s : State) (a b : Nat) (f : Bool → List Byte) : (s.emitRole a b f).now = s.now := (emitRole_notes s a b f).now
@[simp] theorem emitRole_free (s : State) (a b : Nat) (f : Bool → List Byte) : (s.emitRole a b f).free = s.free := (emitRole_notes s a b f).free
@[simp] theorem emitRole_staged (s : State) (a b : Nat) (f : Bool → List Byte) : (s.emitRole a b f).staged = s.staged := (emitRole_notes s a b f).staged
@[simp] theorem emitRole_time (s : State) (a b : Nat) (f : Bool → List Byte) : (s.emitRole a b f).time = s.time := (emitRole_notes s a b f).time
@[simp] theorem emitRole_gang (s : State) (a b : Nat) (f : Bool → List Byte) : (s.emitRole a b f).gang = s.gang := (emitRole_notes s a b f).gang
@[simp] theorem emitRole_eng (s : State) (a b : Nat) (f : Bool → List Byte) : (s.emitRole a b f).eng = s.eng := (emitRole_notes s a b f).eng
@[simp] theorem emitRole_ch (s : State) (a b : Nat) (f : Bool → List Byte) : (s.emitRole a b f).ch = s.ch := (emitRole_notes s a b f).ch
@[simp] theorem emitRole_loadQ (s : State) (a b : Nat) (f : Bool → List Byte) : (s.emitRole a b f).loadQ = s.loadQ := (emitRole_notes s a b f).loadQ
@[simp] theorem emitRole_spare (s : State) (a b : Nat) (f : Bool → List Byte) : (s.emitRole a b f).spare = s.spare := (emitRole_notes s a b f).spare
@[simp] theorem emitRole_vec (s : State) (a b : Nat) (f : Bool → List Byte) : (s.emitRole a b f).vec = s.vec := (emitRole_notes s a b f).vec
@[simp] theorem emitRole_sync (s : State) (a b : Nat) (f : Bool → List Byte) : (s.emitRole a b f).sync = s.sync := (emitRole_notes s a b f).sync
@[simp] theorem emitRole_ta (s : State) (a b : Nat) (f : Bool → List Byte) : (s.emitRole a b f).ta = s.ta := (emitRole_notes s a b f).ta
@[simp] theorem emitRole_sv (s : State) (a b : Nat) (f : Bool → List Byte) : (s.emitRole a b f).sv = s.sv := (emitRole_notes s a b f).sv
@[simp] theorem emitRole_gridQ (s : State) (a b : Nat) (f : Bool → List Byte) : (s.emitRole a b f).gridQ = s.gridQ := (emitRole_notes s a b f).gridQ
@[simp] theorem emitRole_las (s : State) (a b : Nat) (f : Bool → List Byte) : (s.emitRole a b f).las = s.las := (emitRole_notes s a b f).las
@[simp] theorem emitRole_lsafe (s : State) (a b : Nat) (f : Bool → List Byte) : (s.emitRole a b f).lsafe = s.lsafe := (emitRole_notes s a b f).lsafe
@[simp] theorem emitRole_loop (s : State) (a b : Nat) (f : Bool → List Byte) : (s.emitRole a b f).loop = s.loop := (emitRole_notes s a b f).loop
@[simp] theorem emitRole_trace (s : State) (a b : Nat) (f : Bool → List Byte) : (s.emitRole a b f).trace = s.trace := (emitRole_notes s a b f).trace
@[simp] theorem emitRole_camTr (s : State) (a b : Nat) (f : Bool → List Byte) : (s.emitRole a b f).camTr = s.camTr := (emitRole_notes s a b f).camTr
@[simp] theorem emitRole_em (s : State) (a b : Nat) (f : Bool → List Byte) : (s.emitRole a b f).em = s.em := (emitRole_notes s a b f).em
@[simp] theorem emitRole_gd (s : State) (a b : Nat) (f : Bool → List Byte) : (s.emitRole a b f).gd = s.gd := (emitRole_notes s a b f).gd
@[simp] theorem emitRole_gm (s : State) (a b : Nat) (f : Bool → List Byte) : (s.emitRole a b f).gm = s.gm := (emitRole_notes s a b f).gm
@[simp] theorem emitRole_cam (s : State) (a b : Nat) (f : Bool → List Byte) : (s.emitRole a b f).cam = s.cam := (emitRole_notes s a b f).cam
@[simp] theorem emitRole_cal (s : State) (a b : Nat) (f : Bool → List Byte) : (s.emitRole a b f).cal = s.cal := (emitRole_notes s a b f).cal
@[simp] theorem emitRole_camEst (s : State) (a b : Nat) (f : Bool → List Byte) : (s.emitRole a b f).camEst = s.camEst := (emitRole_notes s a b f).camEst
@[simp] theorem emitRole_pool (s : State) (a b : Nat) (f : Bool → List Byte) : (s.emitRole a b f).pool = s.pool := (emitRole_notes s a b f).pool
@[simp] theorem emitRole_cl (s : State) (a b : Nat) (f : Bool → List Byte) : (s.emitRole a b f).cl = s.cl := (emitRole_notes s a b f).cl
@[simp] theorem emitRole_ma (s : State) (a b : Nat) (f : Bool → List Byte) : (s.emitRole a b f).ma = s.ma := (emitRole_notes s a b f).ma
@[simp] theorem emitRole_prb (s : State) (a b : Nat) (f : Bool → List Byte) : (s.emitRole a b f).prb = s.prb := (emitRole_notes s a b f).prb
@[simp] theorem emitRole_ill (s : State) (a b : Nat) (f : Bool → List Byte) : (s.emitRole a b f).ill = s.ill := (emitRole_notes s a b f).ill
@[simp] theorem emitRole_tags (s : State) (a b : Nat) (f : Bool → List Byte) : (s.emitRole a b f).tags = s.tags := (emitRole_notes s a b f).tags
@[simp] theorem emitRole_lanes (s : State) (a b : Nat) (f : Bool → List Byte) : (s.emitRole a b f).lanes = s.lanes := (emitRole_notes s a b f).lanes
@[simp] theorem emitRole_mcmd (s : State) (a b : Nat) (f : Bool → List Byte) : (s.emitRole a b f).mcmd = s.mcmd := (emitRole_notes s a b f).mcmd
@[simp] theorem emitRole_link (s : State) (a b : Nat) (f : Bool → List Byte) : (s.emitRole a b f).link = s.link := (emitRole_notes s a b f).link
@[simp] theorem emitRole_evt (s : State) (a b : Nat) (f : Bool → List Byte) : (s.emitRole a b f).evt = s.evt := (emitRole_notes s a b f).evt
@[simp] theorem emitRole_safe (s : State) (a b : Nat) (f : Bool → List Byte) : (s.emitRole a b f).safe = s.safe := (emitRole_notes s a b f).safe
@[simp] theorem emitRole_svc (s : State) (a b : Nat) (f : Bool → List Byte) : (s.emitRole a b f).svc = s.svc := (emitRole_notes s a b f).svc
@[simp] theorem emitRole_hk (s : State) (a b : Nat) (f : Bool → List Byte) : (s.emitRole a b f).hk = s.hk := (emitRole_notes s a b f).hk
@[simp] theorem emitRole_boot (s : State) (a b : Nat) (f : Bool → List Byte) : (s.emitRole a b f).boot = s.boot := (emitRole_notes s a b f).boot
@[simp] theorem emitRole_fuse (s : State) (a b : Nat) (f : Bool → List Byte) : (s.emitRole a b f).fuse = s.fuse := (emitRole_notes s a b f).fuse
@[simp] theorem emitRole_damper (s : State) (a b : Nat) (f : Bool → List Byte) : (s.emitRole a b f).damper = s.damper := (emitRole_notes s a b f).damper
@[simp] theorem emitRole_pending (s : State) (a b : Nat) (f : Bool → List Byte) : (s.emitRole a b f).pending = s.pending := (emitRole_notes s a b f).pending

/-! raiseEv. -/

@[simp] theorem raiseEv_sram (s : State) (a b c d : Nat) : (s.raiseEv a b c d).sram = s.sram := (raiseEv_notes s a b c d).sram
@[simp] theorem raiseEv_bad (s : State) (a b c d : Nat) : (s.raiseEv a b c d).bad = s.bad := (raiseEv_notes s a b c d).bad
@[simp] theorem raiseEv_now (s : State) (a b c d : Nat) : (s.raiseEv a b c d).now = s.now := (raiseEv_notes s a b c d).now
@[simp] theorem raiseEv_free (s : State) (a b c d : Nat) : (s.raiseEv a b c d).free = s.free := (raiseEv_notes s a b c d).free
@[simp] theorem raiseEv_staged (s : State) (a b c d : Nat) : (s.raiseEv a b c d).staged = s.staged := (raiseEv_notes s a b c d).staged
@[simp] theorem raiseEv_time (s : State) (a b c d : Nat) : (s.raiseEv a b c d).time = s.time := (raiseEv_notes s a b c d).time
@[simp] theorem raiseEv_gang (s : State) (a b c d : Nat) : (s.raiseEv a b c d).gang = s.gang := (raiseEv_notes s a b c d).gang
@[simp] theorem raiseEv_eng (s : State) (a b c d : Nat) : (s.raiseEv a b c d).eng = s.eng := (raiseEv_notes s a b c d).eng
@[simp] theorem raiseEv_ch (s : State) (a b c d : Nat) : (s.raiseEv a b c d).ch = s.ch := (raiseEv_notes s a b c d).ch
@[simp] theorem raiseEv_loadQ (s : State) (a b c d : Nat) : (s.raiseEv a b c d).loadQ = s.loadQ := (raiseEv_notes s a b c d).loadQ
@[simp] theorem raiseEv_spare (s : State) (a b c d : Nat) : (s.raiseEv a b c d).spare = s.spare := (raiseEv_notes s a b c d).spare
@[simp] theorem raiseEv_vec (s : State) (a b c d : Nat) : (s.raiseEv a b c d).vec = s.vec := (raiseEv_notes s a b c d).vec
@[simp] theorem raiseEv_sync (s : State) (a b c d : Nat) : (s.raiseEv a b c d).sync = s.sync := (raiseEv_notes s a b c d).sync
@[simp] theorem raiseEv_ta (s : State) (a b c d : Nat) : (s.raiseEv a b c d).ta = s.ta := (raiseEv_notes s a b c d).ta
@[simp] theorem raiseEv_sv (s : State) (a b c d : Nat) : (s.raiseEv a b c d).sv = s.sv := (raiseEv_notes s a b c d).sv
@[simp] theorem raiseEv_gridQ (s : State) (a b c d : Nat) : (s.raiseEv a b c d).gridQ = s.gridQ := (raiseEv_notes s a b c d).gridQ
@[simp] theorem raiseEv_las (s : State) (a b c d : Nat) : (s.raiseEv a b c d).las = s.las := (raiseEv_notes s a b c d).las
@[simp] theorem raiseEv_lsafe (s : State) (a b c d : Nat) : (s.raiseEv a b c d).lsafe = s.lsafe := (raiseEv_notes s a b c d).lsafe
@[simp] theorem raiseEv_loop (s : State) (a b c d : Nat) : (s.raiseEv a b c d).loop = s.loop := (raiseEv_notes s a b c d).loop
@[simp] theorem raiseEv_trace (s : State) (a b c d : Nat) : (s.raiseEv a b c d).trace = s.trace := (raiseEv_notes s a b c d).trace
@[simp] theorem raiseEv_camTr (s : State) (a b c d : Nat) : (s.raiseEv a b c d).camTr = s.camTr := (raiseEv_notes s a b c d).camTr
@[simp] theorem raiseEv_em (s : State) (a b c d : Nat) : (s.raiseEv a b c d).em = s.em := (raiseEv_notes s a b c d).em
@[simp] theorem raiseEv_gd (s : State) (a b c d : Nat) : (s.raiseEv a b c d).gd = s.gd := (raiseEv_notes s a b c d).gd
@[simp] theorem raiseEv_gm (s : State) (a b c d : Nat) : (s.raiseEv a b c d).gm = s.gm := (raiseEv_notes s a b c d).gm
@[simp] theorem raiseEv_cam (s : State) (a b c d : Nat) : (s.raiseEv a b c d).cam = s.cam := (raiseEv_notes s a b c d).cam
@[simp] theorem raiseEv_cal (s : State) (a b c d : Nat) : (s.raiseEv a b c d).cal = s.cal := (raiseEv_notes s a b c d).cal
@[simp] theorem raiseEv_camEst (s : State) (a b c d : Nat) : (s.raiseEv a b c d).camEst = s.camEst := (raiseEv_notes s a b c d).camEst
@[simp] theorem raiseEv_pool (s : State) (a b c d : Nat) : (s.raiseEv a b c d).pool = s.pool := (raiseEv_notes s a b c d).pool
@[simp] theorem raiseEv_cl (s : State) (a b c d : Nat) : (s.raiseEv a b c d).cl = s.cl := (raiseEv_notes s a b c d).cl
@[simp] theorem raiseEv_ma (s : State) (a b c d : Nat) : (s.raiseEv a b c d).ma = s.ma := (raiseEv_notes s a b c d).ma
@[simp] theorem raiseEv_prb (s : State) (a b c d : Nat) : (s.raiseEv a b c d).prb = s.prb := (raiseEv_notes s a b c d).prb
@[simp] theorem raiseEv_ill (s : State) (a b c d : Nat) : (s.raiseEv a b c d).ill = s.ill := (raiseEv_notes s a b c d).ill
@[simp] theorem raiseEv_tags (s : State) (a b c d : Nat) : (s.raiseEv a b c d).tags = s.tags := (raiseEv_notes s a b c d).tags
@[simp] theorem raiseEv_lanes (s : State) (a b c d : Nat) : (s.raiseEv a b c d).lanes = s.lanes := (raiseEv_notes s a b c d).lanes
@[simp] theorem raiseEv_mcmd (s : State) (a b c d : Nat) : (s.raiseEv a b c d).mcmd = s.mcmd := (raiseEv_notes s a b c d).mcmd
@[simp] theorem raiseEv_link (s : State) (a b c d : Nat) : (s.raiseEv a b c d).link = s.link := (raiseEv_notes s a b c d).link
@[simp] theorem raiseEv_evt (s : State) (a b c d : Nat) : (s.raiseEv a b c d).evt = s.evt := (raiseEv_notes s a b c d).evt
@[simp] theorem raiseEv_safe (s : State) (a b c d : Nat) : (s.raiseEv a b c d).safe = s.safe := (raiseEv_notes s a b c d).safe
@[simp] theorem raiseEv_svc (s : State) (a b c d : Nat) : (s.raiseEv a b c d).svc = s.svc := (raiseEv_notes s a b c d).svc
@[simp] theorem raiseEv_hk (s : State) (a b c d : Nat) : (s.raiseEv a b c d).hk = s.hk := (raiseEv_notes s a b c d).hk
@[simp] theorem raiseEv_boot (s : State) (a b c d : Nat) : (s.raiseEv a b c d).boot = s.boot := (raiseEv_notes s a b c d).boot
@[simp] theorem raiseEv_fuse (s : State) (a b c d : Nat) : (s.raiseEv a b c d).fuse = s.fuse := (raiseEv_notes s a b c d).fuse
@[simp] theorem raiseEv_damper (s : State) (a b c d : Nat) : (s.raiseEv a b c d).damper = s.damper := (raiseEv_notes s a b c d).damper
@[simp] theorem raiseEv_pending (s : State) (a b c d : Nat) : (s.raiseEv a b c d).pending = s.pending := (raiseEv_notes s a b c d).pending

/-! chCause. -/

@[simp] theorem chCause_sram (s : State) (c : Ch) (b : Nat) : (s.chCause c b).sram = s.sram := (chCause_notes s c b).sram
@[simp] theorem chCause_bad (s : State) (c : Ch) (b : Nat) : (s.chCause c b).bad = s.bad := (chCause_notes s c b).bad
@[simp] theorem chCause_now (s : State) (c : Ch) (b : Nat) : (s.chCause c b).now = s.now := (chCause_notes s c b).now
@[simp] theorem chCause_free (s : State) (c : Ch) (b : Nat) : (s.chCause c b).free = s.free := (chCause_notes s c b).free
@[simp] theorem chCause_staged (s : State) (c : Ch) (b : Nat) : (s.chCause c b).staged = s.staged := (chCause_notes s c b).staged
@[simp] theorem chCause_time (s : State) (c : Ch) (b : Nat) : (s.chCause c b).time = s.time := (chCause_notes s c b).time
@[simp] theorem chCause_gang (s : State) (c : Ch) (b : Nat) : (s.chCause c b).gang = s.gang := (chCause_notes s c b).gang
@[simp] theorem chCause_eng (s : State) (c : Ch) (b : Nat) : (s.chCause c b).eng = s.eng := (chCause_notes s c b).eng
@[simp] theorem chCause_ch (s : State) (c : Ch) (b : Nat) : (s.chCause c b).ch = s.ch := (chCause_notes s c b).ch
@[simp] theorem chCause_loadQ (s : State) (c : Ch) (b : Nat) : (s.chCause c b).loadQ = s.loadQ := (chCause_notes s c b).loadQ
@[simp] theorem chCause_spare (s : State) (c : Ch) (b : Nat) : (s.chCause c b).spare = s.spare := (chCause_notes s c b).spare
@[simp] theorem chCause_vec (s : State) (c : Ch) (b : Nat) : (s.chCause c b).vec = s.vec := (chCause_notes s c b).vec
@[simp] theorem chCause_sync (s : State) (c : Ch) (b : Nat) : (s.chCause c b).sync = s.sync := (chCause_notes s c b).sync
@[simp] theorem chCause_ta (s : State) (c : Ch) (b : Nat) : (s.chCause c b).ta = s.ta := (chCause_notes s c b).ta
@[simp] theorem chCause_sv (s : State) (c : Ch) (b : Nat) : (s.chCause c b).sv = s.sv := (chCause_notes s c b).sv
@[simp] theorem chCause_gridQ (s : State) (c : Ch) (b : Nat) : (s.chCause c b).gridQ = s.gridQ := (chCause_notes s c b).gridQ
@[simp] theorem chCause_las (s : State) (c : Ch) (b : Nat) : (s.chCause c b).las = s.las := (chCause_notes s c b).las
@[simp] theorem chCause_lsafe (s : State) (c : Ch) (b : Nat) : (s.chCause c b).lsafe = s.lsafe := (chCause_notes s c b).lsafe
@[simp] theorem chCause_loop (s : State) (c : Ch) (b : Nat) : (s.chCause c b).loop = s.loop := (chCause_notes s c b).loop
@[simp] theorem chCause_trace (s : State) (c : Ch) (b : Nat) : (s.chCause c b).trace = s.trace := (chCause_notes s c b).trace
@[simp] theorem chCause_camTr (s : State) (c : Ch) (b : Nat) : (s.chCause c b).camTr = s.camTr := (chCause_notes s c b).camTr
@[simp] theorem chCause_em (s : State) (c : Ch) (b : Nat) : (s.chCause c b).em = s.em := (chCause_notes s c b).em
@[simp] theorem chCause_gd (s : State) (c : Ch) (b : Nat) : (s.chCause c b).gd = s.gd := (chCause_notes s c b).gd
@[simp] theorem chCause_gm (s : State) (c : Ch) (b : Nat) : (s.chCause c b).gm = s.gm := (chCause_notes s c b).gm
@[simp] theorem chCause_cam (s : State) (c : Ch) (b : Nat) : (s.chCause c b).cam = s.cam := (chCause_notes s c b).cam
@[simp] theorem chCause_cal (s : State) (c : Ch) (b : Nat) : (s.chCause c b).cal = s.cal := (chCause_notes s c b).cal
@[simp] theorem chCause_camEst (s : State) (c : Ch) (b : Nat) : (s.chCause c b).camEst = s.camEst := (chCause_notes s c b).camEst
@[simp] theorem chCause_pool (s : State) (c : Ch) (b : Nat) : (s.chCause c b).pool = s.pool := (chCause_notes s c b).pool
@[simp] theorem chCause_cl (s : State) (c : Ch) (b : Nat) : (s.chCause c b).cl = s.cl := (chCause_notes s c b).cl
@[simp] theorem chCause_ma (s : State) (c : Ch) (b : Nat) : (s.chCause c b).ma = s.ma := (chCause_notes s c b).ma
@[simp] theorem chCause_prb (s : State) (c : Ch) (b : Nat) : (s.chCause c b).prb = s.prb := (chCause_notes s c b).prb
@[simp] theorem chCause_ill (s : State) (c : Ch) (b : Nat) : (s.chCause c b).ill = s.ill := (chCause_notes s c b).ill
@[simp] theorem chCause_tags (s : State) (c : Ch) (b : Nat) : (s.chCause c b).tags = s.tags := (chCause_notes s c b).tags
@[simp] theorem chCause_lanes (s : State) (c : Ch) (b : Nat) : (s.chCause c b).lanes = s.lanes := (chCause_notes s c b).lanes
@[simp] theorem chCause_mcmd (s : State) (c : Ch) (b : Nat) : (s.chCause c b).mcmd = s.mcmd := (chCause_notes s c b).mcmd
@[simp] theorem chCause_link (s : State) (c : Ch) (b : Nat) : (s.chCause c b).link = s.link := (chCause_notes s c b).link
@[simp] theorem chCause_evt (s : State) (c : Ch) (b : Nat) : (s.chCause c b).evt = s.evt := (chCause_notes s c b).evt
@[simp] theorem chCause_safe (s : State) (c : Ch) (b : Nat) : (s.chCause c b).safe = s.safe := (chCause_notes s c b).safe
@[simp] theorem chCause_svc (s : State) (c : Ch) (b : Nat) : (s.chCause c b).svc = s.svc := (chCause_notes s c b).svc
@[simp] theorem chCause_hk (s : State) (c : Ch) (b : Nat) : (s.chCause c b).hk = s.hk := (chCause_notes s c b).hk
@[simp] theorem chCause_boot (s : State) (c : Ch) (b : Nat) : (s.chCause c b).boot = s.boot := (chCause_notes s c b).boot
@[simp] theorem chCause_fuse (s : State) (c : Ch) (b : Nat) : (s.chCause c b).fuse = s.fuse := (chCause_notes s c b).fuse
@[simp] theorem chCause_damper (s : State) (c : Ch) (b : Nat) : (s.chCause c b).damper = s.damper := (chCause_notes s c b).damper
@[simp] theorem chCause_pending (s : State) (c : Ch) (b : Nat) : (s.chCause c b).pending = s.pending := (chCause_notes s c b).pending

/-! logPush. -/

@[simp] theorem logPush_sram (s : State) (org : Origin) (sup : Bool) (obj kind : Nat) (old new : Word) : (s.logPush org sup obj kind old new).sram = s.sram := (logPush_notes s org sup obj kind old new).sram
@[simp] theorem logPush_bad (s : State) (org : Origin) (sup : Bool) (obj kind : Nat) (old new : Word) : (s.logPush org sup obj kind old new).bad = s.bad := (logPush_notes s org sup obj kind old new).bad
@[simp] theorem logPush_now (s : State) (org : Origin) (sup : Bool) (obj kind : Nat) (old new : Word) : (s.logPush org sup obj kind old new).now = s.now := (logPush_notes s org sup obj kind old new).now
@[simp] theorem logPush_free (s : State) (org : Origin) (sup : Bool) (obj kind : Nat) (old new : Word) : (s.logPush org sup obj kind old new).free = s.free := (logPush_notes s org sup obj kind old new).free
@[simp] theorem logPush_staged (s : State) (org : Origin) (sup : Bool) (obj kind : Nat) (old new : Word) : (s.logPush org sup obj kind old new).staged = s.staged := (logPush_notes s org sup obj kind old new).staged
@[simp] theorem logPush_time (s : State) (org : Origin) (sup : Bool) (obj kind : Nat) (old new : Word) : (s.logPush org sup obj kind old new).time = s.time := (logPush_notes s org sup obj kind old new).time
@[simp] theorem logPush_gang (s : State) (org : Origin) (sup : Bool) (obj kind : Nat) (old new : Word) : (s.logPush org sup obj kind old new).gang = s.gang := (logPush_notes s org sup obj kind old new).gang
@[simp] theorem logPush_eng (s : State) (org : Origin) (sup : Bool) (obj kind : Nat) (old new : Word) : (s.logPush org sup obj kind old new).eng = s.eng := (logPush_notes s org sup obj kind old new).eng
@[simp] theorem logPush_ch (s : State) (org : Origin) (sup : Bool) (obj kind : Nat) (old new : Word) : (s.logPush org sup obj kind old new).ch = s.ch := (logPush_notes s org sup obj kind old new).ch
@[simp] theorem logPush_loadQ (s : State) (org : Origin) (sup : Bool) (obj kind : Nat) (old new : Word) : (s.logPush org sup obj kind old new).loadQ = s.loadQ := (logPush_notes s org sup obj kind old new).loadQ
@[simp] theorem logPush_spare (s : State) (org : Origin) (sup : Bool) (obj kind : Nat) (old new : Word) : (s.logPush org sup obj kind old new).spare = s.spare := (logPush_notes s org sup obj kind old new).spare
@[simp] theorem logPush_vec (s : State) (org : Origin) (sup : Bool) (obj kind : Nat) (old new : Word) : (s.logPush org sup obj kind old new).vec = s.vec := (logPush_notes s org sup obj kind old new).vec
@[simp] theorem logPush_sync (s : State) (org : Origin) (sup : Bool) (obj kind : Nat) (old new : Word) : (s.logPush org sup obj kind old new).sync = s.sync := (logPush_notes s org sup obj kind old new).sync
@[simp] theorem logPush_ta (s : State) (org : Origin) (sup : Bool) (obj kind : Nat) (old new : Word) : (s.logPush org sup obj kind old new).ta = s.ta := (logPush_notes s org sup obj kind old new).ta
@[simp] theorem logPush_sv (s : State) (org : Origin) (sup : Bool) (obj kind : Nat) (old new : Word) : (s.logPush org sup obj kind old new).sv = s.sv := (logPush_notes s org sup obj kind old new).sv
@[simp] theorem logPush_gridQ (s : State) (org : Origin) (sup : Bool) (obj kind : Nat) (old new : Word) : (s.logPush org sup obj kind old new).gridQ = s.gridQ := (logPush_notes s org sup obj kind old new).gridQ
@[simp] theorem logPush_las (s : State) (org : Origin) (sup : Bool) (obj kind : Nat) (old new : Word) : (s.logPush org sup obj kind old new).las = s.las := (logPush_notes s org sup obj kind old new).las
@[simp] theorem logPush_lsafe (s : State) (org : Origin) (sup : Bool) (obj kind : Nat) (old new : Word) : (s.logPush org sup obj kind old new).lsafe = s.lsafe := (logPush_notes s org sup obj kind old new).lsafe
@[simp] theorem logPush_loop (s : State) (org : Origin) (sup : Bool) (obj kind : Nat) (old new : Word) : (s.logPush org sup obj kind old new).loop = s.loop := (logPush_notes s org sup obj kind old new).loop
@[simp] theorem logPush_trace (s : State) (org : Origin) (sup : Bool) (obj kind : Nat) (old new : Word) : (s.logPush org sup obj kind old new).trace = s.trace := (logPush_notes s org sup obj kind old new).trace
@[simp] theorem logPush_camTr (s : State) (org : Origin) (sup : Bool) (obj kind : Nat) (old new : Word) : (s.logPush org sup obj kind old new).camTr = s.camTr := (logPush_notes s org sup obj kind old new).camTr
@[simp] theorem logPush_em (s : State) (org : Origin) (sup : Bool) (obj kind : Nat) (old new : Word) : (s.logPush org sup obj kind old new).em = s.em := (logPush_notes s org sup obj kind old new).em
@[simp] theorem logPush_gd (s : State) (org : Origin) (sup : Bool) (obj kind : Nat) (old new : Word) : (s.logPush org sup obj kind old new).gd = s.gd := (logPush_notes s org sup obj kind old new).gd
@[simp] theorem logPush_gm (s : State) (org : Origin) (sup : Bool) (obj kind : Nat) (old new : Word) : (s.logPush org sup obj kind old new).gm = s.gm := (logPush_notes s org sup obj kind old new).gm
@[simp] theorem logPush_cam (s : State) (org : Origin) (sup : Bool) (obj kind : Nat) (old new : Word) : (s.logPush org sup obj kind old new).cam = s.cam := (logPush_notes s org sup obj kind old new).cam
@[simp] theorem logPush_cal (s : State) (org : Origin) (sup : Bool) (obj kind : Nat) (old new : Word) : (s.logPush org sup obj kind old new).cal = s.cal := (logPush_notes s org sup obj kind old new).cal
@[simp] theorem logPush_camEst (s : State) (org : Origin) (sup : Bool) (obj kind : Nat) (old new : Word) : (s.logPush org sup obj kind old new).camEst = s.camEst := (logPush_notes s org sup obj kind old new).camEst
@[simp] theorem logPush_pool (s : State) (org : Origin) (sup : Bool) (obj kind : Nat) (old new : Word) : (s.logPush org sup obj kind old new).pool = s.pool := (logPush_notes s org sup obj kind old new).pool
@[simp] theorem logPush_cl (s : State) (org : Origin) (sup : Bool) (obj kind : Nat) (old new : Word) : (s.logPush org sup obj kind old new).cl = s.cl := (logPush_notes s org sup obj kind old new).cl
@[simp] theorem logPush_ma (s : State) (org : Origin) (sup : Bool) (obj kind : Nat) (old new : Word) : (s.logPush org sup obj kind old new).ma = s.ma := (logPush_notes s org sup obj kind old new).ma
@[simp] theorem logPush_prb (s : State) (org : Origin) (sup : Bool) (obj kind : Nat) (old new : Word) : (s.logPush org sup obj kind old new).prb = s.prb := (logPush_notes s org sup obj kind old new).prb
@[simp] theorem logPush_ill (s : State) (org : Origin) (sup : Bool) (obj kind : Nat) (old new : Word) : (s.logPush org sup obj kind old new).ill = s.ill := (logPush_notes s org sup obj kind old new).ill
@[simp] theorem logPush_tags (s : State) (org : Origin) (sup : Bool) (obj kind : Nat) (old new : Word) : (s.logPush org sup obj kind old new).tags = s.tags := (logPush_notes s org sup obj kind old new).tags
@[simp] theorem logPush_lanes (s : State) (org : Origin) (sup : Bool) (obj kind : Nat) (old new : Word) : (s.logPush org sup obj kind old new).lanes = s.lanes := (logPush_notes s org sup obj kind old new).lanes
@[simp] theorem logPush_mcmd (s : State) (org : Origin) (sup : Bool) (obj kind : Nat) (old new : Word) : (s.logPush org sup obj kind old new).mcmd = s.mcmd := (logPush_notes s org sup obj kind old new).mcmd
@[simp] theorem logPush_link (s : State) (org : Origin) (sup : Bool) (obj kind : Nat) (old new : Word) : (s.logPush org sup obj kind old new).link = s.link := (logPush_notes s org sup obj kind old new).link
@[simp] theorem logPush_evt (s : State) (org : Origin) (sup : Bool) (obj kind : Nat) (old new : Word) : (s.logPush org sup obj kind old new).evt = s.evt := (logPush_notes s org sup obj kind old new).evt
@[simp] theorem logPush_safe (s : State) (org : Origin) (sup : Bool) (obj kind : Nat) (old new : Word) : (s.logPush org sup obj kind old new).safe = s.safe := (logPush_notes s org sup obj kind old new).safe
@[simp] theorem logPush_svc (s : State) (org : Origin) (sup : Bool) (obj kind : Nat) (old new : Word) : (s.logPush org sup obj kind old new).svc = s.svc := (logPush_notes s org sup obj kind old new).svc
@[simp] theorem logPush_hk (s : State) (org : Origin) (sup : Bool) (obj kind : Nat) (old new : Word) : (s.logPush org sup obj kind old new).hk = s.hk := (logPush_notes s org sup obj kind old new).hk
@[simp] theorem logPush_boot (s : State) (org : Origin) (sup : Bool) (obj kind : Nat) (old new : Word) : (s.logPush org sup obj kind old new).boot = s.boot := (logPush_notes s org sup obj kind old new).boot
@[simp] theorem logPush_fuse (s : State) (org : Origin) (sup : Bool) (obj kind : Nat) (old new : Word) : (s.logPush org sup obj kind old new).fuse = s.fuse := (logPush_notes s org sup obj kind old new).fuse
@[simp] theorem logPush_damper (s : State) (org : Origin) (sup : Bool) (obj kind : Nat) (old new : Word) : (s.logPush org sup obj kind old new).damper = s.damper := (logPush_notes s org sup obj kind old new).damper
@[simp] theorem logPush_pending (s : State) (org : Origin) (sup : Bool) (obj kind : Nat) (old new : Word) : (s.logPush org sup obj kind old new).pending = s.pending := (logPush_notes s org sup obj kind old new).pending

/-! logEvent. -/

@[simp] theorem logEvent_sram (s : State) (a b c d e : Nat) : (s.logEvent a b c d e).sram = s.sram := (logEvent_notes s a b c d e).sram
@[simp] theorem logEvent_bad (s : State) (a b c d e : Nat) : (s.logEvent a b c d e).bad = s.bad := (logEvent_notes s a b c d e).bad
@[simp] theorem logEvent_now (s : State) (a b c d e : Nat) : (s.logEvent a b c d e).now = s.now := (logEvent_notes s a b c d e).now
@[simp] theorem logEvent_free (s : State) (a b c d e : Nat) : (s.logEvent a b c d e).free = s.free := (logEvent_notes s a b c d e).free
@[simp] theorem logEvent_staged (s : State) (a b c d e : Nat) : (s.logEvent a b c d e).staged = s.staged := (logEvent_notes s a b c d e).staged
@[simp] theorem logEvent_time (s : State) (a b c d e : Nat) : (s.logEvent a b c d e).time = s.time := (logEvent_notes s a b c d e).time
@[simp] theorem logEvent_gang (s : State) (a b c d e : Nat) : (s.logEvent a b c d e).gang = s.gang := (logEvent_notes s a b c d e).gang
@[simp] theorem logEvent_eng (s : State) (a b c d e : Nat) : (s.logEvent a b c d e).eng = s.eng := (logEvent_notes s a b c d e).eng
@[simp] theorem logEvent_ch (s : State) (a b c d e : Nat) : (s.logEvent a b c d e).ch = s.ch := (logEvent_notes s a b c d e).ch
@[simp] theorem logEvent_loadQ (s : State) (a b c d e : Nat) : (s.logEvent a b c d e).loadQ = s.loadQ := (logEvent_notes s a b c d e).loadQ
@[simp] theorem logEvent_spare (s : State) (a b c d e : Nat) : (s.logEvent a b c d e).spare = s.spare := (logEvent_notes s a b c d e).spare
@[simp] theorem logEvent_vec (s : State) (a b c d e : Nat) : (s.logEvent a b c d e).vec = s.vec := (logEvent_notes s a b c d e).vec
@[simp] theorem logEvent_sync (s : State) (a b c d e : Nat) : (s.logEvent a b c d e).sync = s.sync := (logEvent_notes s a b c d e).sync
@[simp] theorem logEvent_ta (s : State) (a b c d e : Nat) : (s.logEvent a b c d e).ta = s.ta := (logEvent_notes s a b c d e).ta
@[simp] theorem logEvent_sv (s : State) (a b c d e : Nat) : (s.logEvent a b c d e).sv = s.sv := (logEvent_notes s a b c d e).sv
@[simp] theorem logEvent_gridQ (s : State) (a b c d e : Nat) : (s.logEvent a b c d e).gridQ = s.gridQ := (logEvent_notes s a b c d e).gridQ
@[simp] theorem logEvent_las (s : State) (a b c d e : Nat) : (s.logEvent a b c d e).las = s.las := (logEvent_notes s a b c d e).las
@[simp] theorem logEvent_lsafe (s : State) (a b c d e : Nat) : (s.logEvent a b c d e).lsafe = s.lsafe := (logEvent_notes s a b c d e).lsafe
@[simp] theorem logEvent_loop (s : State) (a b c d e : Nat) : (s.logEvent a b c d e).loop = s.loop := (logEvent_notes s a b c d e).loop
@[simp] theorem logEvent_trace (s : State) (a b c d e : Nat) : (s.logEvent a b c d e).trace = s.trace := (logEvent_notes s a b c d e).trace
@[simp] theorem logEvent_camTr (s : State) (a b c d e : Nat) : (s.logEvent a b c d e).camTr = s.camTr := (logEvent_notes s a b c d e).camTr
@[simp] theorem logEvent_em (s : State) (a b c d e : Nat) : (s.logEvent a b c d e).em = s.em := (logEvent_notes s a b c d e).em
@[simp] theorem logEvent_gd (s : State) (a b c d e : Nat) : (s.logEvent a b c d e).gd = s.gd := (logEvent_notes s a b c d e).gd
@[simp] theorem logEvent_gm (s : State) (a b c d e : Nat) : (s.logEvent a b c d e).gm = s.gm := (logEvent_notes s a b c d e).gm
@[simp] theorem logEvent_cam (s : State) (a b c d e : Nat) : (s.logEvent a b c d e).cam = s.cam := (logEvent_notes s a b c d e).cam
@[simp] theorem logEvent_cal (s : State) (a b c d e : Nat) : (s.logEvent a b c d e).cal = s.cal := (logEvent_notes s a b c d e).cal
@[simp] theorem logEvent_camEst (s : State) (a b c d e : Nat) : (s.logEvent a b c d e).camEst = s.camEst := (logEvent_notes s a b c d e).camEst
@[simp] theorem logEvent_pool (s : State) (a b c d e : Nat) : (s.logEvent a b c d e).pool = s.pool := (logEvent_notes s a b c d e).pool
@[simp] theorem logEvent_cl (s : State) (a b c d e : Nat) : (s.logEvent a b c d e).cl = s.cl := (logEvent_notes s a b c d e).cl
@[simp] theorem logEvent_ma (s : State) (a b c d e : Nat) : (s.logEvent a b c d e).ma = s.ma := (logEvent_notes s a b c d e).ma
@[simp] theorem logEvent_prb (s : State) (a b c d e : Nat) : (s.logEvent a b c d e).prb = s.prb := (logEvent_notes s a b c d e).prb
@[simp] theorem logEvent_ill (s : State) (a b c d e : Nat) : (s.logEvent a b c d e).ill = s.ill := (logEvent_notes s a b c d e).ill
@[simp] theorem logEvent_tags (s : State) (a b c d e : Nat) : (s.logEvent a b c d e).tags = s.tags := (logEvent_notes s a b c d e).tags
@[simp] theorem logEvent_lanes (s : State) (a b c d e : Nat) : (s.logEvent a b c d e).lanes = s.lanes := (logEvent_notes s a b c d e).lanes
@[simp] theorem logEvent_mcmd (s : State) (a b c d e : Nat) : (s.logEvent a b c d e).mcmd = s.mcmd := (logEvent_notes s a b c d e).mcmd
@[simp] theorem logEvent_link (s : State) (a b c d e : Nat) : (s.logEvent a b c d e).link = s.link := (logEvent_notes s a b c d e).link
@[simp] theorem logEvent_evt (s : State) (a b c d e : Nat) : (s.logEvent a b c d e).evt = s.evt := (logEvent_notes s a b c d e).evt
@[simp] theorem logEvent_safe (s : State) (a b c d e : Nat) : (s.logEvent a b c d e).safe = s.safe := (logEvent_notes s a b c d e).safe
@[simp] theorem logEvent_svc (s : State) (a b c d e : Nat) : (s.logEvent a b c d e).svc = s.svc := (logEvent_notes s a b c d e).svc
@[simp] theorem logEvent_hk (s : State) (a b c d e : Nat) : (s.logEvent a b c d e).hk = s.hk := (logEvent_notes s a b c d e).hk
@[simp] theorem logEvent_boot (s : State) (a b c d e : Nat) : (s.logEvent a b c d e).boot = s.boot := (logEvent_notes s a b c d e).boot
@[simp] theorem logEvent_fuse (s : State) (a b c d e : Nat) : (s.logEvent a b c d e).fuse = s.fuse := (logEvent_notes s a b c d e).fuse
@[simp] theorem logEvent_damper (s : State) (a b c d e : Nat) : (s.logEvent a b c d e).damper = s.damper := (logEvent_notes s a b c d e).damper
@[simp] theorem logEvent_pending (s : State) (a b c d e : Nat) : (s.logEvent a b c d e).pending = s.pending := (logEvent_notes s a b c d e).pending

/-! logRunBy. -/

@[simp] theorem logRunBy_sram (s : State) (org : Origin) (k obj : Nat) (bs : List Byte) : (s.logRunBy org k obj bs).sram = s.sram := (logRunBy_notes s org k obj bs).sram
@[simp] theorem logRunBy_bad (s : State) (org : Origin) (k obj : Nat) (bs : List Byte) : (s.logRunBy org k obj bs).bad = s.bad := (logRunBy_notes s org k obj bs).bad
@[simp] theorem logRunBy_now (s : State) (org : Origin) (k obj : Nat) (bs : List Byte) : (s.logRunBy org k obj bs).now = s.now := (logRunBy_notes s org k obj bs).now
@[simp] theorem logRunBy_free (s : State) (org : Origin) (k obj : Nat) (bs : List Byte) : (s.logRunBy org k obj bs).free = s.free := (logRunBy_notes s org k obj bs).free
@[simp] theorem logRunBy_staged (s : State) (org : Origin) (k obj : Nat) (bs : List Byte) : (s.logRunBy org k obj bs).staged = s.staged := (logRunBy_notes s org k obj bs).staged
@[simp] theorem logRunBy_time (s : State) (org : Origin) (k obj : Nat) (bs : List Byte) : (s.logRunBy org k obj bs).time = s.time := (logRunBy_notes s org k obj bs).time
@[simp] theorem logRunBy_gang (s : State) (org : Origin) (k obj : Nat) (bs : List Byte) : (s.logRunBy org k obj bs).gang = s.gang := (logRunBy_notes s org k obj bs).gang
@[simp] theorem logRunBy_eng (s : State) (org : Origin) (k obj : Nat) (bs : List Byte) : (s.logRunBy org k obj bs).eng = s.eng := (logRunBy_notes s org k obj bs).eng
@[simp] theorem logRunBy_ch (s : State) (org : Origin) (k obj : Nat) (bs : List Byte) : (s.logRunBy org k obj bs).ch = s.ch := (logRunBy_notes s org k obj bs).ch
@[simp] theorem logRunBy_loadQ (s : State) (org : Origin) (k obj : Nat) (bs : List Byte) : (s.logRunBy org k obj bs).loadQ = s.loadQ := (logRunBy_notes s org k obj bs).loadQ
@[simp] theorem logRunBy_spare (s : State) (org : Origin) (k obj : Nat) (bs : List Byte) : (s.logRunBy org k obj bs).spare = s.spare := (logRunBy_notes s org k obj bs).spare
@[simp] theorem logRunBy_vec (s : State) (org : Origin) (k obj : Nat) (bs : List Byte) : (s.logRunBy org k obj bs).vec = s.vec := (logRunBy_notes s org k obj bs).vec
@[simp] theorem logRunBy_sync (s : State) (org : Origin) (k obj : Nat) (bs : List Byte) : (s.logRunBy org k obj bs).sync = s.sync := (logRunBy_notes s org k obj bs).sync
@[simp] theorem logRunBy_ta (s : State) (org : Origin) (k obj : Nat) (bs : List Byte) : (s.logRunBy org k obj bs).ta = s.ta := (logRunBy_notes s org k obj bs).ta
@[simp] theorem logRunBy_sv (s : State) (org : Origin) (k obj : Nat) (bs : List Byte) : (s.logRunBy org k obj bs).sv = s.sv := (logRunBy_notes s org k obj bs).sv
@[simp] theorem logRunBy_gridQ (s : State) (org : Origin) (k obj : Nat) (bs : List Byte) : (s.logRunBy org k obj bs).gridQ = s.gridQ := (logRunBy_notes s org k obj bs).gridQ
@[simp] theorem logRunBy_las (s : State) (org : Origin) (k obj : Nat) (bs : List Byte) : (s.logRunBy org k obj bs).las = s.las := (logRunBy_notes s org k obj bs).las
@[simp] theorem logRunBy_lsafe (s : State) (org : Origin) (k obj : Nat) (bs : List Byte) : (s.logRunBy org k obj bs).lsafe = s.lsafe := (logRunBy_notes s org k obj bs).lsafe
@[simp] theorem logRunBy_loop (s : State) (org : Origin) (k obj : Nat) (bs : List Byte) : (s.logRunBy org k obj bs).loop = s.loop := (logRunBy_notes s org k obj bs).loop
@[simp] theorem logRunBy_trace (s : State) (org : Origin) (k obj : Nat) (bs : List Byte) : (s.logRunBy org k obj bs).trace = s.trace := (logRunBy_notes s org k obj bs).trace
@[simp] theorem logRunBy_camTr (s : State) (org : Origin) (k obj : Nat) (bs : List Byte) : (s.logRunBy org k obj bs).camTr = s.camTr := (logRunBy_notes s org k obj bs).camTr
@[simp] theorem logRunBy_em (s : State) (org : Origin) (k obj : Nat) (bs : List Byte) : (s.logRunBy org k obj bs).em = s.em := (logRunBy_notes s org k obj bs).em
@[simp] theorem logRunBy_gd (s : State) (org : Origin) (k obj : Nat) (bs : List Byte) : (s.logRunBy org k obj bs).gd = s.gd := (logRunBy_notes s org k obj bs).gd
@[simp] theorem logRunBy_gm (s : State) (org : Origin) (k obj : Nat) (bs : List Byte) : (s.logRunBy org k obj bs).gm = s.gm := (logRunBy_notes s org k obj bs).gm
@[simp] theorem logRunBy_cam (s : State) (org : Origin) (k obj : Nat) (bs : List Byte) : (s.logRunBy org k obj bs).cam = s.cam := (logRunBy_notes s org k obj bs).cam
@[simp] theorem logRunBy_cal (s : State) (org : Origin) (k obj : Nat) (bs : List Byte) : (s.logRunBy org k obj bs).cal = s.cal := (logRunBy_notes s org k obj bs).cal
@[simp] theorem logRunBy_camEst (s : State) (org : Origin) (k obj : Nat) (bs : List Byte) : (s.logRunBy org k obj bs).camEst = s.camEst := (logRunBy_notes s org k obj bs).camEst
@[simp] theorem logRunBy_pool (s : State) (org : Origin) (k obj : Nat) (bs : List Byte) : (s.logRunBy org k obj bs).pool = s.pool := (logRunBy_notes s org k obj bs).pool
@[simp] theorem logRunBy_cl (s : State) (org : Origin) (k obj : Nat) (bs : List Byte) : (s.logRunBy org k obj bs).cl = s.cl := (logRunBy_notes s org k obj bs).cl
@[simp] theorem logRunBy_ma (s : State) (org : Origin) (k obj : Nat) (bs : List Byte) : (s.logRunBy org k obj bs).ma = s.ma := (logRunBy_notes s org k obj bs).ma
@[simp] theorem logRunBy_prb (s : State) (org : Origin) (k obj : Nat) (bs : List Byte) : (s.logRunBy org k obj bs).prb = s.prb := (logRunBy_notes s org k obj bs).prb
@[simp] theorem logRunBy_ill (s : State) (org : Origin) (k obj : Nat) (bs : List Byte) : (s.logRunBy org k obj bs).ill = s.ill := (logRunBy_notes s org k obj bs).ill
@[simp] theorem logRunBy_tags (s : State) (org : Origin) (k obj : Nat) (bs : List Byte) : (s.logRunBy org k obj bs).tags = s.tags := (logRunBy_notes s org k obj bs).tags
@[simp] theorem logRunBy_lanes (s : State) (org : Origin) (k obj : Nat) (bs : List Byte) : (s.logRunBy org k obj bs).lanes = s.lanes := (logRunBy_notes s org k obj bs).lanes
@[simp] theorem logRunBy_mcmd (s : State) (org : Origin) (k obj : Nat) (bs : List Byte) : (s.logRunBy org k obj bs).mcmd = s.mcmd := (logRunBy_notes s org k obj bs).mcmd
@[simp] theorem logRunBy_link (s : State) (org : Origin) (k obj : Nat) (bs : List Byte) : (s.logRunBy org k obj bs).link = s.link := (logRunBy_notes s org k obj bs).link
@[simp] theorem logRunBy_evt (s : State) (org : Origin) (k obj : Nat) (bs : List Byte) : (s.logRunBy org k obj bs).evt = s.evt := (logRunBy_notes s org k obj bs).evt
@[simp] theorem logRunBy_safe (s : State) (org : Origin) (k obj : Nat) (bs : List Byte) : (s.logRunBy org k obj bs).safe = s.safe := (logRunBy_notes s org k obj bs).safe
@[simp] theorem logRunBy_svc (s : State) (org : Origin) (k obj : Nat) (bs : List Byte) : (s.logRunBy org k obj bs).svc = s.svc := (logRunBy_notes s org k obj bs).svc
@[simp] theorem logRunBy_hk (s : State) (org : Origin) (k obj : Nat) (bs : List Byte) : (s.logRunBy org k obj bs).hk = s.hk := (logRunBy_notes s org k obj bs).hk
@[simp] theorem logRunBy_boot (s : State) (org : Origin) (k obj : Nat) (bs : List Byte) : (s.logRunBy org k obj bs).boot = s.boot := (logRunBy_notes s org k obj bs).boot
@[simp] theorem logRunBy_fuse (s : State) (org : Origin) (k obj : Nat) (bs : List Byte) : (s.logRunBy org k obj bs).fuse = s.fuse := (logRunBy_notes s org k obj bs).fuse
@[simp] theorem logRunBy_damper (s : State) (org : Origin) (k obj : Nat) (bs : List Byte) : (s.logRunBy org k obj bs).damper = s.damper := (logRunBy_notes s org k obj bs).damper
@[simp] theorem logRunBy_pending (s : State) (org : Origin) (k obj : Nat) (bs : List Byte) : (s.logRunBy org k obj bs).pending = s.pending := (logRunBy_notes s org k obj bs).pending

/-! hwWrite. -/

@[simp] theorem hwWrite_sram (s : State) (a : Nat) (v : Word) : (s.hwWrite a v).sram = s.sram := (hwWrite_notes s a v).sram
@[simp] theorem hwWrite_bad (s : State) (a : Nat) (v : Word) : (s.hwWrite a v).bad = s.bad := (hwWrite_notes s a v).bad
@[simp] theorem hwWrite_now (s : State) (a : Nat) (v : Word) : (s.hwWrite a v).now = s.now := (hwWrite_notes s a v).now
@[simp] theorem hwWrite_free (s : State) (a : Nat) (v : Word) : (s.hwWrite a v).free = s.free := (hwWrite_notes s a v).free
@[simp] theorem hwWrite_staged (s : State) (a : Nat) (v : Word) : (s.hwWrite a v).staged = s.staged := (hwWrite_notes s a v).staged
@[simp] theorem hwWrite_time (s : State) (a : Nat) (v : Word) : (s.hwWrite a v).time = s.time := (hwWrite_notes s a v).time
@[simp] theorem hwWrite_gang (s : State) (a : Nat) (v : Word) : (s.hwWrite a v).gang = s.gang := (hwWrite_notes s a v).gang
@[simp] theorem hwWrite_eng (s : State) (a : Nat) (v : Word) : (s.hwWrite a v).eng = s.eng := (hwWrite_notes s a v).eng
@[simp] theorem hwWrite_ch (s : State) (a : Nat) (v : Word) : (s.hwWrite a v).ch = s.ch := (hwWrite_notes s a v).ch
@[simp] theorem hwWrite_loadQ (s : State) (a : Nat) (v : Word) : (s.hwWrite a v).loadQ = s.loadQ := (hwWrite_notes s a v).loadQ
@[simp] theorem hwWrite_spare (s : State) (a : Nat) (v : Word) : (s.hwWrite a v).spare = s.spare := (hwWrite_notes s a v).spare
@[simp] theorem hwWrite_vec (s : State) (a : Nat) (v : Word) : (s.hwWrite a v).vec = s.vec := (hwWrite_notes s a v).vec
@[simp] theorem hwWrite_sync (s : State) (a : Nat) (v : Word) : (s.hwWrite a v).sync = s.sync := (hwWrite_notes s a v).sync
@[simp] theorem hwWrite_ta (s : State) (a : Nat) (v : Word) : (s.hwWrite a v).ta = s.ta := (hwWrite_notes s a v).ta
@[simp] theorem hwWrite_sv (s : State) (a : Nat) (v : Word) : (s.hwWrite a v).sv = s.sv := (hwWrite_notes s a v).sv
@[simp] theorem hwWrite_gridQ (s : State) (a : Nat) (v : Word) : (s.hwWrite a v).gridQ = s.gridQ := (hwWrite_notes s a v).gridQ
@[simp] theorem hwWrite_las (s : State) (a : Nat) (v : Word) : (s.hwWrite a v).las = s.las := (hwWrite_notes s a v).las
@[simp] theorem hwWrite_lsafe (s : State) (a : Nat) (v : Word) : (s.hwWrite a v).lsafe = s.lsafe := (hwWrite_notes s a v).lsafe
@[simp] theorem hwWrite_loop (s : State) (a : Nat) (v : Word) : (s.hwWrite a v).loop = s.loop := (hwWrite_notes s a v).loop
@[simp] theorem hwWrite_trace (s : State) (a : Nat) (v : Word) : (s.hwWrite a v).trace = s.trace := (hwWrite_notes s a v).trace
@[simp] theorem hwWrite_camTr (s : State) (a : Nat) (v : Word) : (s.hwWrite a v).camTr = s.camTr := (hwWrite_notes s a v).camTr
@[simp] theorem hwWrite_em (s : State) (a : Nat) (v : Word) : (s.hwWrite a v).em = s.em := (hwWrite_notes s a v).em
@[simp] theorem hwWrite_gd (s : State) (a : Nat) (v : Word) : (s.hwWrite a v).gd = s.gd := (hwWrite_notes s a v).gd
@[simp] theorem hwWrite_gm (s : State) (a : Nat) (v : Word) : (s.hwWrite a v).gm = s.gm := (hwWrite_notes s a v).gm
@[simp] theorem hwWrite_cam (s : State) (a : Nat) (v : Word) : (s.hwWrite a v).cam = s.cam := (hwWrite_notes s a v).cam
@[simp] theorem hwWrite_cal (s : State) (a : Nat) (v : Word) : (s.hwWrite a v).cal = s.cal := (hwWrite_notes s a v).cal
@[simp] theorem hwWrite_camEst (s : State) (a : Nat) (v : Word) : (s.hwWrite a v).camEst = s.camEst := (hwWrite_notes s a v).camEst
@[simp] theorem hwWrite_pool (s : State) (a : Nat) (v : Word) : (s.hwWrite a v).pool = s.pool := (hwWrite_notes s a v).pool
@[simp] theorem hwWrite_cl (s : State) (a : Nat) (v : Word) : (s.hwWrite a v).cl = s.cl := (hwWrite_notes s a v).cl
@[simp] theorem hwWrite_ma (s : State) (a : Nat) (v : Word) : (s.hwWrite a v).ma = s.ma := (hwWrite_notes s a v).ma
@[simp] theorem hwWrite_prb (s : State) (a : Nat) (v : Word) : (s.hwWrite a v).prb = s.prb := (hwWrite_notes s a v).prb
@[simp] theorem hwWrite_ill (s : State) (a : Nat) (v : Word) : (s.hwWrite a v).ill = s.ill := (hwWrite_notes s a v).ill
@[simp] theorem hwWrite_tags (s : State) (a : Nat) (v : Word) : (s.hwWrite a v).tags = s.tags := (hwWrite_notes s a v).tags
@[simp] theorem hwWrite_lanes (s : State) (a : Nat) (v : Word) : (s.hwWrite a v).lanes = s.lanes := (hwWrite_notes s a v).lanes
@[simp] theorem hwWrite_mcmd (s : State) (a : Nat) (v : Word) : (s.hwWrite a v).mcmd = s.mcmd := (hwWrite_notes s a v).mcmd
@[simp] theorem hwWrite_link (s : State) (a : Nat) (v : Word) : (s.hwWrite a v).link = s.link := (hwWrite_notes s a v).link
@[simp] theorem hwWrite_evt (s : State) (a : Nat) (v : Word) : (s.hwWrite a v).evt = s.evt := (hwWrite_notes s a v).evt
@[simp] theorem hwWrite_safe (s : State) (a : Nat) (v : Word) : (s.hwWrite a v).safe = s.safe := (hwWrite_notes s a v).safe
@[simp] theorem hwWrite_svc (s : State) (a : Nat) (v : Word) : (s.hwWrite a v).svc = s.svc := (hwWrite_notes s a v).svc
@[simp] theorem hwWrite_hk (s : State) (a : Nat) (v : Word) : (s.hwWrite a v).hk = s.hk := (hwWrite_notes s a v).hk
@[simp] theorem hwWrite_boot (s : State) (a : Nat) (v : Word) : (s.hwWrite a v).boot = s.boot := (hwWrite_notes s a v).boot
@[simp] theorem hwWrite_fuse (s : State) (a : Nat) (v : Word) : (s.hwWrite a v).fuse = s.fuse := (hwWrite_notes s a v).fuse
@[simp] theorem hwWrite_damper (s : State) (a : Nat) (v : Word) : (s.hwWrite a v).damper = s.damper := (hwWrite_notes s a v).damper
@[simp] theorem hwWrite_pending (s : State) (a : Nat) (v : Word) : (s.hwWrite a v).pending = s.pending := (hwWrite_notes s a v).pending

/-! denyWith. -/

@[simp] theorem denyWith_sram (s : State) (org : Origin) (a : Nat) (x v : Word) : (s.denyWith org a x v).sram = s.sram := (denyWith_notes s org a x v).sram
@[simp] theorem denyWith_bad (s : State) (org : Origin) (a : Nat) (x v : Word) : (s.denyWith org a x v).bad = s.bad := (denyWith_notes s org a x v).bad
@[simp] theorem denyWith_now (s : State) (org : Origin) (a : Nat) (x v : Word) : (s.denyWith org a x v).now = s.now := (denyWith_notes s org a x v).now
@[simp] theorem denyWith_free (s : State) (org : Origin) (a : Nat) (x v : Word) : (s.denyWith org a x v).free = s.free := (denyWith_notes s org a x v).free
@[simp] theorem denyWith_staged (s : State) (org : Origin) (a : Nat) (x v : Word) : (s.denyWith org a x v).staged = s.staged := (denyWith_notes s org a x v).staged
@[simp] theorem denyWith_time (s : State) (org : Origin) (a : Nat) (x v : Word) : (s.denyWith org a x v).time = s.time := (denyWith_notes s org a x v).time
@[simp] theorem denyWith_gang (s : State) (org : Origin) (a : Nat) (x v : Word) : (s.denyWith org a x v).gang = s.gang := (denyWith_notes s org a x v).gang
@[simp] theorem denyWith_eng (s : State) (org : Origin) (a : Nat) (x v : Word) : (s.denyWith org a x v).eng = s.eng := (denyWith_notes s org a x v).eng
@[simp] theorem denyWith_ch (s : State) (org : Origin) (a : Nat) (x v : Word) : (s.denyWith org a x v).ch = s.ch := (denyWith_notes s org a x v).ch
@[simp] theorem denyWith_loadQ (s : State) (org : Origin) (a : Nat) (x v : Word) : (s.denyWith org a x v).loadQ = s.loadQ := (denyWith_notes s org a x v).loadQ
@[simp] theorem denyWith_spare (s : State) (org : Origin) (a : Nat) (x v : Word) : (s.denyWith org a x v).spare = s.spare := (denyWith_notes s org a x v).spare
@[simp] theorem denyWith_vec (s : State) (org : Origin) (a : Nat) (x v : Word) : (s.denyWith org a x v).vec = s.vec := (denyWith_notes s org a x v).vec
@[simp] theorem denyWith_sync (s : State) (org : Origin) (a : Nat) (x v : Word) : (s.denyWith org a x v).sync = s.sync := (denyWith_notes s org a x v).sync
@[simp] theorem denyWith_ta (s : State) (org : Origin) (a : Nat) (x v : Word) : (s.denyWith org a x v).ta = s.ta := (denyWith_notes s org a x v).ta
@[simp] theorem denyWith_sv (s : State) (org : Origin) (a : Nat) (x v : Word) : (s.denyWith org a x v).sv = s.sv := (denyWith_notes s org a x v).sv
@[simp] theorem denyWith_gridQ (s : State) (org : Origin) (a : Nat) (x v : Word) : (s.denyWith org a x v).gridQ = s.gridQ := (denyWith_notes s org a x v).gridQ
@[simp] theorem denyWith_las (s : State) (org : Origin) (a : Nat) (x v : Word) : (s.denyWith org a x v).las = s.las := (denyWith_notes s org a x v).las
@[simp] theorem denyWith_lsafe (s : State) (org : Origin) (a : Nat) (x v : Word) : (s.denyWith org a x v).lsafe = s.lsafe := (denyWith_notes s org a x v).lsafe
@[simp] theorem denyWith_loop (s : State) (org : Origin) (a : Nat) (x v : Word) : (s.denyWith org a x v).loop = s.loop := (denyWith_notes s org a x v).loop
@[simp] theorem denyWith_trace (s : State) (org : Origin) (a : Nat) (x v : Word) : (s.denyWith org a x v).trace = s.trace := (denyWith_notes s org a x v).trace
@[simp] theorem denyWith_camTr (s : State) (org : Origin) (a : Nat) (x v : Word) : (s.denyWith org a x v).camTr = s.camTr := (denyWith_notes s org a x v).camTr
@[simp] theorem denyWith_em (s : State) (org : Origin) (a : Nat) (x v : Word) : (s.denyWith org a x v).em = s.em := (denyWith_notes s org a x v).em
@[simp] theorem denyWith_gd (s : State) (org : Origin) (a : Nat) (x v : Word) : (s.denyWith org a x v).gd = s.gd := (denyWith_notes s org a x v).gd
@[simp] theorem denyWith_gm (s : State) (org : Origin) (a : Nat) (x v : Word) : (s.denyWith org a x v).gm = s.gm := (denyWith_notes s org a x v).gm
@[simp] theorem denyWith_cam (s : State) (org : Origin) (a : Nat) (x v : Word) : (s.denyWith org a x v).cam = s.cam := (denyWith_notes s org a x v).cam
@[simp] theorem denyWith_cal (s : State) (org : Origin) (a : Nat) (x v : Word) : (s.denyWith org a x v).cal = s.cal := (denyWith_notes s org a x v).cal
@[simp] theorem denyWith_camEst (s : State) (org : Origin) (a : Nat) (x v : Word) : (s.denyWith org a x v).camEst = s.camEst := (denyWith_notes s org a x v).camEst
@[simp] theorem denyWith_pool (s : State) (org : Origin) (a : Nat) (x v : Word) : (s.denyWith org a x v).pool = s.pool := (denyWith_notes s org a x v).pool
@[simp] theorem denyWith_cl (s : State) (org : Origin) (a : Nat) (x v : Word) : (s.denyWith org a x v).cl = s.cl := (denyWith_notes s org a x v).cl
@[simp] theorem denyWith_ma (s : State) (org : Origin) (a : Nat) (x v : Word) : (s.denyWith org a x v).ma = s.ma := (denyWith_notes s org a x v).ma
@[simp] theorem denyWith_prb (s : State) (org : Origin) (a : Nat) (x v : Word) : (s.denyWith org a x v).prb = s.prb := (denyWith_notes s org a x v).prb
@[simp] theorem denyWith_ill (s : State) (org : Origin) (a : Nat) (x v : Word) : (s.denyWith org a x v).ill = s.ill := (denyWith_notes s org a x v).ill
@[simp] theorem denyWith_tags (s : State) (org : Origin) (a : Nat) (x v : Word) : (s.denyWith org a x v).tags = s.tags := (denyWith_notes s org a x v).tags
@[simp] theorem denyWith_lanes (s : State) (org : Origin) (a : Nat) (x v : Word) : (s.denyWith org a x v).lanes = s.lanes := (denyWith_notes s org a x v).lanes
@[simp] theorem denyWith_mcmd (s : State) (org : Origin) (a : Nat) (x v : Word) : (s.denyWith org a x v).mcmd = s.mcmd := (denyWith_notes s org a x v).mcmd
@[simp] theorem denyWith_link (s : State) (org : Origin) (a : Nat) (x v : Word) : (s.denyWith org a x v).link = s.link := (denyWith_notes s org a x v).link
@[simp] theorem denyWith_evt (s : State) (org : Origin) (a : Nat) (x v : Word) : (s.denyWith org a x v).evt = s.evt := (denyWith_notes s org a x v).evt
@[simp] theorem denyWith_safe (s : State) (org : Origin) (a : Nat) (x v : Word) : (s.denyWith org a x v).safe = s.safe := (denyWith_notes s org a x v).safe
@[simp] theorem denyWith_svc (s : State) (org : Origin) (a : Nat) (x v : Word) : (s.denyWith org a x v).svc = s.svc := (denyWith_notes s org a x v).svc
@[simp] theorem denyWith_hk (s : State) (org : Origin) (a : Nat) (x v : Word) : (s.denyWith org a x v).hk = s.hk := (denyWith_notes s org a x v).hk
@[simp] theorem denyWith_boot (s : State) (org : Origin) (a : Nat) (x v : Word) : (s.denyWith org a x v).boot = s.boot := (denyWith_notes s org a x v).boot
@[simp] theorem denyWith_fuse (s : State) (org : Origin) (a : Nat) (x v : Word) : (s.denyWith org a x v).fuse = s.fuse := (denyWith_notes s org a x v).fuse
@[simp] theorem denyWith_damper (s : State) (org : Origin) (a : Nat) (x v : Word) : (s.denyWith org a x v).damper = s.damper := (denyWith_notes s org a x v).damper
@[simp] theorem denyWith_pending (s : State) (org : Origin) (a : Nat) (x v : Word) : (s.denyWith org a x v).pending = s.pending := (denyWith_notes s org a x v).pending

/-! suppressEnd. -/

@[simp] theorem suppressEnd_sram (s : State)  : s.suppressEnd.sram = s.sram := (suppressEnd_notes s).sram
@[simp] theorem suppressEnd_bad (s : State)  : s.suppressEnd.bad = s.bad := (suppressEnd_notes s).bad
@[simp] theorem suppressEnd_now (s : State)  : s.suppressEnd.now = s.now := (suppressEnd_notes s).now
@[simp] theorem suppressEnd_free (s : State)  : s.suppressEnd.free = s.free := (suppressEnd_notes s).free
@[simp] theorem suppressEnd_staged (s : State)  : s.suppressEnd.staged = s.staged := (suppressEnd_notes s).staged
@[simp] theorem suppressEnd_time (s : State)  : s.suppressEnd.time = s.time := (suppressEnd_notes s).time
@[simp] theorem suppressEnd_gang (s : State)  : s.suppressEnd.gang = s.gang := (suppressEnd_notes s).gang
@[simp] theorem suppressEnd_eng (s : State)  : s.suppressEnd.eng = s.eng := (suppressEnd_notes s).eng
@[simp] theorem suppressEnd_ch (s : State)  : s.suppressEnd.ch = s.ch := (suppressEnd_notes s).ch
@[simp] theorem suppressEnd_loadQ (s : State)  : s.suppressEnd.loadQ = s.loadQ := (suppressEnd_notes s).loadQ
@[simp] theorem suppressEnd_spare (s : State)  : s.suppressEnd.spare = s.spare := (suppressEnd_notes s).spare
@[simp] theorem suppressEnd_vec (s : State)  : s.suppressEnd.vec = s.vec := (suppressEnd_notes s).vec
@[simp] theorem suppressEnd_sync (s : State)  : s.suppressEnd.sync = s.sync := (suppressEnd_notes s).sync
@[simp] theorem suppressEnd_ta (s : State)  : s.suppressEnd.ta = s.ta := (suppressEnd_notes s).ta
@[simp] theorem suppressEnd_sv (s : State)  : s.suppressEnd.sv = s.sv := (suppressEnd_notes s).sv
@[simp] theorem suppressEnd_gridQ (s : State)  : s.suppressEnd.gridQ = s.gridQ := (suppressEnd_notes s).gridQ
@[simp] theorem suppressEnd_las (s : State)  : s.suppressEnd.las = s.las := (suppressEnd_notes s).las
@[simp] theorem suppressEnd_lsafe (s : State)  : s.suppressEnd.lsafe = s.lsafe := (suppressEnd_notes s).lsafe
@[simp] theorem suppressEnd_loop (s : State)  : s.suppressEnd.loop = s.loop := (suppressEnd_notes s).loop
@[simp] theorem suppressEnd_trace (s : State)  : s.suppressEnd.trace = s.trace := (suppressEnd_notes s).trace
@[simp] theorem suppressEnd_camTr (s : State)  : s.suppressEnd.camTr = s.camTr := (suppressEnd_notes s).camTr
@[simp] theorem suppressEnd_em (s : State)  : s.suppressEnd.em = s.em := (suppressEnd_notes s).em
@[simp] theorem suppressEnd_gd (s : State)  : s.suppressEnd.gd = s.gd := (suppressEnd_notes s).gd
@[simp] theorem suppressEnd_gm (s : State)  : s.suppressEnd.gm = s.gm := (suppressEnd_notes s).gm
@[simp] theorem suppressEnd_cam (s : State)  : s.suppressEnd.cam = s.cam := (suppressEnd_notes s).cam
@[simp] theorem suppressEnd_cal (s : State)  : s.suppressEnd.cal = s.cal := (suppressEnd_notes s).cal
@[simp] theorem suppressEnd_camEst (s : State)  : s.suppressEnd.camEst = s.camEst := (suppressEnd_notes s).camEst
@[simp] theorem suppressEnd_pool (s : State)  : s.suppressEnd.pool = s.pool := (suppressEnd_notes s).pool
@[simp] theorem suppressEnd_cl (s : State)  : s.suppressEnd.cl = s.cl := (suppressEnd_notes s).cl
@[simp] theorem suppressEnd_ma (s : State)  : s.suppressEnd.ma = s.ma := (suppressEnd_notes s).ma
@[simp] theorem suppressEnd_prb (s : State)  : s.suppressEnd.prb = s.prb := (suppressEnd_notes s).prb
@[simp] theorem suppressEnd_ill (s : State)  : s.suppressEnd.ill = s.ill := (suppressEnd_notes s).ill
@[simp] theorem suppressEnd_tags (s : State)  : s.suppressEnd.tags = s.tags := (suppressEnd_notes s).tags
@[simp] theorem suppressEnd_lanes (s : State)  : s.suppressEnd.lanes = s.lanes := (suppressEnd_notes s).lanes
@[simp] theorem suppressEnd_mcmd (s : State)  : s.suppressEnd.mcmd = s.mcmd := (suppressEnd_notes s).mcmd
@[simp] theorem suppressEnd_link (s : State)  : s.suppressEnd.link = s.link := (suppressEnd_notes s).link
@[simp] theorem suppressEnd_evt (s : State)  : s.suppressEnd.evt = s.evt := (suppressEnd_notes s).evt
@[simp] theorem suppressEnd_safe (s : State)  : s.suppressEnd.safe = s.safe := (suppressEnd_notes s).safe
@[simp] theorem suppressEnd_svc (s : State)  : s.suppressEnd.svc = s.svc := (suppressEnd_notes s).svc
@[simp] theorem suppressEnd_hk (s : State)  : s.suppressEnd.hk = s.hk := (suppressEnd_notes s).hk
@[simp] theorem suppressEnd_boot (s : State)  : s.suppressEnd.boot = s.boot := (suppressEnd_notes s).boot
@[simp] theorem suppressEnd_fuse (s : State)  : s.suppressEnd.fuse = s.fuse := (suppressEnd_notes s).fuse
@[simp] theorem suppressEnd_damper (s : State)  : s.suppressEnd.damper = s.damper := (suppressEnd_notes s).damper
@[simp] theorem suppressEnd_pending (s : State)  : s.suppressEnd.pending = s.pending := (suppressEnd_notes s).pending

/-! evSet. -/

@[simp] theorem evSet_sram (s : State) (src : Nat) (x : Bool) : (s.evSet src x).sram = s.sram := (evSet_lines s src x).sram
@[simp] theorem evSet_bad (s : State) (src : Nat) (x : Bool) : (s.evSet src x).bad = s.bad := (evSet_lines s src x).bad
@[simp] theorem evSet_now (s : State) (src : Nat) (x : Bool) : (s.evSet src x).now = s.now := (evSet_lines s src x).now
@[simp] theorem evSet_free (s : State) (src : Nat) (x : Bool) : (s.evSet src x).free = s.free := (evSet_lines s src x).free
@[simp] theorem evSet_staged (s : State) (src : Nat) (x : Bool) : (s.evSet src x).staged = s.staged := (evSet_lines s src x).staged
@[simp] theorem evSet_time (s : State) (src : Nat) (x : Bool) : (s.evSet src x).time = s.time := (evSet_lines s src x).time
@[simp] theorem evSet_gang (s : State) (src : Nat) (x : Bool) : (s.evSet src x).gang = s.gang := (evSet_lines s src x).gang
@[simp] theorem evSet_eng (s : State) (src : Nat) (x : Bool) : (s.evSet src x).eng = s.eng := (evSet_lines s src x).eng
@[simp] theorem evSet_ch (s : State) (src : Nat) (x : Bool) : (s.evSet src x).ch = s.ch := (evSet_lines s src x).ch
@[simp] theorem evSet_loadQ (s : State) (src : Nat) (x : Bool) : (s.evSet src x).loadQ = s.loadQ := (evSet_lines s src x).loadQ
@[simp] theorem evSet_spare (s : State) (src : Nat) (x : Bool) : (s.evSet src x).spare = s.spare := (evSet_lines s src x).spare
@[simp] theorem evSet_vec (s : State) (src : Nat) (x : Bool) : (s.evSet src x).vec = s.vec := (evSet_lines s src x).vec
@[simp] theorem evSet_sync (s : State) (src : Nat) (x : Bool) : (s.evSet src x).sync = s.sync := (evSet_lines s src x).sync
@[simp] theorem evSet_ta (s : State) (src : Nat) (x : Bool) : (s.evSet src x).ta = s.ta := (evSet_lines s src x).ta
@[simp] theorem evSet_sv (s : State) (src : Nat) (x : Bool) : (s.evSet src x).sv = s.sv := (evSet_lines s src x).sv
@[simp] theorem evSet_gridQ (s : State) (src : Nat) (x : Bool) : (s.evSet src x).gridQ = s.gridQ := (evSet_lines s src x).gridQ
@[simp] theorem evSet_las (s : State) (src : Nat) (x : Bool) : (s.evSet src x).las = s.las := (evSet_lines s src x).las
@[simp] theorem evSet_lsafe (s : State) (src : Nat) (x : Bool) : (s.evSet src x).lsafe = s.lsafe := (evSet_lines s src x).lsafe
@[simp] theorem evSet_loop (s : State) (src : Nat) (x : Bool) : (s.evSet src x).loop = s.loop := (evSet_lines s src x).loop
@[simp] theorem evSet_trace (s : State) (src : Nat) (x : Bool) : (s.evSet src x).trace = s.trace := (evSet_lines s src x).trace
@[simp] theorem evSet_camTr (s : State) (src : Nat) (x : Bool) : (s.evSet src x).camTr = s.camTr := (evSet_lines s src x).camTr
@[simp] theorem evSet_em (s : State) (src : Nat) (x : Bool) : (s.evSet src x).em = s.em := (evSet_lines s src x).em
@[simp] theorem evSet_gd (s : State) (src : Nat) (x : Bool) : (s.evSet src x).gd = s.gd := (evSet_lines s src x).gd
@[simp] theorem evSet_gm (s : State) (src : Nat) (x : Bool) : (s.evSet src x).gm = s.gm := (evSet_lines s src x).gm
@[simp] theorem evSet_cam (s : State) (src : Nat) (x : Bool) : (s.evSet src x).cam = s.cam := (evSet_lines s src x).cam
@[simp] theorem evSet_cal (s : State) (src : Nat) (x : Bool) : (s.evSet src x).cal = s.cal := (evSet_lines s src x).cal
@[simp] theorem evSet_camEst (s : State) (src : Nat) (x : Bool) : (s.evSet src x).camEst = s.camEst := (evSet_lines s src x).camEst
@[simp] theorem evSet_pool (s : State) (src : Nat) (x : Bool) : (s.evSet src x).pool = s.pool := (evSet_lines s src x).pool
@[simp] theorem evSet_cl (s : State) (src : Nat) (x : Bool) : (s.evSet src x).cl = s.cl := (evSet_lines s src x).cl
@[simp] theorem evSet_ma (s : State) (src : Nat) (x : Bool) : (s.evSet src x).ma = s.ma := (evSet_lines s src x).ma
@[simp] theorem evSet_prb (s : State) (src : Nat) (x : Bool) : (s.evSet src x).prb = s.prb := (evSet_lines s src x).prb
@[simp] theorem evSet_ill (s : State) (src : Nat) (x : Bool) : (s.evSet src x).ill = s.ill := (evSet_lines s src x).ill
@[simp] theorem evSet_tags (s : State) (src : Nat) (x : Bool) : (s.evSet src x).tags = s.tags := (evSet_lines s src x).tags
@[simp] theorem evSet_lanes (s : State) (src : Nat) (x : Bool) : (s.evSet src x).lanes = s.lanes := (evSet_lines s src x).lanes
@[simp] theorem evSet_rings (s : State) (src : Nat) (x : Bool) : (s.evSet src x).rings = s.rings := (evSet_lines s src x).rings
@[simp] theorem evSet_mcmd (s : State) (src : Nat) (x : Bool) : (s.evSet src x).mcmd = s.mcmd := (evSet_lines s src x).mcmd
@[simp] theorem evSet_link (s : State) (src : Nat) (x : Bool) : (s.evSet src x).link = s.link := (evSet_lines s src x).link
@[simp] theorem evSet_ints (s : State) (src : Nat) (x : Bool) : (s.evSet src x).ints = s.ints := (evSet_lines s src x).ints
@[simp] theorem evSet_log (s : State) (src : Nat) (x : Bool) : (s.evSet src x).log = s.log := (evSet_lines s src x).log
@[simp] theorem evSet_safe (s : State) (src : Nat) (x : Bool) : (s.evSet src x).safe = s.safe := (evSet_lines s src x).safe
@[simp] theorem evSet_svc (s : State) (src : Nat) (x : Bool) : (s.evSet src x).svc = s.svc := (evSet_lines s src x).svc
@[simp] theorem evSet_hk (s : State) (src : Nat) (x : Bool) : (s.evSet src x).hk = s.hk := (evSet_lines s src x).hk
@[simp] theorem evSet_boot (s : State) (src : Nat) (x : Bool) : (s.evSet src x).boot = s.boot := (evSet_lines s src x).boot
@[simp] theorem evSet_fuse (s : State) (src : Nat) (x : Bool) : (s.evSet src x).fuse = s.fuse := (evSet_lines s src x).fuse
@[simp] theorem evSet_bank (s : State) (src : Nat) (x : Bool) : (s.evSet src x).bank = s.bank := (evSet_lines s src x).bank
@[simp] theorem evSet_damper (s : State) (src : Nat) (x : Bool) : (s.evSet src x).damper = s.damper := (evSet_lines s src x).damper
@[simp] theorem evSet_outs (s : State) (src : Nat) (x : Bool) : (s.evSet src x).outs = s.outs := (evSet_lines s src x).outs
@[simp] theorem evSet_pending (s : State) (src : Nat) (x : Bool) : (s.evSet src x).pending = s.pending := (evSet_lines s src x).pending

/-! evPulse. -/

@[simp] theorem evPulse_sram (s : State) (src : Nat) : (s.evPulse src).sram = s.sram := (evPulse_lines s src).sram
@[simp] theorem evPulse_bad (s : State) (src : Nat) : (s.evPulse src).bad = s.bad := (evPulse_lines s src).bad
@[simp] theorem evPulse_now (s : State) (src : Nat) : (s.evPulse src).now = s.now := (evPulse_lines s src).now
@[simp] theorem evPulse_free (s : State) (src : Nat) : (s.evPulse src).free = s.free := (evPulse_lines s src).free
@[simp] theorem evPulse_staged (s : State) (src : Nat) : (s.evPulse src).staged = s.staged := (evPulse_lines s src).staged
@[simp] theorem evPulse_time (s : State) (src : Nat) : (s.evPulse src).time = s.time := (evPulse_lines s src).time
@[simp] theorem evPulse_gang (s : State) (src : Nat) : (s.evPulse src).gang = s.gang := (evPulse_lines s src).gang
@[simp] theorem evPulse_eng (s : State) (src : Nat) : (s.evPulse src).eng = s.eng := (evPulse_lines s src).eng
@[simp] theorem evPulse_ch (s : State) (src : Nat) : (s.evPulse src).ch = s.ch := (evPulse_lines s src).ch
@[simp] theorem evPulse_loadQ (s : State) (src : Nat) : (s.evPulse src).loadQ = s.loadQ := (evPulse_lines s src).loadQ
@[simp] theorem evPulse_spare (s : State) (src : Nat) : (s.evPulse src).spare = s.spare := (evPulse_lines s src).spare
@[simp] theorem evPulse_vec (s : State) (src : Nat) : (s.evPulse src).vec = s.vec := (evPulse_lines s src).vec
@[simp] theorem evPulse_sync (s : State) (src : Nat) : (s.evPulse src).sync = s.sync := (evPulse_lines s src).sync
@[simp] theorem evPulse_ta (s : State) (src : Nat) : (s.evPulse src).ta = s.ta := (evPulse_lines s src).ta
@[simp] theorem evPulse_sv (s : State) (src : Nat) : (s.evPulse src).sv = s.sv := (evPulse_lines s src).sv
@[simp] theorem evPulse_gridQ (s : State) (src : Nat) : (s.evPulse src).gridQ = s.gridQ := (evPulse_lines s src).gridQ
@[simp] theorem evPulse_las (s : State) (src : Nat) : (s.evPulse src).las = s.las := (evPulse_lines s src).las
@[simp] theorem evPulse_lsafe (s : State) (src : Nat) : (s.evPulse src).lsafe = s.lsafe := (evPulse_lines s src).lsafe
@[simp] theorem evPulse_loop (s : State) (src : Nat) : (s.evPulse src).loop = s.loop := (evPulse_lines s src).loop
@[simp] theorem evPulse_trace (s : State) (src : Nat) : (s.evPulse src).trace = s.trace := (evPulse_lines s src).trace
@[simp] theorem evPulse_camTr (s : State) (src : Nat) : (s.evPulse src).camTr = s.camTr := (evPulse_lines s src).camTr
@[simp] theorem evPulse_em (s : State) (src : Nat) : (s.evPulse src).em = s.em := (evPulse_lines s src).em
@[simp] theorem evPulse_gd (s : State) (src : Nat) : (s.evPulse src).gd = s.gd := (evPulse_lines s src).gd
@[simp] theorem evPulse_gm (s : State) (src : Nat) : (s.evPulse src).gm = s.gm := (evPulse_lines s src).gm
@[simp] theorem evPulse_cam (s : State) (src : Nat) : (s.evPulse src).cam = s.cam := (evPulse_lines s src).cam
@[simp] theorem evPulse_cal (s : State) (src : Nat) : (s.evPulse src).cal = s.cal := (evPulse_lines s src).cal
@[simp] theorem evPulse_camEst (s : State) (src : Nat) : (s.evPulse src).camEst = s.camEst := (evPulse_lines s src).camEst
@[simp] theorem evPulse_pool (s : State) (src : Nat) : (s.evPulse src).pool = s.pool := (evPulse_lines s src).pool
@[simp] theorem evPulse_cl (s : State) (src : Nat) : (s.evPulse src).cl = s.cl := (evPulse_lines s src).cl
@[simp] theorem evPulse_ma (s : State) (src : Nat) : (s.evPulse src).ma = s.ma := (evPulse_lines s src).ma
@[simp] theorem evPulse_prb (s : State) (src : Nat) : (s.evPulse src).prb = s.prb := (evPulse_lines s src).prb
@[simp] theorem evPulse_ill (s : State) (src : Nat) : (s.evPulse src).ill = s.ill := (evPulse_lines s src).ill
@[simp] theorem evPulse_tags (s : State) (src : Nat) : (s.evPulse src).tags = s.tags := (evPulse_lines s src).tags
@[simp] theorem evPulse_lanes (s : State) (src : Nat) : (s.evPulse src).lanes = s.lanes := (evPulse_lines s src).lanes
@[simp] theorem evPulse_rings (s : State) (src : Nat) : (s.evPulse src).rings = s.rings := (evPulse_lines s src).rings
@[simp] theorem evPulse_mcmd (s : State) (src : Nat) : (s.evPulse src).mcmd = s.mcmd := (evPulse_lines s src).mcmd
@[simp] theorem evPulse_link (s : State) (src : Nat) : (s.evPulse src).link = s.link := (evPulse_lines s src).link
@[simp] theorem evPulse_ints (s : State) (src : Nat) : (s.evPulse src).ints = s.ints := (evPulse_lines s src).ints
@[simp] theorem evPulse_log (s : State) (src : Nat) : (s.evPulse src).log = s.log := (evPulse_lines s src).log
@[simp] theorem evPulse_safe (s : State) (src : Nat) : (s.evPulse src).safe = s.safe := (evPulse_lines s src).safe
@[simp] theorem evPulse_svc (s : State) (src : Nat) : (s.evPulse src).svc = s.svc := (evPulse_lines s src).svc
@[simp] theorem evPulse_hk (s : State) (src : Nat) : (s.evPulse src).hk = s.hk := (evPulse_lines s src).hk
@[simp] theorem evPulse_boot (s : State) (src : Nat) : (s.evPulse src).boot = s.boot := (evPulse_lines s src).boot
@[simp] theorem evPulse_fuse (s : State) (src : Nat) : (s.evPulse src).fuse = s.fuse := (evPulse_lines s src).fuse
@[simp] theorem evPulse_bank (s : State) (src : Nat) : (s.evPulse src).bank = s.bank := (evPulse_lines s src).bank
@[simp] theorem evPulse_damper (s : State) (src : Nat) : (s.evPulse src).damper = s.damper := (evPulse_lines s src).damper
@[simp] theorem evPulse_outs (s : State) (src : Nat) : (s.evPulse src).outs = s.outs := (evPulse_lines s src).outs
@[simp] theorem evPulse_pending (s : State) (src : Nat) : (s.evPulse src).pending = s.pending := (evPulse_lines s src).pending

/-! evProgram. -/

@[simp] theorem evProgram_sram (s : State) (src : Nat) : (s.evProgram src).sram = s.sram := (evProgram_lines s src).sram
@[simp] theorem evProgram_bad (s : State) (src : Nat) : (s.evProgram src).bad = s.bad := (evProgram_lines s src).bad
@[simp] theorem evProgram_now (s : State) (src : Nat) : (s.evProgram src).now = s.now := (evProgram_lines s src).now
@[simp] theorem evProgram_free (s : State) (src : Nat) : (s.evProgram src).free = s.free := (evProgram_lines s src).free
@[simp] theorem evProgram_staged (s : State) (src : Nat) : (s.evProgram src).staged = s.staged := (evProgram_lines s src).staged
@[simp] theorem evProgram_time (s : State) (src : Nat) : (s.evProgram src).time = s.time := (evProgram_lines s src).time
@[simp] theorem evProgram_gang (s : State) (src : Nat) : (s.evProgram src).gang = s.gang := (evProgram_lines s src).gang
@[simp] theorem evProgram_eng (s : State) (src : Nat) : (s.evProgram src).eng = s.eng := (evProgram_lines s src).eng
@[simp] theorem evProgram_ch (s : State) (src : Nat) : (s.evProgram src).ch = s.ch := (evProgram_lines s src).ch
@[simp] theorem evProgram_loadQ (s : State) (src : Nat) : (s.evProgram src).loadQ = s.loadQ := (evProgram_lines s src).loadQ
@[simp] theorem evProgram_spare (s : State) (src : Nat) : (s.evProgram src).spare = s.spare := (evProgram_lines s src).spare
@[simp] theorem evProgram_vec (s : State) (src : Nat) : (s.evProgram src).vec = s.vec := (evProgram_lines s src).vec
@[simp] theorem evProgram_sync (s : State) (src : Nat) : (s.evProgram src).sync = s.sync := (evProgram_lines s src).sync
@[simp] theorem evProgram_ta (s : State) (src : Nat) : (s.evProgram src).ta = s.ta := (evProgram_lines s src).ta
@[simp] theorem evProgram_sv (s : State) (src : Nat) : (s.evProgram src).sv = s.sv := (evProgram_lines s src).sv
@[simp] theorem evProgram_gridQ (s : State) (src : Nat) : (s.evProgram src).gridQ = s.gridQ := (evProgram_lines s src).gridQ
@[simp] theorem evProgram_las (s : State) (src : Nat) : (s.evProgram src).las = s.las := (evProgram_lines s src).las
@[simp] theorem evProgram_lsafe (s : State) (src : Nat) : (s.evProgram src).lsafe = s.lsafe := (evProgram_lines s src).lsafe
@[simp] theorem evProgram_loop (s : State) (src : Nat) : (s.evProgram src).loop = s.loop := (evProgram_lines s src).loop
@[simp] theorem evProgram_trace (s : State) (src : Nat) : (s.evProgram src).trace = s.trace := (evProgram_lines s src).trace
@[simp] theorem evProgram_camTr (s : State) (src : Nat) : (s.evProgram src).camTr = s.camTr := (evProgram_lines s src).camTr
@[simp] theorem evProgram_em (s : State) (src : Nat) : (s.evProgram src).em = s.em := (evProgram_lines s src).em
@[simp] theorem evProgram_gd (s : State) (src : Nat) : (s.evProgram src).gd = s.gd := (evProgram_lines s src).gd
@[simp] theorem evProgram_gm (s : State) (src : Nat) : (s.evProgram src).gm = s.gm := (evProgram_lines s src).gm
@[simp] theorem evProgram_cam (s : State) (src : Nat) : (s.evProgram src).cam = s.cam := (evProgram_lines s src).cam
@[simp] theorem evProgram_cal (s : State) (src : Nat) : (s.evProgram src).cal = s.cal := (evProgram_lines s src).cal
@[simp] theorem evProgram_camEst (s : State) (src : Nat) : (s.evProgram src).camEst = s.camEst := (evProgram_lines s src).camEst
@[simp] theorem evProgram_pool (s : State) (src : Nat) : (s.evProgram src).pool = s.pool := (evProgram_lines s src).pool
@[simp] theorem evProgram_cl (s : State) (src : Nat) : (s.evProgram src).cl = s.cl := (evProgram_lines s src).cl
@[simp] theorem evProgram_ma (s : State) (src : Nat) : (s.evProgram src).ma = s.ma := (evProgram_lines s src).ma
@[simp] theorem evProgram_prb (s : State) (src : Nat) : (s.evProgram src).prb = s.prb := (evProgram_lines s src).prb
@[simp] theorem evProgram_ill (s : State) (src : Nat) : (s.evProgram src).ill = s.ill := (evProgram_lines s src).ill
@[simp] theorem evProgram_tags (s : State) (src : Nat) : (s.evProgram src).tags = s.tags := (evProgram_lines s src).tags
@[simp] theorem evProgram_lanes (s : State) (src : Nat) : (s.evProgram src).lanes = s.lanes := (evProgram_lines s src).lanes
@[simp] theorem evProgram_rings (s : State) (src : Nat) : (s.evProgram src).rings = s.rings := (evProgram_lines s src).rings
@[simp] theorem evProgram_mcmd (s : State) (src : Nat) : (s.evProgram src).mcmd = s.mcmd := (evProgram_lines s src).mcmd
@[simp] theorem evProgram_link (s : State) (src : Nat) : (s.evProgram src).link = s.link := (evProgram_lines s src).link
@[simp] theorem evProgram_ints (s : State) (src : Nat) : (s.evProgram src).ints = s.ints := (evProgram_lines s src).ints
@[simp] theorem evProgram_log (s : State) (src : Nat) : (s.evProgram src).log = s.log := (evProgram_lines s src).log
@[simp] theorem evProgram_safe (s : State) (src : Nat) : (s.evProgram src).safe = s.safe := (evProgram_lines s src).safe
@[simp] theorem evProgram_svc (s : State) (src : Nat) : (s.evProgram src).svc = s.svc := (evProgram_lines s src).svc
@[simp] theorem evProgram_hk (s : State) (src : Nat) : (s.evProgram src).hk = s.hk := (evProgram_lines s src).hk
@[simp] theorem evProgram_boot (s : State) (src : Nat) : (s.evProgram src).boot = s.boot := (evProgram_lines s src).boot
@[simp] theorem evProgram_fuse (s : State) (src : Nat) : (s.evProgram src).fuse = s.fuse := (evProgram_lines s src).fuse
@[simp] theorem evProgram_bank (s : State) (src : Nat) : (s.evProgram src).bank = s.bank := (evProgram_lines s src).bank
@[simp] theorem evProgram_damper (s : State) (src : Nat) : (s.evProgram src).damper = s.damper := (evProgram_lines s src).damper
@[simp] theorem evProgram_outs (s : State) (src : Nat) : (s.evProgram src).outs = s.outs := (evProgram_lines s src).outs
@[simp] theorem evProgram_pending (s : State) (src : Nat) : (s.evProgram src).pending = s.pending := (evProgram_lines s src).pending

end Sys2Proof.Machine
end

