-- ==== Sys2Proof/Laws/Act.lean ====
section
/-! SUPPORT. How commands meet the machine: what the passing of time leaves, when nothing follows a command, and what each kind of command answers. -/

namespace Sys2Proof.Machine
open Sys2Proof

/-- Where no act of the event matrix waits, nothing follows. -/
theorem settle_idle {s : State} (h : s.evt.acts = []) : s.settle = s := by
  unfold State.settle
  cases s.stokeCyc / 8 with
  | zero => rfl
  | succ n => simp [State.settleN, h]

/-- Any state that the command itself leaves may be named. -/
theorem answers_next {u : State} {P : State → Prop} (h : P u) : Answers (.next u.settle) P := ⟨u, rfl, h, settle_idle⟩

variable {s : State} {t : Nat} {f : State → State} {P : State → Prop}

/-- A command of the main die while it runs. -/
theorem act_answers (h : s.halted = false) (hp : P (f (s.advance t))) : Answers (s.act t f) P := by
  simp only [State.act, h]
  exact answers_next hp

/-- A command that reaches a die that stands still too, while it runs. -/
theorem actAlways_answers (h : s.halted = false) (hp : P (f (s.advance t))) : Answers (s.actAlways t f) P := by
  simp only [State.actAlways, h]
  exact answers_next hp

/-- What happens at the stoke's last instant alone, there or before RUN. -/
theorem atLast_answers (h : s.halted = false) (hr : (s.advance t).time.running = true → (s.advance t).stokeCyc ≤ (s.advance t).now + 1)
    (hp : P (f (s.advance t))) : Answers (s.atLast t f) P := by
  refine act_answers h ?_
  have : ((s.advance t).time.running && decide ((s.advance t).now + 1 < (s.advance t).stokeCyc)) = false := by
    cases hx : (s.advance t).time.running with
    | false => rfl
    | true => simp only [Bool.true_and, decide_eq_false_iff_not]; have := hr hx; omega
  show P (if _ then _ else _)
  rw [this]
  exact hp

/-- An event of the boundary, at the stoke's last instant or before RUN. -/
theorem edge_answers (h : s.halted = false) (hr : (s.advance t).time.running = true → (s.advance t).stokeCyc ≤ (s.advance t).now + 1)
    (hp : P ((s.advance t).stamped f)) : Answers (s.edge t f) P := atLast_answers (f := fun s => s.stamped f) h hr hp

/-- What only the boundary does while the stoke runs, before RUN. -/
theorem early_answers (h : s.halted = false) (hr : (s.advance t).time.running = false) (hp : P (f (s.advance t))) : Answers (s.early t f) P :=
  act_answers h (by simpa [State.atOnce, hr] using hp)

/-- Time moves on: all but the instant stands, and what a closed window of denied writes announces. -/
theorem advance_notes (s : State) (t : Nat) : Notes { s with now := (s.advance t).now } (s.advance t) := by
  unfold State.advance
  split
  · rfl
  · split
    · have k := suppressEnd_notes (s.at_ s.windowEnd)
      generalize (s.at_ s.windowEnd).suppressEnd = y at k
      unfold Notes at *
      rw [k]
      rfl
    · rfl

/-! The fields that the passing of time leaves. -/

@[simp] theorem advance_sram (s : State) (t : Nat) : (s.advance t).sram = s.sram := (advance_notes s t).sram
@[simp] theorem advance_bad (s : State) (t : Nat) : (s.advance t).bad = s.bad := (advance_notes s t).bad
@[simp] theorem advance_free (s : State) (t : Nat) : (s.advance t).free = s.free := (advance_notes s t).free
@[simp] theorem advance_staged (s : State) (t : Nat) : (s.advance t).staged = s.staged := (advance_notes s t).staged
@[simp] theorem advance_time (s : State) (t : Nat) : (s.advance t).time = s.time := (advance_notes s t).time
@[simp] theorem advance_gang (s : State) (t : Nat) : (s.advance t).gang = s.gang := (advance_notes s t).gang
@[simp] theorem advance_eng (s : State) (t : Nat) : (s.advance t).eng = s.eng := (advance_notes s t).eng
@[simp] theorem advance_ch (s : State) (t : Nat) : (s.advance t).ch = s.ch := (advance_notes s t).ch
@[simp] theorem advance_loadQ (s : State) (t : Nat) : (s.advance t).loadQ = s.loadQ := (advance_notes s t).loadQ
@[simp] theorem advance_spare (s : State) (t : Nat) : (s.advance t).spare = s.spare := (advance_notes s t).spare
@[simp] theorem advance_vec (s : State) (t : Nat) : (s.advance t).vec = s.vec := (advance_notes s t).vec
@[simp] theorem advance_sync (s : State) (t : Nat) : (s.advance t).sync = s.sync := (advance_notes s t).sync
@[simp] theorem advance_ta (s : State) (t : Nat) : (s.advance t).ta = s.ta := (advance_notes s t).ta
@[simp] theorem advance_sv (s : State) (t : Nat) : (s.advance t).sv = s.sv := (advance_notes s t).sv
@[simp] theorem advance_gridQ (s : State) (t : Nat) : (s.advance t).gridQ = s.gridQ := (advance_notes s t).gridQ
@[simp] theorem advance_las (s : State) (t : Nat) : (s.advance t).las = s.las := (advance_notes s t).las
@[simp] theorem advance_lsafe (s : State) (t : Nat) : (s.advance t).lsafe = s.lsafe := (advance_notes s t).lsafe
@[simp] theorem advance_loop (s : State) (t : Nat) : (s.advance t).loop = s.loop := (advance_notes s t).loop
@[simp] theorem advance_trace (s : State) (t : Nat) : (s.advance t).trace = s.trace := (advance_notes s t).trace
@[simp] theorem advance_camTr (s : State) (t : Nat) : (s.advance t).camTr = s.camTr := (advance_notes s t).camTr
@[simp] theorem advance_em (s : State) (t : Nat) : (s.advance t).em = s.em := (advance_notes s t).em
@[simp] theorem advance_gd (s : State) (t : Nat) : (s.advance t).gd = s.gd := (advance_notes s t).gd
@[simp] theorem advance_gm (s : State) (t : Nat) : (s.advance t).gm = s.gm := (advance_notes s t).gm
@[simp] theorem advance_cam (s : State) (t : Nat) : (s.advance t).cam = s.cam := (advance_notes s t).cam
@[simp] theorem advance_cal (s : State) (t : Nat) : (s.advance t).cal = s.cal := (advance_notes s t).cal
@[simp] theorem advance_camEst (s : State) (t : Nat) : (s.advance t).camEst = s.camEst := (advance_notes s t).camEst
@[simp] theorem advance_pool (s : State) (t : Nat) : (s.advance t).pool = s.pool := (advance_notes s t).pool
@[simp] theorem advance_cl (s : State) (t : Nat) : (s.advance t).cl = s.cl := (advance_notes s t).cl
@[simp] theorem advance_ma (s : State) (t : Nat) : (s.advance t).ma = s.ma := (advance_notes s t).ma
@[simp] theorem advance_prb (s : State) (t : Nat) : (s.advance t).prb = s.prb := (advance_notes s t).prb
@[simp] theorem advance_ill (s : State) (t : Nat) : (s.advance t).ill = s.ill := (advance_notes s t).ill
@[simp] theorem advance_tags (s : State) (t : Nat) : (s.advance t).tags = s.tags := (advance_notes s t).tags
@[simp] theorem advance_lanes (s : State) (t : Nat) : (s.advance t).lanes = s.lanes := (advance_notes s t).lanes
@[simp] theorem advance_mcmd (s : State) (t : Nat) : (s.advance t).mcmd = s.mcmd := (advance_notes s t).mcmd
@[simp] theorem advance_link (s : State) (t : Nat) : (s.advance t).link = s.link := (advance_notes s t).link
@[simp] theorem advance_evt (s : State) (t : Nat) : (s.advance t).evt = s.evt := (advance_notes s t).evt
@[simp] theorem advance_safe (s : State) (t : Nat) : (s.advance t).safe = s.safe := (advance_notes s t).safe
@[simp] theorem advance_svc (s : State) (t : Nat) : (s.advance t).svc = s.svc := (advance_notes s t).svc
@[simp] theorem advance_hk (s : State) (t : Nat) : (s.advance t).hk = s.hk := (advance_notes s t).hk
@[simp] theorem advance_boot (s : State) (t : Nat) : (s.advance t).boot = s.boot := (advance_notes s t).boot
@[simp] theorem advance_fuse (s : State) (t : Nat) : (s.advance t).fuse = s.fuse := (advance_notes s t).fuse
@[simp] theorem advance_damper (s : State) (t : Nat) : (s.advance t).damper = s.damper := (advance_notes s t).damper
@[simp] theorem advance_pending (s : State) (t : Nat) : (s.advance t).pending = s.pending := (advance_notes s t).pending

/-- Time does not stop the die. -/
@[simp] theorem advance_halted (s : State) (t : Nat) : (s.advance t).halted = s.halted := by simp [State.halted]
/-- While the stoke runs the instant alone moves. -/
theorem advance_running (s : State) (t : Nat) (h : s.time.running = true) : s.advance t = s.at_ (min t (s.stokeCyc - 1)) := by
  simp [State.advance, h]

end Sys2Proof.Machine
end

