-- ==== Sys2Proof/Laws/Announce.lean ====
section
/-! SUPPORT. What announcements add: a source raised is pending, an entry made stands in the log, and neither is taken back by another announcement. -/

namespace Sys2Proof.Machine
open Sys2Proof

/-- From `s` to `u` no pending bit is cleared, and the entries held in the log are those of `s` and perhaps more behind them. -/
structure Grows (s u : State) : Prop where
  pend : ∀ i, s.ints.pend.getLsbD i = true → u.ints.pend.getLsbD i = true
  held : ∃ l, u.log.held = s.log.held ++ l

/-- Nothing added. -/
theorem Grows.refl (s : State) : Grows s s := ⟨fun _ h => h, [], by simp⟩
/-- One addition after another. -/
theorem Grows.trans {a b c : State} (h : Grows a b) (k : Grows b c) : Grows a c := by
  obtain ⟨hp, l, hl⟩ := h
  obtain ⟨kp, m, km⟩ := k
  exact ⟨fun i x => kp i (hp i x), l ++ m, by rw [km, hl, List.append_assoc]⟩
/-- The same, the later first. -/
theorem Grows.after {a b c : State} (k : Grows b c) (h : Grows a b) : Grows a c := h.trans k
/-- What changes neither the pending bits nor the log. -/
theorem Grows.of_eq {s u : State} (h : u.ints.pend = s.ints.pend) (k : u.log.held = s.log.held) : Grows s u :=
  ⟨fun i x => by rw [h]; exact x, [], by rw [k]; simp⟩

theorem sendVec_grows (s : State) (v : Nat) : Grows s (s.sendVec v) := by
  unfold State.sendVec
  split <;> exact Grows.of_eq rfl rfl
theorem raiseSrc_grows (s : State) (v : Nat) : Grows s (s.raiseSrc v) := by
  have hp : ∀ i, s.ints.pend.getLsbD i = true → (s.ints.pend ||| BitVec.ofNat 256 (2 ^ v)).getLsbD i = true := by
    intro i h
    simp [BitVec.getLsbD_or, h]
  unfold State.raiseSrc
  dsimp only
  split
  · exact Grows.of_eq rfl rfl
  · split
    · exact ⟨hp, [], by simp⟩
    · split
      · exact ⟨hp, [], by simp⟩
      · exact Grows.after (sendVec_grows _ _) ⟨hp, [], by simp⟩
/-- A source raised is pending. -/
theorem raiseSrc_pend (s : State) {v : Nat} (h : v < 256) : (s.raiseSrc v).ints.pend.getLsbD v = true := by
  have hb : (s.ints.pend ||| BitVec.ofNat 256 (2 ^ v)).getLsbD v = true := by
    rw [BitVec.getLsbD_or, BitVec.getLsbD_ofNat, Nat.testBit_two_pow_self, decide_eq_true h]
    exact Bool.or_true _
  unfold State.raiseSrc
  dsimp only
  split
  · assumption
  · split
    · exact hb
    · split
      · exact hb
      · exact (sendVec_grows _ _).pend v hb
theorem ringAdvanceN_grows (s : State) (r : Ring) (n : Nat) : Grows s (s.ringAdvanceN r n) := by
  unfold State.ringAdvanceN
  dsimp only
  have h : ∀ x : State, Grows s x → ∀ (f g : RingU → RingU) (p : Prop) [Decidable p],
      Grows s (if p then ((x.modRing r f).modRing r g).raiseSrc r.val else x.modRing r f) := by
    intro x hx f g p _
    split
    · exact Grows.after (raiseSrc_grows _ _) (Grows.after (b := x) (Grows.of_eq rfl rfl) hx)
    · exact Grows.after (b := x) (Grows.of_eq rfl rfl) hx
  apply h
  split
  · exact Grows.of_eq rfl rfl
  · exact Grows.refl s
theorem emitTo_grows (s : State) (r : Ring) (f : Bool → List Byte) : Grows s (s.emitTo r f) := by
  unfold State.emitTo
  dsimp only
  split
  · exact Grows.refl s
  · exact Grows.of_eq rfl rfl
  · split
    · exact Grows.of_eq rfl rfl
    · exact Grows.after (ringAdvanceN_grows _ _ 1) (Grows.of_eq rfl rfl)
theorem emitRole_grows (s : State) (a b : Nat) (f : Bool → List Byte) : Grows s (s.emitRole a b f) := by
  unfold State.emitRole
  split
  · exact Grows.refl s
  · exact emitTo_grows _ _ _
theorem raiseEv_grows (s : State) (a b c d : Nat) : Grows s (s.raiseEv a b c d) := (raiseSrc_grows _ _).trans (emitRole_grows _ _ _ _)
/-- An event's source is pending. -/
theorem raiseEv_pend (s : State) {a : Nat} (b c d : Nat) (h : a < 256) : (s.raiseEv a b c d).ints.pend.getLsbD a = true :=
  (emitRole_grows _ _ _ _).pend a (raiseSrc_pend s h)
theorem chCause_grows (s : State) (c : Ch) (b : Nat) : Grows s (s.chCause c b) := Grows.after (raiseSrc_grows _ _) (Grows.of_eq rfl rfl)
/-- A channel's cause makes its source pending. -/
theorem chCause_pend (s : State) (c : Ch) (b : Nat) : (s.chCause c b).ints.pend.getLsbD (0x80 + c.val) = true :=
  raiseSrc_pend _ (by omega)
theorem logStore_grows (s : State) (e : LogEntry) : Grows s (s.logStore e) := by
  unfold State.logStore
  split
  · exact Grows.of_eq rfl rfl
  · dsimp only
    split
    · exact Grows.after (raiseEv_grows _ _ _ _ _) ⟨fun _ h => h, _, rfl⟩
    · exact ⟨fun _ h => h, _, rfl⟩
theorem logPush_grows (s : State) (org : Origin) (sup : Bool) (obj kind : Nat) (old new : Word) : Grows s (s.logPush org sup obj kind old new) := by
  unfold State.logPush
  split
  · exact Grows.refl s
  · dsimp only
    split
    · exact Grows.of_eq rfl rfl
    · exact logStore_grows _ _
/-- An entry made of an open log stands in it. -/
theorem logPush_logs {s : State} (h : s.LogOpen) (org : Origin) (sup : Bool) (obj kind : Nat) (old new : Word) :
    Logs s (s.logPush org sup obj kind old new) (obj % 67108864) kind old new := by
  obtain ⟨h1, h2, h3⟩ := h
  have hn : ¬ 4096 ≤ s.log.held.length := by omega
  unfold State.logPush Logs
  simp only [h1, h2, Bool.true_eq_false, Bool.false_eq_true, if_false]
  unfold State.logStore
  simp only [hn, if_false]
  split
  · obtain ⟨l, hl⟩ := (raiseEv_grows _ 0xC9 0 0 _).held
    rw [hl]
    simp
  · simp
theorem logEvent_grows (s : State) (a b c d e : Nat) : Grows s (s.logEvent a b c d e) := logPush_grows _ _ _ _ _ _ _
/-- An event of an open log stands in it. -/
theorem logEvent_logs {s : State} (h : s.LogOpen) (a b c d e : Nat) :
    Logs s (s.logEvent a b c d e) ((a + b * 256 + c * 65536) % 67108864) 0x15 (toW d) (toW e) := logPush_logs h _ _ _ _ _ _
/-- What joined the log stays. -/
theorem Logs.grow {s u v : State} {a b : Nat} {c d : Word} (h : Logs s u a b c d) (g : Grows u v) : Logs s v a b c d := by
  obtain ⟨e, he, hx⟩ := h
  obtain ⟨l, hl⟩ := g.held
  refine ⟨e, ?_, hx⟩
  rw [hl, List.drop_append]
  exact List.mem_append_left _ he
/-- What joined the log later joined it. -/
theorem Logs.from {s u v : State} {a b : Nat} {c d : Word} (g : Grows s u) (h : Logs u v a b c d) : Logs s v a b c d := by
  obtain ⟨e, he, hx⟩ := h
  obtain ⟨l, hl⟩ := g.held
  refine ⟨e, ?_, hx⟩
  rw [hl, List.length_append, ← List.drop_drop] at he
  exact List.mem_of_mem_drop he
/-- A log that opened stays open where the log does not change. -/
theorem LogOpen.of_eq {s u : State} (h : s.LogOpen) (k : u.log = s.log) : u.LogOpen := ⟨k ▸ h.1, k ▸ h.2, k ▸ h.3⟩
theorem logExt_grows (s : State) (org : Origin) (obj : Nat) (l : List Word) : Grows s (s.logExt org obj l) := by
  fun_induction State.logExt s org obj l with
  | case1 s a b r ih => exact (logPush_grows _ _ _ _ _ _ _).trans ih
  | case2 s a => exact logPush_grows _ _ _ _ _ _ _
  | case3 s => exact Grows.refl s
theorem logRunBy_grows (s : State) (org : Origin) (k obj : Nat) (bs : List Byte) : Grows s (s.logRunBy org k obj bs) := by
  unfold State.logRunBy
  split
  · exact (logPush_grows _ _ _ _ _ _ _).trans (logExt_grows _ _ _ _)
  · exact Grows.refl s
theorem hwWriteK_grows (s : State) (k a : Nat) (v : Word) : Grows s (s.hwWriteK k a v) :=
  Grows.after (logPush_grows _ _ _ _ _ _ _) (Grows.of_eq rfl rfl)
theorem suppressEnd_grows (s : State) : Grows s s.suppressEnd := by
  unfold State.suppressEnd
  dsimp only
  split
  · exact Grows.of_eq rfl rfl
  · exact Grows.after (logPush_grows _ _ _ _ _ _ _) (Grows.of_eq rfl rfl)
theorem denyWith_grows (s : State) (org : Origin) (a : Nat) (x v : Word) : Grows s (s.denyWith org a x v) := by
  unfold State.denyWith
  have h : ∀ u : State, Grows s u → Grows s (if u.log.denied < u.denyLimit then
        ({ u with log := { u.log with denied := u.log.denied + 1 } }).logPush org false a 2 x v
      else ({ u with log := { u.log with suppressed := u.log.suppressed + 1 } }).bump (accReg Reg.DENIED_SUPPR_CNT)) := by
    intro u hu
    split
    · exact Grows.after (logPush_grows _ _ _ _ _ _ _) (Grows.after (b := u) (Grows.of_eq rfl rfl) hu)
    · exact Grows.after (b := u) (Grows.of_eq rfl rfl) hu
  exact h _ (Grows.after (raiseEv_grows _ _ _ _ _) (Grows.of_eq rfl rfl))
theorem evPulse_grows (s : State) (src : Nat) : Grows s (s.evPulse src) := Grows.of_eq (by simp) (by simp)

end Sys2Proof.Machine
end

