-- ==== Sys2Proof/Laws/Canon.lean ====
section
/-! SUPPORT. Canonical lists: a store is read back, leaves every other key alone and keeps the canonical form; the same for registers and for bytes of the SRAM. -/

namespace Sys2Proof.Machine
open Sys2Proof

variable {α : Type} {d : Nat → α}

/-- Below the lower bound of its keys a canonical list is silent. -/
theorem alGet_below [DecidableEq α] {l : List (Nat × α)} {lo k : Nat} (h : alWfFrom d lo l = true) (hk : k < lo) : alGet d l k = d k := by
  induction l generalizing lo with
  | nil => rfl
  | cons x r ih =>
    obtain ⟨k', v⟩ := x
    simp only [alWfFrom, Bool.and_eq_true, decide_eq_true_eq] at h
    have : k ≠ k' := by omega
    simp only [alGet, this, if_false]
    exact ih h.2 (by omega)

/-- A canonical list stays canonical from a smaller bound. -/
theorem alWfFrom_mono [DecidableEq α] {l : List (Nat × α)} {lo lo' : Nat} (h : alWfFrom d lo l = true) (hl : lo' ≤ lo) : alWfFrom d lo' l = true := by
  cases l with
  | nil => rfl
  | cons x r =>
    obtain ⟨k', v⟩ := x
    simp only [alWfFrom, Bool.and_eq_true, decide_eq_true_eq] at h ⊢
    exact ⟨⟨by omega, h.1.2⟩, h.2⟩

/-- What was stored is read back. -/
theorem alGet_alSet_same [DecidableEq α] {l : List (Nat × α)} {lo : Nat} (h : alWfFrom d lo l = true) (k : Nat) (v : α) :
    alGet d (alSet d l k v) k = v := by
  induction l generalizing lo with
  | nil => by_cases hv : v = d k <;> simp [alSet, alGet, hv]
  | cons x r ih =>
    obtain ⟨k', v'⟩ := x
    simp only [alWfFrom, Bool.and_eq_true, decide_eq_true_eq] at h
    unfold alSet
    split
    · next hlt =>
      split
      · next hv =>
        have hne : k ≠ k' := by omega
        simp only [alGet, hne, if_false, hv]
        exact alGet_below h.2 (by omega)
      · simp [alGet]
    · split
      · next hk =>
        subst hk
        split
        · next hv => rw [hv]; exact alGet_below h.2 (by omega)
        · simp [alGet]
      · next hk =>
        simp only [alGet, hk, if_false]
        exact ih h.2

/-- A store leaves every other key alone, in any list. -/
theorem alGet_alSet_ne [DecidableEq α] (l : List (Nat × α)) (k k' : Nat) (v : α) (hne : k' ≠ k) :
    alGet d (alSet d l k v) k' = alGet d l k' := by
  induction l with
  | nil => by_cases hv : v = d k <;> simp [alSet, alGet, hv, hne]
  | cons x r ih =>
    obtain ⟨j, u⟩ := x
    unfold alSet
    split
    · split
      · rfl
      · simp [alGet, hne]
    · split
      · next hk =>
        subst hk
        split <;> simp [alGet, hne]
      · simp only [alGet, ih]

/-- A store keeps the canonical form. -/
theorem alSet_wf [DecidableEq α] {l : List (Nat × α)} {lo : Nat} (h : alWfFrom d lo l = true) (k : Nat) (v : α) (hk : lo ≤ k) :
    alWfFrom d lo (alSet d l k v) = true := by
  induction l generalizing lo with
  | nil => by_cases hv : v = d k <;> simp [alSet, alWfFrom, hv, hk]
  | cons x r ih =>
    obtain ⟨k', v'⟩ := x
    have h0 := h
    simp only [alWfFrom, Bool.and_eq_true, decide_eq_true_eq] at h
    unfold alSet
    split
    · next hlt =>
      split
      · exact h0
      · next hv =>
        simp only [alWfFrom, Bool.and_eq_true, decide_eq_true_eq]
        exact ⟨⟨hk, hv⟩, ⟨⟨by omega, h.1.2⟩, h.2⟩⟩
    · split
      · next hkk =>
        subst hkk
        split
        · exact alWfFrom_mono h.2 (by omega)
        · next hv =>
          simp only [alWfFrom, Bool.and_eq_true, decide_eq_true_eq]
          exact ⟨⟨hk, hv⟩, h.2⟩
      · next hge hkk =>
        simp only [alWfFrom, Bool.and_eq_true, decide_eq_true_eq]
        exact ⟨h.1, ih h.2 (by omega)⟩

/-- What is left of a canonical list once entries are taken out is canonical. -/
theorem alWfFrom_filter [DecidableEq α] {l : List (Nat × α)} {lo : Nat} (h : alWfFrom d lo l = true) (p : Nat × α → Bool) :
    alWfFrom d lo (l.filter p) = true := by
  induction l generalizing lo with
  | nil => rfl
  | cons x r ih =>
    obtain ⟨k, v⟩ := x
    simp only [alWfFrom, Bool.and_eq_true, decide_eq_true_eq] at h
    rw [List.filter_cons]
    split
    · simp only [alWfFrom, Bool.and_eq_true, decide_eq_true_eq]
      exact ⟨h.1, ih h.2⟩
    · exact alWfFrom_mono (ih h.2) (by omega)

/-! Registers. -/

/-- A register reads what was written to it. -/
theorem reg_setReg_same {s : State} (h : regsWf s.regs = true) (a : Nat) (v : Word) : (s.setReg a v).reg a = v :=
  alGet_alSet_same h a v
/-- A write of one register leaves every other alone. -/
theorem reg_setReg_ne (s : State) {a b : Nat} (v : Word) (h : b ≠ a) : (s.setReg a v).reg b = s.reg b :=
  alGet_alSet_ne s.regs a b v h
/-- A write of a register keeps the registers canonical. -/
theorem regsWf_setReg {s : State} (h : regsWf s.regs = true) (a : Nat) (v : Word) : regsWf (s.setReg a v).regs = true :=
  alSet_wf h a v (Nat.zero_le a)
/-- Counting keeps the registers canonical. -/
theorem regsWf_addCnt {s : State} (h : regsWf s.regs = true) (a n : Nat) : regsWf (s.addCnt a n).regs = true := regsWf_setReg h a _
/-- Counting one keeps the registers canonical. -/
theorem regsWf_bump {s : State} (h : regsWf s.regs = true) (a : Nat) : regsWf (s.bump a).regs = true := regsWf_setReg h a _
/-- A counter that is counted. -/
theorem reg_bump_same {s : State} (h : regsWf s.regs = true) (a : Nat) : (s.bump a).reg a = satU32 ((s.reg a).toNat + 1) :=
  reg_setReg_same h a _
/-- Counting leaves every other register alone. -/
theorem reg_bump_ne (s : State) {a b : Nat} (h : b ≠ a) : (s.bump a).reg b = s.reg b := reg_setReg_ne s _ h

/-! Bytes of the SRAM. -/

/-- A byte reads what was written to it. -/
theorem byte_setByte_same {s : State} (h : s.sram.wf = true) (a : Nat) (b : Byte) : (s.setByte a b).byte a = b := alGet_alSet_same h a b
/-- A write of one byte leaves every other alone. -/
theorem byte_setByte_ne (s : State) {a x : Nat} (b : Byte) (h : x ≠ a) : (s.setByte a b).byte x = s.byte x := alGet_alSet_ne s.sram a x b h
/-- A write of a byte keeps the memory canonical. -/
theorem wf_setByte {s : State} (h : s.sram.wf = true) (a : Nat) (b : Byte) : (s.setByte a b).sram.wf = true := alSet_wf h a b (Nat.zero_le a)
/-- A write of bytes keeps the memory canonical. -/
theorem wf_setBytes {s : State} (h : s.sram.wf = true) (a : Nat) (bs : List Byte) : (s.setBytes a bs).sram.wf = true := by
  induction bs generalizing s a with
  | nil => exact h
  | cons b r ih => exact ih (wf_setByte h a b) (a + 1)
/-- A write of a word keeps the memory canonical. -/
theorem wf_setWord {s : State} (h : s.sram.wf = true) (a : Nat) (w : Word) : (s.setWord a w).sram.wf = true := wf_setBytes h a _
/-- A write with fresh check bits keeps the memory canonical. -/
theorem wf_put {s : State} (h : s.sram.wf = true) (a : Nat) (bs : List Byte) : (s.put a bs).sram.wf = true := wf_setBytes h a bs
/-- An exchange of two blocks keeps the memory canonical. -/
theorem wf_exchange {s : State} (h : s.sram.wf = true) (a b n : Nat) : (s.exchange a b n).sram.wf = true := by
  have hf : ∀ (m : List (Nat × Byte)) (t : State), t.sram.wf = true →
      (m.foldl (fun (t : State) x => t.setByte (swapAddr a b n x.1) x.2) t).sram.wf = true := by
    intro m
    induction m with
    | nil => exact fun _ ht => ht
    | cons x r ih => exact fun t ht => ih _ (wf_setByte ht _ _)
  exact hf _ _ (alWfFrom_filter h _)
/-- A write of bytes leaves every byte outside them alone. -/
theorem byte_setBytes_out (s : State) (a : Nat) (bs : List Byte) {x : Nat} (h : x < a ∨ a + bs.length ≤ x) :
    (s.setBytes a bs).byte x = s.byte x := by
  induction bs generalizing s a with
  | nil => rfl
  | cons b r ih =>
    simp only [List.length_cons] at h
    have hx : x ≠ a := by omega
    calc ((s.setByte a b).setBytes (a + 1) r).byte x = (s.setByte a b).byte x := ih (s.setByte a b) (a + 1) (by omega)
      _ = s.byte x := byte_setByte_ne s b hx
/-- The same for a write with fresh check bits. -/
theorem byte_put_out (s : State) (a : Nat) (bs : List Byte) {x : Nat} (h : x < a ∨ a + bs.length ≤ x) : (s.put a bs).byte x = s.byte x :=
  byte_setBytes_out s a bs h
/-- The machine after reset is canonical. -/
theorem reset_canonical : regsWf State.reset.regs = true ∧ State.reset.sram.wf = true := ⟨rfl, rfl⟩

end Sys2Proof.Machine
end

