-- ==== Sys2Proof/Laws/Parts.lean ====
section
/-! SUPPORT. What the updates of single units change, and what they leave alone: one lemma for each field. -/

namespace Sys2Proof.Machine
open Sys2Proof

/-! modTime changes time alone. -/

@[simp] theorem modTime_regs (s : State) (f : TimeSt → TimeSt) : (s.modTime f).regs = s.regs := rfl
@[simp] theorem modTime_sram (s : State) (f : TimeSt → TimeSt) : (s.modTime f).sram = s.sram := rfl
@[simp] theorem modTime_bad (s : State) (f : TimeSt → TimeSt) : (s.modTime f).bad = s.bad := rfl
@[simp] theorem modTime_now (s : State) (f : TimeSt → TimeSt) : (s.modTime f).now = s.now := rfl
@[simp] theorem modTime_free (s : State) (f : TimeSt → TimeSt) : (s.modTime f).free = s.free := rfl
@[simp] theorem modTime_clk (s : State) (f : TimeSt → TimeSt) : (s.modTime f).clk = s.clk := rfl
@[simp] theorem modTime_staged (s : State) (f : TimeSt → TimeSt) : (s.modTime f).staged = s.staged := rfl
@[simp] theorem modTime_gang (s : State) (f : TimeSt → TimeSt) : (s.modTime f).gang = s.gang := rfl
@[simp] theorem modTime_eng (s : State) (f : TimeSt → TimeSt) : (s.modTime f).eng = s.eng := rfl
@[simp] theorem modTime_ch (s : State) (f : TimeSt → TimeSt) : (s.modTime f).ch = s.ch := rfl
@[simp] theorem modTime_loadQ (s : State) (f : TimeSt → TimeSt) : (s.modTime f).loadQ = s.loadQ := rfl
@[simp] theorem modTime_spare (s : State) (f : TimeSt → TimeSt) : (s.modTime f).spare = s.spare := rfl
@[simp] theorem modTime_vec (s : State) (f : TimeSt → TimeSt) : (s.modTime f).vec = s.vec := rfl
@[simp] theorem modTime_sync (s : State) (f : TimeSt → TimeSt) : (s.modTime f).sync = s.sync := rfl
@[simp] theorem modTime_ta (s : State) (f : TimeSt → TimeSt) : (s.modTime f).ta = s.ta := rfl
@[simp] theorem modTime_sv (s : State) (f : TimeSt → TimeSt) : (s.modTime f).sv = s.sv := rfl
@[simp] theorem modTime_gridQ (s : State) (f : TimeSt → TimeSt) : (s.modTime f).gridQ = s.gridQ := rfl
@[simp] theorem modTime_las (s : State) (f : TimeSt → TimeSt) : (s.modTime f).las = s.las := rfl
@[simp] theorem modTime_lsafe (s : State) (f : TimeSt → TimeSt) : (s.modTime f).lsafe = s.lsafe := rfl
@[simp] theorem modTime_loop (s : State) (f : TimeSt → TimeSt) : (s.modTime f).loop = s.loop := rfl
@[simp] theorem modTime_trace (s : State) (f : TimeSt → TimeSt) : (s.modTime f).trace = s.trace := rfl
@[simp] theorem modTime_camTr (s : State) (f : TimeSt → TimeSt) : (s.modTime f).camTr = s.camTr := rfl
@[simp] theorem modTime_em (s : State) (f : TimeSt → TimeSt) : (s.modTime f).em = s.em := rfl
@[simp] theorem modTime_gd (s : State) (f : TimeSt → TimeSt) : (s.modTime f).gd = s.gd := rfl
@[simp] theorem modTime_gm (s : State) (f : TimeSt → TimeSt) : (s.modTime f).gm = s.gm := rfl
@[simp] theorem modTime_cam (s : State) (f : TimeSt → TimeSt) : (s.modTime f).cam = s.cam := rfl
@[simp] theorem modTime_cal (s : State) (f : TimeSt → TimeSt) : (s.modTime f).cal = s.cal := rfl
@[simp] theorem modTime_camEst (s : State) (f : TimeSt → TimeSt) : (s.modTime f).camEst = s.camEst := rfl
@[simp] theorem modTime_pool (s : State) (f : TimeSt → TimeSt) : (s.modTime f).pool = s.pool := rfl
@[simp] theorem modTime_cl (s : State) (f : TimeSt → TimeSt) : (s.modTime f).cl = s.cl := rfl
@[simp] theorem modTime_ma (s : State) (f : TimeSt → TimeSt) : (s.modTime f).ma = s.ma := rfl
@[simp] theorem modTime_prb (s : State) (f : TimeSt → TimeSt) : (s.modTime f).prb = s.prb := rfl
@[simp] theorem modTime_ill (s : State) (f : TimeSt → TimeSt) : (s.modTime f).ill = s.ill := rfl
@[simp] theorem modTime_tags (s : State) (f : TimeSt → TimeSt) : (s.modTime f).tags = s.tags := rfl
@[simp] theorem modTime_lanes (s : State) (f : TimeSt → TimeSt) : (s.modTime f).lanes = s.lanes := rfl
@[simp] theorem modTime_rings (s : State) (f : TimeSt → TimeSt) : (s.modTime f).rings = s.rings := rfl
@[simp] theorem modTime_mcmd (s : State) (f : TimeSt → TimeSt) : (s.modTime f).mcmd = s.mcmd := rfl
@[simp] theorem modTime_link (s : State) (f : TimeSt → TimeSt) : (s.modTime f).link = s.link := rfl
@[simp] theorem modTime_ints (s : State) (f : TimeSt → TimeSt) : (s.modTime f).ints = s.ints := rfl
@[simp] theorem modTime_evt (s : State) (f : TimeSt → TimeSt) : (s.modTime f).evt = s.evt := rfl
@[simp] theorem modTime_log (s : State) (f : TimeSt → TimeSt) : (s.modTime f).log = s.log := rfl
@[simp] theorem modTime_safe (s : State) (f : TimeSt → TimeSt) : (s.modTime f).safe = s.safe := rfl
@[simp] theorem modTime_svc (s : State) (f : TimeSt → TimeSt) : (s.modTime f).svc = s.svc := rfl
@[simp] theorem modTime_hk (s : State) (f : TimeSt → TimeSt) : (s.modTime f).hk = s.hk := rfl
@[simp] theorem modTime_boot (s : State) (f : TimeSt → TimeSt) : (s.modTime f).boot = s.boot := rfl
@[simp] theorem modTime_fuse (s : State) (f : TimeSt → TimeSt) : (s.modTime f).fuse = s.fuse := rfl
@[simp] theorem modTime_bank (s : State) (f : TimeSt → TimeSt) : (s.modTime f).bank = s.bank := rfl
@[simp] theorem modTime_damper (s : State) (f : TimeSt → TimeSt) : (s.modTime f).damper = s.damper := rfl
@[simp] theorem modTime_outs (s : State) (f : TimeSt → TimeSt) : (s.modTime f).outs = s.outs := rfl
@[simp] theorem modTime_pending (s : State) (f : TimeSt → TimeSt) : (s.modTime f).pending = s.pending := rfl

/-! modGang changes gang alone. -/

@[simp] theorem modGang_regs (s : State) (f : GangSt → GangSt) : (s.modGang f).regs = s.regs := rfl
@[simp] theorem modGang_sram (s : State) (f : GangSt → GangSt) : (s.modGang f).sram = s.sram := rfl
@[simp] theorem modGang_bad (s : State) (f : GangSt → GangSt) : (s.modGang f).bad = s.bad := rfl
@[simp] theorem modGang_now (s : State) (f : GangSt → GangSt) : (s.modGang f).now = s.now := rfl
@[simp] theorem modGang_free (s : State) (f : GangSt → GangSt) : (s.modGang f).free = s.free := rfl
@[simp] theorem modGang_clk (s : State) (f : GangSt → GangSt) : (s.modGang f).clk = s.clk := rfl
@[simp] theorem modGang_staged (s : State) (f : GangSt → GangSt) : (s.modGang f).staged = s.staged := rfl
@[simp] theorem modGang_time (s : State) (f : GangSt → GangSt) : (s.modGang f).time = s.time := rfl
@[simp] theorem modGang_eng (s : State) (f : GangSt → GangSt) : (s.modGang f).eng = s.eng := rfl
@[simp] theorem modGang_ch (s : State) (f : GangSt → GangSt) : (s.modGang f).ch = s.ch := rfl
@[simp] theorem modGang_loadQ (s : State) (f : GangSt → GangSt) : (s.modGang f).loadQ = s.loadQ := rfl
@[simp] theorem modGang_spare (s : State) (f : GangSt → GangSt) : (s.modGang f).spare = s.spare := rfl
@[simp] theorem modGang_vec (s : State) (f : GangSt → GangSt) : (s.modGang f).vec = s.vec := rfl
@[simp] theorem modGang_sync (s : State) (f : GangSt → GangSt) : (s.modGang f).sync = s.sync := rfl
@[simp] theorem modGang_ta (s : State) (f : GangSt → GangSt) : (s.modGang f).ta = s.ta := rfl
@[simp] theorem modGang_sv (s : State) (f : GangSt → GangSt) : (s.modGang f).sv = s.sv := rfl
@[simp] theorem modGang_gridQ (s : State) (f : GangSt → GangSt) : (s.modGang f).gridQ = s.gridQ := rfl
@[simp] theorem modGang_las (s : State) (f : GangSt → GangSt) : (s.modGang f).las = s.las := rfl
@[simp] theorem modGang_lsafe (s : State) (f : GangSt → GangSt) : (s.modGang f).lsafe = s.lsafe := rfl
@[simp] theorem modGang_loop (s : State) (f : GangSt → GangSt) : (s.modGang f).loop = s.loop := rfl
@[simp] theorem modGang_trace (s : State) (f : GangSt → GangSt) : (s.modGang f).trace = s.trace := rfl
@[simp] theorem modGang_camTr (s : State) (f : GangSt → GangSt) : (s.modGang f).camTr = s.camTr := rfl
@[simp] theorem modGang_em (s : State) (f : GangSt → GangSt) : (s.modGang f).em = s.em := rfl
@[simp] theorem modGang_gd (s : State) (f : GangSt → GangSt) : (s.modGang f).gd = s.gd := rfl
@[simp] theorem modGang_gm (s : State) (f : GangSt → GangSt) : (s.modGang f).gm = s.gm := rfl
@[simp] theorem modGang_cam (s : State) (f : GangSt → GangSt) : (s.modGang f).cam = s.cam := rfl
@[simp] theorem modGang_cal (s : State) (f : GangSt → GangSt) : (s.modGang f).cal = s.cal := rfl
@[simp] theorem modGang_camEst (s : State) (f : GangSt → GangSt) : (s.modGang f).camEst = s.camEst := rfl
@[simp] theorem modGang_pool (s : State) (f : GangSt → GangSt) : (s.modGang f).pool = s.pool := rfl
@[simp] theorem modGang_cl (s : State) (f : GangSt → GangSt) : (s.modGang f).cl = s.cl := rfl
@[simp] theorem modGang_ma (s : State) (f : GangSt → GangSt) : (s.modGang f).ma = s.ma := rfl
@[simp] theorem modGang_prb (s : State) (f : GangSt → GangSt) : (s.modGang f).prb = s.prb := rfl
@[simp] theorem modGang_ill (s : State) (f : GangSt → GangSt) : (s.modGang f).ill = s.ill := rfl
@[simp] theorem modGang_tags (s : State) (f : GangSt → GangSt) : (s.modGang f).tags = s.tags := rfl
@[simp] theorem modGang_lanes (s : State) (f : GangSt → GangSt) : (s.modGang f).lanes = s.lanes := rfl
@[simp] theorem modGang_rings (s : State) (f : GangSt → GangSt) : (s.modGang f).rings = s.rings := rfl
@[simp] theorem modGang_mcmd (s : State) (f : GangSt → GangSt) : (s.modGang f).mcmd = s.mcmd := rfl
@[simp] theorem modGang_link (s : State) (f : GangSt → GangSt) : (s.modGang f).link = s.link := rfl
@[simp] theorem modGang_ints (s : State) (f : GangSt → GangSt) : (s.modGang f).ints = s.ints := rfl
@[simp] theorem modGang_evt (s : State) (f : GangSt → GangSt) : (s.modGang f).evt = s.evt := rfl
@[simp] theorem modGang_log (s : State) (f : GangSt → GangSt) : (s.modGang f).log = s.log := rfl
@[simp] theorem modGang_safe (s : State) (f : GangSt → GangSt) : (s.modGang f).safe = s.safe := rfl
@[simp] theorem modGang_svc (s : State) (f : GangSt → GangSt) : (s.modGang f).svc = s.svc := rfl
@[simp] theorem modGang_hk (s : State) (f : GangSt → GangSt) : (s.modGang f).hk = s.hk := rfl
@[simp] theorem modGang_boot (s : State) (f : GangSt → GangSt) : (s.modGang f).boot = s.boot := rfl
@[simp] theorem modGang_fuse (s : State) (f : GangSt → GangSt) : (s.modGang f).fuse = s.fuse := rfl
@[simp] theorem modGang_bank (s : State) (f : GangSt → GangSt) : (s.modGang f).bank = s.bank := rfl
@[simp] theorem modGang_damper (s : State) (f : GangSt → GangSt) : (s.modGang f).damper = s.damper := rfl
@[simp] theorem modGang_outs (s : State) (f : GangSt → GangSt) : (s.modGang f).outs = s.outs := rfl
@[simp] theorem modGang_pending (s : State) (f : GangSt → GangSt) : (s.modGang f).pending = s.pending := rfl

/-! modCal changes cal alone. -/

@[simp] theorem modCal_regs (s : State) (c : Ch) (f : CalCh → CalCh) : (s.modCal c f).regs = s.regs := rfl
@[simp] theorem modCal_sram (s : State) (c : Ch) (f : CalCh → CalCh) : (s.modCal c f).sram = s.sram := rfl
@[simp] theorem modCal_bad (s : State) (c : Ch) (f : CalCh → CalCh) : (s.modCal c f).bad = s.bad := rfl
@[simp] theorem modCal_now (s : State) (c : Ch) (f : CalCh → CalCh) : (s.modCal c f).now = s.now := rfl
@[simp] theorem modCal_free (s : State) (c : Ch) (f : CalCh → CalCh) : (s.modCal c f).free = s.free := rfl
@[simp] theorem modCal_clk (s : State) (c : Ch) (f : CalCh → CalCh) : (s.modCal c f).clk = s.clk := rfl
@[simp] theorem modCal_staged (s : State) (c : Ch) (f : CalCh → CalCh) : (s.modCal c f).staged = s.staged := rfl
@[simp] theorem modCal_time (s : State) (c : Ch) (f : CalCh → CalCh) : (s.modCal c f).time = s.time := rfl
@[simp] theorem modCal_gang (s : State) (c : Ch) (f : CalCh → CalCh) : (s.modCal c f).gang = s.gang := rfl
@[simp] theorem modCal_eng (s : State) (c : Ch) (f : CalCh → CalCh) : (s.modCal c f).eng = s.eng := rfl
@[simp] theorem modCal_ch (s : State) (c : Ch) (f : CalCh → CalCh) : (s.modCal c f).ch = s.ch := rfl
@[simp] theorem modCal_loadQ (s : State) (c : Ch) (f : CalCh → CalCh) : (s.modCal c f).loadQ = s.loadQ := rfl
@[simp] theorem modCal_spare (s : State) (c : Ch) (f : CalCh → CalCh) : (s.modCal c f).spare = s.spare := rfl
@[simp] theorem modCal_vec (s : State) (c : Ch) (f : CalCh → CalCh) : (s.modCal c f).vec = s.vec := rfl
@[simp] theorem modCal_sync (s : State) (c : Ch) (f : CalCh → CalCh) : (s.modCal c f).sync = s.sync := rfl
@[simp] theorem modCal_ta (s : State) (c : Ch) (f : CalCh → CalCh) : (s.modCal c f).ta = s.ta := rfl
@[simp] theorem modCal_sv (s : State) (c : Ch) (f : CalCh → CalCh) : (s.modCal c f).sv = s.sv := rfl
@[simp] theorem modCal_gridQ (s : State) (c : Ch) (f : CalCh → CalCh) : (s.modCal c f).gridQ = s.gridQ := rfl
@[simp] theorem modCal_las (s : State) (c : Ch) (f : CalCh → CalCh) : (s.modCal c f).las = s.las := rfl
@[simp] theorem modCal_lsafe (s : State) (c : Ch) (f : CalCh → CalCh) : (s.modCal c f).lsafe = s.lsafe := rfl
@[simp] theorem modCal_loop (s : State) (c : Ch) (f : CalCh → CalCh) : (s.modCal c f).loop = s.loop := rfl
@[simp] theorem modCal_trace (s : State) (c : Ch) (f : CalCh → CalCh) : (s.modCal c f).trace = s.trace := rfl
@[simp] theorem modCal_camTr (s : State) (c : Ch) (f : CalCh → CalCh) : (s.modCal c f).camTr = s.camTr := rfl
@[simp] theorem modCal_em (s : State) (c : Ch) (f : CalCh → CalCh) : (s.modCal c f).em = s.em := rfl
@[simp] theorem modCal_gd (s : State) (c : Ch) (f : CalCh → CalCh) : (s.modCal c f).gd = s.gd := rfl
@[simp] theorem modCal_gm (s : State) (c : Ch) (f : CalCh → CalCh) : (s.modCal c f).gm = s.gm := rfl
@[simp] theorem modCal_cam (s : State) (c : Ch) (f : CalCh → CalCh) : (s.modCal c f).cam = s.cam := rfl
@[simp] theorem modCal_camEst (s : State) (c : Ch) (f : CalCh → CalCh) : (s.modCal c f).camEst = s.camEst := rfl
@[simp] theorem modCal_pool (s : State) (c : Ch) (f : CalCh → CalCh) : (s.modCal c f).pool = s.pool := rfl
@[simp] theorem modCal_cl (s : State) (c : Ch) (f : CalCh → CalCh) : (s.modCal c f).cl = s.cl := rfl
@[simp] theorem modCal_ma (s : State) (c : Ch) (f : CalCh → CalCh) : (s.modCal c f).ma = s.ma := rfl
@[simp] theorem modCal_prb (s : State) (c : Ch) (f : CalCh → CalCh) : (s.modCal c f).prb = s.prb := rfl
@[simp] theorem modCal_ill (s : State) (c : Ch) (f : CalCh → CalCh) : (s.modCal c f).ill = s.ill := rfl
@[simp] theorem modCal_tags (s : State) (c : Ch) (f : CalCh → CalCh) : (s.modCal c f).tags = s.tags := rfl
@[simp] theorem modCal_lanes (s : State) (c : Ch) (f : CalCh → CalCh) : (s.modCal c f).lanes = s.lanes := rfl
@[simp] theorem modCal_rings (s : State) (c : Ch) (f : CalCh → CalCh) : (s.modCal c f).rings = s.rings := rfl
@[simp] theorem modCal_mcmd (s : State) (c : Ch) (f : CalCh → CalCh) : (s.modCal c f).mcmd = s.mcmd := rfl
@[simp] theorem modCal_link (s : State) (c : Ch) (f : CalCh → CalCh) : (s.modCal c f).link = s.link := rfl
@[simp] theorem modCal_ints (s : State) (c : Ch) (f : CalCh → CalCh) : (s.modCal c f).ints = s.ints := rfl
@[simp] theorem modCal_evt (s : State) (c : Ch) (f : CalCh → CalCh) : (s.modCal c f).evt = s.evt := rfl
@[simp] theorem modCal_log (s : State) (c : Ch) (f : CalCh → CalCh) : (s.modCal c f).log = s.log := rfl
@[simp] theorem modCal_safe (s : State) (c : Ch) (f : CalCh → CalCh) : (s.modCal c f).safe = s.safe := rfl
@[simp] theorem modCal_svc (s : State) (c : Ch) (f : CalCh → CalCh) : (s.modCal c f).svc = s.svc := rfl
@[simp] theorem modCal_hk (s : State) (c : Ch) (f : CalCh → CalCh) : (s.modCal c f).hk = s.hk := rfl
@[simp] theorem modCal_boot (s : State) (c : Ch) (f : CalCh → CalCh) : (s.modCal c f).boot = s.boot := rfl
@[simp] theorem modCal_fuse (s : State) (c : Ch) (f : CalCh → CalCh) : (s.modCal c f).fuse = s.fuse := rfl
@[simp] theorem modCal_bank (s : State) (c : Ch) (f : CalCh → CalCh) : (s.modCal c f).bank = s.bank := rfl
@[simp] theorem modCal_damper (s : State) (c : Ch) (f : CalCh → CalCh) : (s.modCal c f).damper = s.damper := rfl
@[simp] theorem modCal_outs (s : State) (c : Ch) (f : CalCh → CalCh) : (s.modCal c f).outs = s.outs := rfl
@[simp] theorem modCal_pending (s : State) (c : Ch) (f : CalCh → CalCh) : (s.modCal c f).pending = s.pending := rfl

/-! modCam changes cam alone. -/

@[simp] theorem modCam_regs (s : State) (c : Cam) (f : Camera → Camera) : (s.modCam c f).regs = s.regs := rfl
@[simp] theorem modCam_sram (s : State) (c : Cam) (f : Camera → Camera) : (s.modCam c f).sram = s.sram := rfl
@[simp] theorem modCam_bad (s : State) (c : Cam) (f : Camera → Camera) : (s.modCam c f).bad = s.bad := rfl
@[simp] theorem modCam_now (s : State) (c : Cam) (f : Camera → Camera) : (s.modCam c f).now = s.now := rfl
@[simp] theorem modCam_free (s : State) (c : Cam) (f : Camera → Camera) : (s.modCam c f).free = s.free := rfl
@[simp] theorem modCam_clk (s : State) (c : Cam) (f : Camera → Camera) : (s.modCam c f).clk = s.clk := rfl
@[simp] theorem modCam_staged (s : State) (c : Cam) (f : Camera → Camera) : (s.modCam c f).staged = s.staged := rfl
@[simp] theorem modCam_time (s : State) (c : Cam) (f : Camera → Camera) : (s.modCam c f).time = s.time := rfl
@[simp] theorem modCam_gang (s : State) (c : Cam) (f : Camera → Camera) : (s.modCam c f).gang = s.gang := rfl
@[simp] theorem modCam_eng (s : State) (c : Cam) (f : Camera → Camera) : (s.modCam c f).eng = s.eng := rfl
@[simp] theorem modCam_ch (s : State) (c : Cam) (f : Camera → Camera) : (s.modCam c f).ch = s.ch := rfl
@[simp] theorem modCam_loadQ (s : State) (c : Cam) (f : Camera → Camera) : (s.modCam c f).loadQ = s.loadQ := rfl
@[simp] theorem modCam_spare (s : State) (c : Cam) (f : Camera → Camera) : (s.modCam c f).spare = s.spare := rfl
@[simp] theorem modCam_vec (s : State) (c : Cam) (f : Camera → Camera) : (s.modCam c f).vec = s.vec := rfl
@[simp] theorem modCam_sync (s : State) (c : Cam) (f : Camera → Camera) : (s.modCam c f).sync = s.sync := rfl
@[simp] theorem modCam_ta (s : State) (c : Cam) (f : Camera → Camera) : (s.modCam c f).ta = s.ta := rfl
@[simp] theorem modCam_sv (s : State) (c : Cam) (f : Camera → Camera) : (s.modCam c f).sv = s.sv := rfl
@[simp] theorem modCam_gridQ (s : State) (c : Cam) (f : Camera → Camera) : (s.modCam c f).gridQ = s.gridQ := rfl
@[simp] theorem modCam_las (s : State) (c : Cam) (f : Camera → Camera) : (s.modCam c f).las = s.las := rfl
@[simp] theorem modCam_lsafe (s : State) (c : Cam) (f : Camera → Camera) : (s.modCam c f).lsafe = s.lsafe := rfl
@[simp] theorem modCam_loop (s : State) (c : Cam) (f : Camera → Camera) : (s.modCam c f).loop = s.loop := rfl
@[simp] theorem modCam_trace (s : State) (c : Cam) (f : Camera → Camera) : (s.modCam c f).trace = s.trace := rfl
@[simp] theorem modCam_camTr (s : State) (c : Cam) (f : Camera → Camera) : (s.modCam c f).camTr = s.camTr := rfl
@[simp] theorem modCam_em (s : State) (c : Cam) (f : Camera → Camera) : (s.modCam c f).em = s.em := rfl
@[simp] theorem modCam_gd (s : State) (c : Cam) (f : Camera → Camera) : (s.modCam c f).gd = s.gd := rfl
@[simp] theorem modCam_gm (s : State) (c : Cam) (f : Camera → Camera) : (s.modCam c f).gm = s.gm := rfl
@[simp] theorem modCam_cal (s : State) (c : Cam) (f : Camera → Camera) : (s.modCam c f).cal = s.cal := rfl
@[simp] theorem modCam_camEst (s : State) (c : Cam) (f : Camera → Camera) : (s.modCam c f).camEst = s.camEst := rfl
@[simp] theorem modCam_pool (s : State) (c : Cam) (f : Camera → Camera) : (s.modCam c f).pool = s.pool := rfl
@[simp] theorem modCam_cl (s : State) (c : Cam) (f : Camera → Camera) : (s.modCam c f).cl = s.cl := rfl
@[simp] theorem modCam_ma (s : State) (c : Cam) (f : Camera → Camera) : (s.modCam c f).ma = s.ma := rfl
@[simp] theorem modCam_prb (s : State) (c : Cam) (f : Camera → Camera) : (s.modCam c f).prb = s.prb := rfl
@[simp] theorem modCam_ill (s : State) (c : Cam) (f : Camera → Camera) : (s.modCam c f).ill = s.ill := rfl
@[simp] theorem modCam_tags (s : State) (c : Cam) (f : Camera → Camera) : (s.modCam c f).tags = s.tags := rfl
@[simp] theorem modCam_lanes (s : State) (c : Cam) (f : Camera → Camera) : (s.modCam c f).lanes = s.lanes := rfl
@[simp] theorem modCam_rings (s : State) (c : Cam) (f : Camera → Camera) : (s.modCam c f).rings = s.rings := rfl
@[simp] theorem modCam_mcmd (s : State) (c : Cam) (f : Camera → Camera) : (s.modCam c f).mcmd = s.mcmd := rfl
@[simp] theorem modCam_link (s : State) (c : Cam) (f : Camera → Camera) : (s.modCam c f).link = s.link := rfl
@[simp] theorem modCam_ints (s : State) (c : Cam) (f : Camera → Camera) : (s.modCam c f).ints = s.ints := rfl
@[simp] theorem modCam_evt (s : State) (c : Cam) (f : Camera → Camera) : (s.modCam c f).evt = s.evt := rfl
@[simp] theorem modCam_log (s : State) (c : Cam) (f : Camera → Camera) : (s.modCam c f).log = s.log := rfl
@[simp] theorem modCam_safe (s : State) (c : Cam) (f : Camera → Camera) : (s.modCam c f).safe = s.safe := rfl
@[simp] theorem modCam_svc (s : State) (c : Cam) (f : Camera → Camera) : (s.modCam c f).svc = s.svc := rfl
@[simp] theorem modCam_hk (s : State) (c : Cam) (f : Camera → Camera) : (s.modCam c f).hk = s.hk := rfl
@[simp] theorem modCam_boot (s : State) (c : Cam) (f : Camera → Camera) : (s.modCam c f).boot = s.boot := rfl
@[simp] theorem modCam_fuse (s : State) (c : Cam) (f : Camera → Camera) : (s.modCam c f).fuse = s.fuse := rfl
@[simp] theorem modCam_bank (s : State) (c : Cam) (f : Camera → Camera) : (s.modCam c f).bank = s.bank := rfl
@[simp] theorem modCam_damper (s : State) (c : Cam) (f : Camera → Camera) : (s.modCam c f).damper = s.damper := rfl
@[simp] theorem modCam_outs (s : State) (c : Cam) (f : Camera → Camera) : (s.modCam c f).outs = s.outs := rfl
@[simp] theorem modCam_pending (s : State) (c : Cam) (f : Camera → Camera) : (s.modCam c f).pending = s.pending := rfl

/-! modIll changes ill alone. -/

@[simp] theorem modIll_regs (s : State) (c : Fin 4) (f : IllU → IllU) : (s.modIll c f).regs = s.regs := rfl
@[simp] theorem modIll_sram (s : State) (c : Fin 4) (f : IllU → IllU) : (s.modIll c f).sram = s.sram := rfl
@[simp] theorem modIll_bad (s : State) (c : Fin 4) (f : IllU → IllU) : (s.modIll c f).bad = s.bad := rfl
@[simp] theorem modIll_now (s : State) (c : Fin 4) (f : IllU → IllU) : (s.modIll c f).now = s.now := rfl
@[simp] theorem modIll_free (s : State) (c : Fin 4) (f : IllU → IllU) : (s.modIll c f).free = s.free := rfl
@[simp] theorem modIll_clk (s : State) (c : Fin 4) (f : IllU → IllU) : (s.modIll c f).clk = s.clk := rfl
@[simp] theorem modIll_staged (s : State) (c : Fin 4) (f : IllU → IllU) : (s.modIll c f).staged = s.staged := rfl
@[simp] theorem modIll_time (s : State) (c : Fin 4) (f : IllU → IllU) : (s.modIll c f).time = s.time := rfl
@[simp] theorem modIll_gang (s : State) (c : Fin 4) (f : IllU → IllU) : (s.modIll c f).gang = s.gang := rfl
@[simp] theorem modIll_eng (s : State) (c : Fin 4) (f : IllU → IllU) : (s.modIll c f).eng = s.eng := rfl
@[simp] theorem modIll_ch (s : State) (c : Fin 4) (f : IllU → IllU) : (s.modIll c f).ch = s.ch := rfl
@[simp] theorem modIll_loadQ (s : State) (c : Fin 4) (f : IllU → IllU) : (s.modIll c f).loadQ = s.loadQ := rfl
@[simp] theorem modIll_spare (s : State) (c : Fin 4) (f : IllU → IllU) : (s.modIll c f).spare = s.spare := rfl
@[simp] theorem modIll_vec (s : State) (c : Fin 4) (f : IllU → IllU) : (s.modIll c f).vec = s.vec := rfl
@[simp] theorem modIll_sync (s : State) (c : Fin 4) (f : IllU → IllU) : (s.modIll c f).sync = s.sync := rfl
@[simp] theorem modIll_ta (s : State) (c : Fin 4) (f : IllU → IllU) : (s.modIll c f).ta = s.ta := rfl
@[simp] theorem modIll_sv (s : State) (c : Fin 4) (f : IllU → IllU) : (s.modIll c f).sv = s.sv := rfl
@[simp] theorem modIll_gridQ (s : State) (c : Fin 4) (f : IllU → IllU) : (s.modIll c f).gridQ = s.gridQ := rfl
@[simp] theorem modIll_las (s : State) (c : Fin 4) (f : IllU → IllU) : (s.modIll c f).las = s.las := rfl
@[simp] theorem modIll_lsafe (s : State) (c : Fin 4) (f : IllU → IllU) : (s.modIll c f).lsafe = s.lsafe := rfl
@[simp] theorem modIll_loop (s : State) (c : Fin 4) (f : IllU → IllU) : (s.modIll c f).loop = s.loop := rfl
@[simp] theorem modIll_trace (s : State) (c : Fin 4) (f : IllU → IllU) : (s.modIll c f).trace = s.trace := rfl
@[simp] theorem modIll_camTr (s : State) (c : Fin 4) (f : IllU → IllU) : (s.modIll c f).camTr = s.camTr := rfl
@[simp] theorem modIll_em (s : State) (c : Fin 4) (f : IllU → IllU) : (s.modIll c f).em = s.em := rfl
@[simp] theorem modIll_gd (s : State) (c : Fin 4) (f : IllU → IllU) : (s.modIll c f).gd = s.gd := rfl
@[simp] theorem modIll_gm (s : State) (c : Fin 4) (f : IllU → IllU) : (s.modIll c f).gm = s.gm := rfl
@[simp] theorem modIll_cam (s : State) (c : Fin 4) (f : IllU → IllU) : (s.modIll c f).cam = s.cam := rfl
@[simp] theorem modIll_cal (s : State) (c : Fin 4) (f : IllU → IllU) : (s.modIll c f).cal = s.cal := rfl
@[simp] theorem modIll_camEst (s : State) (c : Fin 4) (f : IllU → IllU) : (s.modIll c f).camEst = s.camEst := rfl
@[simp] theorem modIll_pool (s : State) (c : Fin 4) (f : IllU → IllU) : (s.modIll c f).pool = s.pool := rfl
@[simp] theorem modIll_cl (s : State) (c : Fin 4) (f : IllU → IllU) : (s.modIll c f).cl = s.cl := rfl
@[simp] theorem modIll_ma (s : State) (c : Fin 4) (f : IllU → IllU) : (s.modIll c f).ma = s.ma := rfl
@[simp] theorem modIll_prb (s : State) (c : Fin 4) (f : IllU → IllU) : (s.modIll c f).prb = s.prb := rfl
@[simp] theorem modIll_tags (s : State) (c : Fin 4) (f : IllU → IllU) : (s.modIll c f).tags = s.tags := rfl
@[simp] theorem modIll_lanes (s : State) (c : Fin 4) (f : IllU → IllU) : (s.modIll c f).lanes = s.lanes := rfl
@[simp] theorem modIll_rings (s : State) (c : Fin 4) (f : IllU → IllU) : (s.modIll c f).rings = s.rings := rfl
@[simp] theorem modIll_mcmd (s : State) (c : Fin 4) (f : IllU → IllU) : (s.modIll c f).mcmd = s.mcmd := rfl
@[simp] theorem modIll_link (s : State) (c : Fin 4) (f : IllU → IllU) : (s.modIll c f).link = s.link := rfl
@[simp] theorem modIll_ints (s : State) (c : Fin 4) (f : IllU → IllU) : (s.modIll c f).ints = s.ints := rfl
@[simp] theorem modIll_evt (s : State) (c : Fin 4) (f : IllU → IllU) : (s.modIll c f).evt = s.evt := rfl
@[simp] theorem modIll_log (s : State) (c : Fin 4) (f : IllU → IllU) : (s.modIll c f).log = s.log := rfl
@[simp] theorem modIll_safe (s : State) (c : Fin 4) (f : IllU → IllU) : (s.modIll c f).safe = s.safe := rfl
@[simp] theorem modIll_svc (s : State) (c : Fin 4) (f : IllU → IllU) : (s.modIll c f).svc = s.svc := rfl
@[simp] theorem modIll_hk (s : State) (c : Fin 4) (f : IllU → IllU) : (s.modIll c f).hk = s.hk := rfl
@[simp] theorem modIll_boot (s : State) (c : Fin 4) (f : IllU → IllU) : (s.modIll c f).boot = s.boot := rfl
@[simp] theorem modIll_fuse (s : State) (c : Fin 4) (f : IllU → IllU) : (s.modIll c f).fuse = s.fuse := rfl
@[simp] theorem modIll_bank (s : State) (c : Fin 4) (f : IllU → IllU) : (s.modIll c f).bank = s.bank := rfl
@[simp] theorem modIll_damper (s : State) (c : Fin 4) (f : IllU → IllU) : (s.modIll c f).damper = s.damper := rfl
@[simp] theorem modIll_outs (s : State) (c : Fin 4) (f : IllU → IllU) : (s.modIll c f).outs = s.outs := rfl
@[simp] theorem modIll_pending (s : State) (c : Fin 4) (f : IllU → IllU) : (s.modIll c f).pending = s.pending := rfl

/-! modMotor changes ma alone. -/

@[simp] theorem modMotor_regs (s : State) (c : Ma) (f : Motor → Motor) : (s.modMotor c f).regs = s.regs := rfl
@[simp] theorem modMotor_sram (s : State) (c : Ma) (f : Motor → Motor) : (s.modMotor c f).sram = s.sram := rfl
@[simp] theorem modMotor_bad (s : State) (c : Ma) (f : Motor → Motor) : (s.modMotor c f).bad = s.bad := rfl
@[simp] theorem modMotor_now (s : State) (c : Ma) (f : Motor → Motor) : (s.modMotor c f).now = s.now := rfl
@[simp] theorem modMotor_free (s : State) (c : Ma) (f : Motor → Motor) : (s.modMotor c f).free = s.free := rfl
@[simp] theorem modMotor_clk (s : State) (c : Ma) (f : Motor → Motor) : (s.modMotor c f).clk = s.clk := rfl
@[simp] theorem modMotor_staged (s : State) (c : Ma) (f : Motor → Motor) : (s.modMotor c f).staged = s.staged := rfl
@[simp] theorem modMotor_time (s : State) (c : Ma) (f : Motor → Motor) : (s.modMotor c f).time = s.time := rfl
@[simp] theorem modMotor_gang (s : State) (c : Ma) (f : Motor → Motor) : (s.modMotor c f).gang = s.gang := rfl
@[simp] theorem modMotor_eng (s : State) (c : Ma) (f : Motor → Motor) : (s.modMotor c f).eng = s.eng := rfl
@[simp] theorem modMotor_ch (s : State) (c : Ma) (f : Motor → Motor) : (s.modMotor c f).ch = s.ch := rfl
@[simp] theorem modMotor_loadQ (s : State) (c : Ma) (f : Motor → Motor) : (s.modMotor c f).loadQ = s.loadQ := rfl
@[simp] theorem modMotor_spare (s : State) (c : Ma) (f : Motor → Motor) : (s.modMotor c f).spare = s.spare := rfl
@[simp] theorem modMotor_vec (s : State) (c : Ma) (f : Motor → Motor) : (s.modMotor c f).vec = s.vec := rfl
@[simp] theorem modMotor_sync (s : State) (c : Ma) (f : Motor → Motor) : (s.modMotor c f).sync = s.sync := rfl
@[simp] theorem modMotor_ta (s : State) (c : Ma) (f : Motor → Motor) : (s.modMotor c f).ta = s.ta := rfl
@[simp] theorem modMotor_sv (s : State) (c : Ma) (f : Motor → Motor) : (s.modMotor c f).sv = s.sv := rfl
@[simp] theorem modMotor_gridQ (s : State) (c : Ma) (f : Motor → Motor) : (s.modMotor c f).gridQ = s.gridQ := rfl
@[simp] theorem modMotor_las (s : State) (c : Ma) (f : Motor → Motor) : (s.modMotor c f).las = s.las := rfl
@[simp] theorem modMotor_lsafe (s : State) (c : Ma) (f : Motor → Motor) : (s.modMotor c f).lsafe = s.lsafe := rfl
@[simp] theorem modMotor_loop (s : State) (c : Ma) (f : Motor → Motor) : (s.modMotor c f).loop = s.loop := rfl
@[simp] theorem modMotor_trace (s : State) (c : Ma) (f : Motor → Motor) : (s.modMotor c f).trace = s.trace := rfl
@[simp] theorem modMotor_camTr (s : State) (c : Ma) (f : Motor → Motor) : (s.modMotor c f).camTr = s.camTr := rfl
@[simp] theorem modMotor_em (s : State) (c : Ma) (f : Motor → Motor) : (s.modMotor c f).em = s.em := rfl
@[simp] theorem modMotor_gd (s : State) (c : Ma) (f : Motor → Motor) : (s.modMotor c f).gd = s.gd := rfl
@[simp] theorem modMotor_gm (s : State) (c : Ma) (f : Motor → Motor) : (s.modMotor c f).gm = s.gm := rfl
@[simp] theorem modMotor_cam (s : State) (c : Ma) (f : Motor → Motor) : (s.modMotor c f).cam = s.cam := rfl
@[simp] theorem modMotor_cal (s : State) (c : Ma) (f : Motor → Motor) : (s.modMotor c f).cal = s.cal := rfl
@[simp] theorem modMotor_camEst (s : State) (c : Ma) (f : Motor → Motor) : (s.modMotor c f).camEst = s.camEst := rfl
@[simp] theorem modMotor_pool (s : State) (c : Ma) (f : Motor → Motor) : (s.modMotor c f).pool = s.pool := rfl
@[simp] theorem modMotor_cl (s : State) (c : Ma) (f : Motor → Motor) : (s.modMotor c f).cl = s.cl := rfl
@[simp] theorem modMotor_prb (s : State) (c : Ma) (f : Motor → Motor) : (s.modMotor c f).prb = s.prb := rfl
@[simp] theorem modMotor_ill (s : State) (c : Ma) (f : Motor → Motor) : (s.modMotor c f).ill = s.ill := rfl
@[simp] theorem modMotor_tags (s : State) (c : Ma) (f : Motor → Motor) : (s.modMotor c f).tags = s.tags := rfl
@[simp] theorem modMotor_lanes (s : State) (c : Ma) (f : Motor → Motor) : (s.modMotor c f).lanes = s.lanes := rfl
@[simp] theorem modMotor_rings (s : State) (c : Ma) (f : Motor → Motor) : (s.modMotor c f).rings = s.rings := rfl
@[simp] theorem modMotor_mcmd (s : State) (c : Ma) (f : Motor → Motor) : (s.modMotor c f).mcmd = s.mcmd := rfl
@[simp] theorem modMotor_link (s : State) (c : Ma) (f : Motor → Motor) : (s.modMotor c f).link = s.link := rfl
@[simp] theorem modMotor_ints (s : State) (c : Ma) (f : Motor → Motor) : (s.modMotor c f).ints = s.ints := rfl
@[simp] theorem modMotor_evt (s : State) (c : Ma) (f : Motor → Motor) : (s.modMotor c f).evt = s.evt := rfl
@[simp] theorem modMotor_log (s : State) (c : Ma) (f : Motor → Motor) : (s.modMotor c f).log = s.log := rfl
@[simp] theorem modMotor_safe (s : State) (c : Ma) (f : Motor → Motor) : (s.modMotor c f).safe = s.safe := rfl
@[simp] theorem modMotor_svc (s : State) (c : Ma) (f : Motor → Motor) : (s.modMotor c f).svc = s.svc := rfl
@[simp] theorem modMotor_hk (s : State) (c : Ma) (f : Motor → Motor) : (s.modMotor c f).hk = s.hk := rfl
@[simp] theorem modMotor_boot (s : State) (c : Ma) (f : Motor → Motor) : (s.modMotor c f).boot = s.boot := rfl
@[simp] theorem modMotor_fuse (s : State) (c : Ma) (f : Motor → Motor) : (s.modMotor c f).fuse = s.fuse := rfl
@[simp] theorem modMotor_bank (s : State) (c : Ma) (f : Motor → Motor) : (s.modMotor c f).bank = s.bank := rfl
@[simp] theorem modMotor_damper (s : State) (c : Ma) (f : Motor → Motor) : (s.modMotor c f).damper = s.damper := rfl
@[simp] theorem modMotor_outs (s : State) (c : Ma) (f : Motor → Motor) : (s.modMotor c f).outs = s.outs := rfl
@[simp] theorem modMotor_pending (s : State) (c : Ma) (f : Motor → Motor) : (s.modMotor c f).pending = s.pending := rfl

/-! modMa changes ma alone. -/

@[simp] theorem modMa_regs (s : State) (c : Ma) (f : MaU → MaU) : (s.modMa c f).regs = s.regs := rfl
@[simp] theorem modMa_sram (s : State) (c : Ma) (f : MaU → MaU) : (s.modMa c f).sram = s.sram := rfl
@[simp] theorem modMa_bad (s : State) (c : Ma) (f : MaU → MaU) : (s.modMa c f).bad = s.bad := rfl
@[simp] theorem modMa_now (s : State) (c : Ma) (f : MaU → MaU) : (s.modMa c f).now = s.now := rfl
@[simp] theorem modMa_free (s : State) (c : Ma) (f : MaU → MaU) : (s.modMa c f).free = s.free := rfl
@[simp] theorem modMa_clk (s : State) (c : Ma) (f : MaU → MaU) : (s.modMa c f).clk = s.clk := rfl
@[simp] theorem modMa_staged (s : State) (c : Ma) (f : MaU → MaU) : (s.modMa c f).staged = s.staged := rfl
@[simp] theorem modMa_time (s : State) (c : Ma) (f : MaU → MaU) : (s.modMa c f).time = s.time := rfl
@[simp] theorem modMa_gang (s : State) (c : Ma) (f : MaU → MaU) : (s.modMa c f).gang = s.gang := rfl
@[simp] theorem modMa_eng (s : State) (c : Ma) (f : MaU → MaU) : (s.modMa c f).eng = s.eng := rfl
@[simp] theorem modMa_ch (s : State) (c : Ma) (f : MaU → MaU) : (s.modMa c f).ch = s.ch := rfl
@[simp] theorem modMa_loadQ (s : State) (c : Ma) (f : MaU → MaU) : (s.modMa c f).loadQ = s.loadQ := rfl
@[simp] theorem modMa_spare (s : State) (c : Ma) (f : MaU → MaU) : (s.modMa c f).spare = s.spare := rfl
@[simp] theorem modMa_vec (s : State) (c : Ma) (f : MaU → MaU) : (s.modMa c f).vec = s.vec := rfl
@[simp] theorem modMa_sync (s : State) (c : Ma) (f : MaU → MaU) : (s.modMa c f).sync = s.sync := rfl
@[simp] theorem modMa_ta (s : State) (c : Ma) (f : MaU → MaU) : (s.modMa c f).ta = s.ta := rfl
@[simp] theorem modMa_sv (s : State) (c : Ma) (f : MaU → MaU) : (s.modMa c f).sv = s.sv := rfl
@[simp] theorem modMa_gridQ (s : State) (c : Ma) (f : MaU → MaU) : (s.modMa c f).gridQ = s.gridQ := rfl
@[simp] theorem modMa_las (s : State) (c : Ma) (f : MaU → MaU) : (s.modMa c f).las = s.las := rfl
@[simp] theorem modMa_lsafe (s : State) (c : Ma) (f : MaU → MaU) : (s.modMa c f).lsafe = s.lsafe := rfl
@[simp] theorem modMa_loop (s : State) (c : Ma) (f : MaU → MaU) : (s.modMa c f).loop = s.loop := rfl
@[simp] theorem modMa_trace (s : State) (c : Ma) (f : MaU → MaU) : (s.modMa c f).trace = s.trace := rfl
@[simp] theorem modMa_camTr (s : State) (c : Ma) (f : MaU → MaU) : (s.modMa c f).camTr = s.camTr := rfl
@[simp] theorem modMa_em (s : State) (c : Ma) (f : MaU → MaU) : (s.modMa c f).em = s.em := rfl
@[simp] theorem modMa_gd (s : State) (c : Ma) (f : MaU → MaU) : (s.modMa c f).gd = s.gd := rfl
@[simp] theorem modMa_gm (s : State) (c : Ma) (f : MaU → MaU) : (s.modMa c f).gm = s.gm := rfl
@[simp] theorem modMa_cam (s : State) (c : Ma) (f : MaU → MaU) : (s.modMa c f).cam = s.cam := rfl
@[simp] theorem modMa_cal (s : State) (c : Ma) (f : MaU → MaU) : (s.modMa c f).cal = s.cal := rfl
@[simp] theorem modMa_camEst (s : State) (c : Ma) (f : MaU → MaU) : (s.modMa c f).camEst = s.camEst := rfl
@[simp] theorem modMa_pool (s : State) (c : Ma) (f : MaU → MaU) : (s.modMa c f).pool = s.pool := rfl
@[simp] theorem modMa_cl (s : State) (c : Ma) (f : MaU → MaU) : (s.modMa c f).cl = s.cl := rfl
@[simp] theorem modMa_prb (s : State) (c : Ma) (f : MaU → MaU) : (s.modMa c f).prb = s.prb := rfl
@[simp] theorem modMa_ill (s : State) (c : Ma) (f : MaU → MaU) : (s.modMa c f).ill = s.ill := rfl
@[simp] theorem modMa_tags (s : State) (c : Ma) (f : MaU → MaU) : (s.modMa c f).tags = s.tags := rfl
@[simp] theorem modMa_lanes (s : State) (c : Ma) (f : MaU → MaU) : (s.modMa c f).lanes = s.lanes := rfl
@[simp] theorem modMa_rings (s : State) (c : Ma) (f : MaU → MaU) : (s.modMa c f).rings = s.rings := rfl
@[simp] theorem modMa_mcmd (s : State) (c : Ma) (f : MaU → MaU) : (s.modMa c f).mcmd = s.mcmd := rfl
@[simp] theorem modMa_link (s : State) (c : Ma) (f : MaU → MaU) : (s.modMa c f).link = s.link := rfl
@[simp] theorem modMa_ints (s : State) (c : Ma) (f : MaU → MaU) : (s.modMa c f).ints = s.ints := rfl
@[simp] theorem modMa_evt (s : State) (c : Ma) (f : MaU → MaU) : (s.modMa c f).evt = s.evt := rfl
@[simp] theorem modMa_log (s : State) (c : Ma) (f : MaU → MaU) : (s.modMa c f).log = s.log := rfl
@[simp] theorem modMa_safe (s : State) (c : Ma) (f : MaU → MaU) : (s.modMa c f).safe = s.safe := rfl
@[simp] theorem modMa_svc (s : State) (c : Ma) (f : MaU → MaU) : (s.modMa c f).svc = s.svc := rfl
@[simp] theorem modMa_hk (s : State) (c : Ma) (f : MaU → MaU) : (s.modMa c f).hk = s.hk := rfl
@[simp] theorem modMa_boot (s : State) (c : Ma) (f : MaU → MaU) : (s.modMa c f).boot = s.boot := rfl
@[simp] theorem modMa_fuse (s : State) (c : Ma) (f : MaU → MaU) : (s.modMa c f).fuse = s.fuse := rfl
@[simp] theorem modMa_bank (s : State) (c : Ma) (f : MaU → MaU) : (s.modMa c f).bank = s.bank := rfl
@[simp] theorem modMa_damper (s : State) (c : Ma) (f : MaU → MaU) : (s.modMa c f).damper = s.damper := rfl
@[simp] theorem modMa_outs (s : State) (c : Ma) (f : MaU → MaU) : (s.modMa c f).outs = s.outs := rfl
@[simp] theorem modMa_pending (s : State) (c : Ma) (f : MaU → MaU) : (s.modMa c f).pending = s.pending := rfl

/-! modEnc changes ma alone. -/

@[simp] theorem modEnc_regs (s : State) (c : Ma) (f : EncU → EncU) : (s.modEnc c f).regs = s.regs := rfl
@[simp] theorem modEnc_sram (s : State) (c : Ma) (f : EncU → EncU) : (s.modEnc c f).sram = s.sram := rfl
@[simp] theorem modEnc_bad (s : State) (c : Ma) (f : EncU → EncU) : (s.modEnc c f).bad = s.bad := rfl
@[simp] theorem modEnc_now (s : State) (c : Ma) (f : EncU → EncU) : (s.modEnc c f).now = s.now := rfl
@[simp] theorem modEnc_free (s : State) (c : Ma) (f : EncU → EncU) : (s.modEnc c f).free = s.free := rfl
@[simp] theorem modEnc_clk (s : State) (c : Ma) (f : EncU → EncU) : (s.modEnc c f).clk = s.clk := rfl
@[simp] theorem modEnc_staged (s : State) (c : Ma) (f : EncU → EncU) : (s.modEnc c f).staged = s.staged := rfl
@[simp] theorem modEnc_time (s : State) (c : Ma) (f : EncU → EncU) : (s.modEnc c f).time = s.time := rfl
@[simp] theorem modEnc_gang (s : State) (c : Ma) (f : EncU → EncU) : (s.modEnc c f).gang = s.gang := rfl
@[simp] theorem modEnc_eng (s : State) (c : Ma) (f : EncU → EncU) : (s.modEnc c f).eng = s.eng := rfl
@[simp] theorem modEnc_ch (s : State) (c : Ma) (f : EncU → EncU) : (s.modEnc c f).ch = s.ch := rfl
@[simp] theorem modEnc_loadQ (s : State) (c : Ma) (f : EncU → EncU) : (s.modEnc c f).loadQ = s.loadQ := rfl
@[simp] theorem modEnc_spare (s : State) (c : Ma) (f : EncU → EncU) : (s.modEnc c f).spare = s.spare := rfl
@[simp] theorem modEnc_vec (s : State) (c : Ma) (f : EncU → EncU) : (s.modEnc c f).vec = s.vec := rfl
@[simp] theorem modEnc_sync (s : State) (c : Ma) (f : EncU → EncU) : (s.modEnc c f).sync = s.sync := rfl
@[simp] theorem modEnc_ta (s : State) (c : Ma) (f : EncU → EncU) : (s.modEnc c f).ta = s.ta := rfl
@[simp] theorem modEnc_sv (s : State) (c : Ma) (f : EncU → EncU) : (s.modEnc c f).sv = s.sv := rfl
@[simp] theorem modEnc_gridQ (s : State) (c : Ma) (f : EncU → EncU) : (s.modEnc c f).gridQ = s.gridQ := rfl
@[simp] theorem modEnc_las (s : State) (c : Ma) (f : EncU → EncU) : (s.modEnc c f).las = s.las := rfl
@[simp] theorem modEnc_lsafe (s : State) (c : Ma) (f : EncU → EncU) : (s.modEnc c f).lsafe = s.lsafe := rfl
@[simp] theorem modEnc_loop (s : State) (c : Ma) (f : EncU → EncU) : (s.modEnc c f).loop = s.loop := rfl
@[simp] theorem modEnc_trace (s : State) (c : Ma) (f : EncU → EncU) : (s.modEnc c f).trace = s.trace := rfl
@[simp] theorem modEnc_camTr (s : State) (c : Ma) (f : EncU → EncU) : (s.modEnc c f).camTr = s.camTr := rfl
@[simp] theorem modEnc_em (s : State) (c : Ma) (f : EncU → EncU) : (s.modEnc c f).em = s.em := rfl
@[simp] theorem modEnc_gd (s : State) (c : Ma) (f : EncU → EncU) : (s.modEnc c f).gd = s.gd := rfl
@[simp] theorem modEnc_gm (s : State) (c : Ma) (f : EncU → EncU) : (s.modEnc c f).gm = s.gm := rfl
@[simp] theorem modEnc_cam (s : State) (c : Ma) (f : EncU → EncU) : (s.modEnc c f).cam = s.cam := rfl
@[simp] theorem modEnc_cal (s : State) (c : Ma) (f : EncU → EncU) : (s.modEnc c f).cal = s.cal := rfl
@[simp] theorem modEnc_camEst (s : State) (c : Ma) (f : EncU → EncU) : (s.modEnc c f).camEst = s.camEst := rfl
@[simp] theorem modEnc_pool (s : State) (c : Ma) (f : EncU → EncU) : (s.modEnc c f).pool = s.pool := rfl
@[simp] theorem modEnc_cl (s : State) (c : Ma) (f : EncU → EncU) : (s.modEnc c f).cl = s.cl := rfl
@[simp] theorem modEnc_prb (s : State) (c : Ma) (f : EncU → EncU) : (s.modEnc c f).prb = s.prb := rfl
@[simp] theorem modEnc_ill (s : State) (c : Ma) (f : EncU → EncU) : (s.modEnc c f).ill = s.ill := rfl
@[simp] theorem modEnc_tags (s : State) (c : Ma) (f : EncU → EncU) : (s.modEnc c f).tags = s.tags := rfl
@[simp] theorem modEnc_lanes (s : State) (c : Ma) (f : EncU → EncU) : (s.modEnc c f).lanes = s.lanes := rfl
@[simp] theorem modEnc_rings (s : State) (c : Ma) (f : EncU → EncU) : (s.modEnc c f).rings = s.rings := rfl
@[simp] theorem modEnc_mcmd (s : State) (c : Ma) (f : EncU → EncU) : (s.modEnc c f).mcmd = s.mcmd := rfl
@[simp] theorem modEnc_link (s : State) (c : Ma) (f : EncU → EncU) : (s.modEnc c f).link = s.link := rfl
@[simp] theorem modEnc_ints (s : State) (c : Ma) (f : EncU → EncU) : (s.modEnc c f).ints = s.ints := rfl
@[simp] theorem modEnc_evt (s : State) (c : Ma) (f : EncU → EncU) : (s.modEnc c f).evt = s.evt := rfl
@[simp] theorem modEnc_log (s : State) (c : Ma) (f : EncU → EncU) : (s.modEnc c f).log = s.log := rfl
@[simp] theorem modEnc_safe (s : State) (c : Ma) (f : EncU → EncU) : (s.modEnc c f).safe = s.safe := rfl
@[simp] theorem modEnc_svc (s : State) (c : Ma) (f : EncU → EncU) : (s.modEnc c f).svc = s.svc := rfl
@[simp] theorem modEnc_hk (s : State) (c : Ma) (f : EncU → EncU) : (s.modEnc c f).hk = s.hk := rfl
@[simp] theorem modEnc_boot (s : State) (c : Ma) (f : EncU → EncU) : (s.modEnc c f).boot = s.boot := rfl
@[simp] theorem modEnc_fuse (s : State) (c : Ma) (f : EncU → EncU) : (s.modEnc c f).fuse = s.fuse := rfl
@[simp] theorem modEnc_bank (s : State) (c : Ma) (f : EncU → EncU) : (s.modEnc c f).bank = s.bank := rfl
@[simp] theorem modEnc_damper (s : State) (c : Ma) (f : EncU → EncU) : (s.modEnc c f).damper = s.damper := rfl
@[simp] theorem modEnc_outs (s : State) (c : Ma) (f : EncU → EncU) : (s.modEnc c f).outs = s.outs := rfl
@[simp] theorem modEnc_pending (s : State) (c : Ma) (f : EncU → EncU) : (s.modEnc c f).pending = s.pending := rfl

/-! modCmp changes ma alone. -/

@[simp] theorem modCmp_regs (s : State) (c : Ma) (f : CmpU → CmpU) : (s.modCmp c f).regs = s.regs := rfl
@[simp] theorem modCmp_sram (s : State) (c : Ma) (f : CmpU → CmpU) : (s.modCmp c f).sram = s.sram := rfl
@[simp] theorem modCmp_bad (s : State) (c : Ma) (f : CmpU → CmpU) : (s.modCmp c f).bad = s.bad := rfl
@[simp] theorem modCmp_now (s : State) (c : Ma) (f : CmpU → CmpU) : (s.modCmp c f).now = s.now := rfl
@[simp] theorem modCmp_free (s : State) (c : Ma) (f : CmpU → CmpU) : (s.modCmp c f).free = s.free := rfl
@[simp] theorem modCmp_clk (s : State) (c : Ma) (f : CmpU → CmpU) : (s.modCmp c f).clk = s.clk := rfl
@[simp] theorem modCmp_staged (s : State) (c : Ma) (f : CmpU → CmpU) : (s.modCmp c f).staged = s.staged := rfl
@[simp] theorem modCmp_time (s : State) (c : Ma) (f : CmpU → CmpU) : (s.modCmp c f).time = s.time := rfl
@[simp] theorem modCmp_gang (s : State) (c : Ma) (f : CmpU → CmpU) : (s.modCmp c f).gang = s.gang := rfl
@[simp] theorem modCmp_eng (s : State) (c : Ma) (f : CmpU → CmpU) : (s.modCmp c f).eng = s.eng := rfl
@[simp] theorem modCmp_ch (s : State) (c : Ma) (f : CmpU → CmpU) : (s.modCmp c f).ch = s.ch := rfl
@[simp] theorem modCmp_loadQ (s : State) (c : Ma) (f : CmpU → CmpU) : (s.modCmp c f).loadQ = s.loadQ := rfl
@[simp] theorem modCmp_spare (s : State) (c : Ma) (f : CmpU → CmpU) : (s.modCmp c f).spare = s.spare := rfl
@[simp] theorem modCmp_vec (s : State) (c : Ma) (f : CmpU → CmpU) : (s.modCmp c f).vec = s.vec := rfl
@[simp] theorem modCmp_sync (s : State) (c : Ma) (f : CmpU → CmpU) : (s.modCmp c f).sync = s.sync := rfl
@[simp] theorem modCmp_ta (s : State) (c : Ma) (f : CmpU → CmpU) : (s.modCmp c f).ta = s.ta := rfl
@[simp] theorem modCmp_sv (s : State) (c : Ma) (f : CmpU → CmpU) : (s.modCmp c f).sv = s.sv := rfl
@[simp] theorem modCmp_gridQ (s : State) (c : Ma) (f : CmpU → CmpU) : (s.modCmp c f).gridQ = s.gridQ := rfl
@[simp] theorem modCmp_las (s : State) (c : Ma) (f : CmpU → CmpU) : (s.modCmp c f).las = s.las := rfl
@[simp] theorem modCmp_lsafe (s : State) (c : Ma) (f : CmpU → CmpU) : (s.modCmp c f).lsafe = s.lsafe := rfl
@[simp] theorem modCmp_loop (s : State) (c : Ma) (f : CmpU → CmpU) : (s.modCmp c f).loop = s.loop := rfl
@[simp] theorem modCmp_trace (s : State) (c : Ma) (f : CmpU → CmpU) : (s.modCmp c f).trace = s.trace := rfl
@[simp] theorem modCmp_camTr (s : State) (c : Ma) (f : CmpU → CmpU) : (s.modCmp c f).camTr = s.camTr := rfl
@[simp] theorem modCmp_em (s : State) (c : Ma) (f : CmpU → CmpU) : (s.modCmp c f).em = s.em := rfl
@[simp] theorem modCmp_gd (s : State) (c : Ma) (f : CmpU → CmpU) : (s.modCmp c f).gd = s.gd := rfl
@[simp] theorem modCmp_gm (s : State) (c : Ma) (f : CmpU → CmpU) : (s.modCmp c f).gm = s.gm := rfl
@[simp] theorem modCmp_cam (s : State) (c : Ma) (f : CmpU → CmpU) : (s.modCmp c f).cam = s.cam := rfl
@[simp] theorem modCmp_cal (s : State) (c : Ma) (f : CmpU → CmpU) : (s.modCmp c f).cal = s.cal := rfl
@[simp] theorem modCmp_camEst (s : State) (c : Ma) (f : CmpU → CmpU) : (s.modCmp c f).camEst = s.camEst := rfl
@[simp] theorem modCmp_pool (s : State) (c : Ma) (f : CmpU → CmpU) : (s.modCmp c f).pool = s.pool := rfl
@[simp] theorem modCmp_cl (s : State) (c : Ma) (f : CmpU → CmpU) : (s.modCmp c f).cl = s.cl := rfl
@[simp] theorem modCmp_prb (s : State) (c : Ma) (f : CmpU → CmpU) : (s.modCmp c f).prb = s.prb := rfl
@[simp] theorem modCmp_ill (s : State) (c : Ma) (f : CmpU → CmpU) : (s.modCmp c f).ill = s.ill := rfl
@[simp] theorem modCmp_tags (s : State) (c : Ma) (f : CmpU → CmpU) : (s.modCmp c f).tags = s.tags := rfl
@[simp] theorem modCmp_lanes (s : State) (c : Ma) (f : CmpU → CmpU) : (s.modCmp c f).lanes = s.lanes := rfl
@[simp] theorem modCmp_rings (s : State) (c : Ma) (f : CmpU → CmpU) : (s.modCmp c f).rings = s.rings := rfl
@[simp] theorem modCmp_mcmd (s : State) (c : Ma) (f : CmpU → CmpU) : (s.modCmp c f).mcmd = s.mcmd := rfl
@[simp] theorem modCmp_link (s : State) (c : Ma) (f : CmpU → CmpU) : (s.modCmp c f).link = s.link := rfl
@[simp] theorem modCmp_ints (s : State) (c : Ma) (f : CmpU → CmpU) : (s.modCmp c f).ints = s.ints := rfl
@[simp] theorem modCmp_evt (s : State) (c : Ma) (f : CmpU → CmpU) : (s.modCmp c f).evt = s.evt := rfl
@[simp] theorem modCmp_log (s : State) (c : Ma) (f : CmpU → CmpU) : (s.modCmp c f).log = s.log := rfl
@[simp] theorem modCmp_safe (s : State) (c : Ma) (f : CmpU → CmpU) : (s.modCmp c f).safe = s.safe := rfl
@[simp] theorem modCmp_svc (s : State) (c : Ma) (f : CmpU → CmpU) : (s.modCmp c f).svc = s.svc := rfl
@[simp] theorem modCmp_hk (s : State) (c : Ma) (f : CmpU → CmpU) : (s.modCmp c f).hk = s.hk := rfl
@[simp] theorem modCmp_boot (s : State) (c : Ma) (f : CmpU → CmpU) : (s.modCmp c f).boot = s.boot := rfl
@[simp] theorem modCmp_fuse (s : State) (c : Ma) (f : CmpU → CmpU) : (s.modCmp c f).fuse = s.fuse := rfl
@[simp] theorem modCmp_bank (s : State) (c : Ma) (f : CmpU → CmpU) : (s.modCmp c f).bank = s.bank := rfl
@[simp] theorem modCmp_damper (s : State) (c : Ma) (f : CmpU → CmpU) : (s.modCmp c f).damper = s.damper := rfl
@[simp] theorem modCmp_outs (s : State) (c : Ma) (f : CmpU → CmpU) : (s.modCmp c f).outs = s.outs := rfl
@[simp] theorem modCmp_pending (s : State) (c : Ma) (f : CmpU → CmpU) : (s.modCmp c f).pending = s.pending := rfl

/-! modFwd changes ma alone. -/

@[simp] theorem modFwd_regs (s : State) (c : Ma) (f : FwdU → FwdU) : (s.modFwd c f).regs = s.regs := rfl
@[simp] theorem modFwd_sram (s : State) (c : Ma) (f : FwdU → FwdU) : (s.modFwd c f).sram = s.sram := rfl
@[simp] theorem modFwd_bad (s : State) (c : Ma) (f : FwdU → FwdU) : (s.modFwd c f).bad = s.bad := rfl
@[simp] theorem modFwd_now (s : State) (c : Ma) (f : FwdU → FwdU) : (s.modFwd c f).now = s.now := rfl
@[simp] theorem modFwd_free (s : State) (c : Ma) (f : FwdU → FwdU) : (s.modFwd c f).free = s.free := rfl
@[simp] theorem modFwd_clk (s : State) (c : Ma) (f : FwdU → FwdU) : (s.modFwd c f).clk = s.clk := rfl
@[simp] theorem modFwd_staged (s : State) (c : Ma) (f : FwdU → FwdU) : (s.modFwd c f).staged = s.staged := rfl
@[simp] theorem modFwd_time (s : State) (c : Ma) (f : FwdU → FwdU) : (s.modFwd c f).time = s.time := rfl
@[simp] theorem modFwd_gang (s : State) (c : Ma) (f : FwdU → FwdU) : (s.modFwd c f).gang = s.gang := rfl
@[simp] theorem modFwd_eng (s : State) (c : Ma) (f : FwdU → FwdU) : (s.modFwd c f).eng = s.eng := rfl
@[simp] theorem modFwd_ch (s : State) (c : Ma) (f : FwdU → FwdU) : (s.modFwd c f).ch = s.ch := rfl
@[simp] theorem modFwd_loadQ (s : State) (c : Ma) (f : FwdU → FwdU) : (s.modFwd c f).loadQ = s.loadQ := rfl
@[simp] theorem modFwd_spare (s : State) (c : Ma) (f : FwdU → FwdU) : (s.modFwd c f).spare = s.spare := rfl
@[simp] theorem modFwd_vec (s : State) (c : Ma) (f : FwdU → FwdU) : (s.modFwd c f).vec = s.vec := rfl
@[simp] theorem modFwd_sync (s : State) (c : Ma) (f : FwdU → FwdU) : (s.modFwd c f).sync = s.sync := rfl
@[simp] theorem modFwd_ta (s : State) (c : Ma) (f : FwdU → FwdU) : (s.modFwd c f).ta = s.ta := rfl
@[simp] theorem modFwd_sv (s : State) (c : Ma) (f : FwdU → FwdU) : (s.modFwd c f).sv = s.sv := rfl
@[simp] theorem modFwd_gridQ (s : State) (c : Ma) (f : FwdU → FwdU) : (s.modFwd c f).gridQ = s.gridQ := rfl
@[simp] theorem modFwd_las (s : State) (c : Ma) (f : FwdU → FwdU) : (s.modFwd c f).las = s.las := rfl
@[simp] theorem modFwd_lsafe (s : State) (c : Ma) (f : FwdU → FwdU) : (s.modFwd c f).lsafe = s.lsafe := rfl
@[simp] theorem modFwd_loop (s : State) (c : Ma) (f : FwdU → FwdU) : (s.modFwd c f).loop = s.loop := rfl
@[simp] theorem modFwd_trace (s : State) (c : Ma) (f : FwdU → FwdU) : (s.modFwd c f).trace = s.trace := rfl
@[simp] theorem modFwd_camTr (s : State) (c : Ma) (f : FwdU → FwdU) : (s.modFwd c f).camTr = s.camTr := rfl
@[simp] theorem modFwd_em (s : State) (c : Ma) (f : FwdU → FwdU) : (s.modFwd c f).em = s.em := rfl
@[simp] theorem modFwd_gd (s : State) (c : Ma) (f : FwdU → FwdU) : (s.modFwd c f).gd = s.gd := rfl
@[simp] theorem modFwd_gm (s : State) (c : Ma) (f : FwdU → FwdU) : (s.modFwd c f).gm = s.gm := rfl
@[simp] theorem modFwd_cam (s : State) (c : Ma) (f : FwdU → FwdU) : (s.modFwd c f).cam = s.cam := rfl
@[simp] theorem modFwd_cal (s : State) (c : Ma) (f : FwdU → FwdU) : (s.modFwd c f).cal = s.cal := rfl
@[simp] theorem modFwd_camEst (s : State) (c : Ma) (f : FwdU → FwdU) : (s.modFwd c f).camEst = s.camEst := rfl
@[simp] theorem modFwd_pool (s : State) (c : Ma) (f : FwdU → FwdU) : (s.modFwd c f).pool = s.pool := rfl
@[simp] theorem modFwd_cl (s : State) (c : Ma) (f : FwdU → FwdU) : (s.modFwd c f).cl = s.cl := rfl
@[simp] theorem modFwd_prb (s : State) (c : Ma) (f : FwdU → FwdU) : (s.modFwd c f).prb = s.prb := rfl
@[simp] theorem modFwd_ill (s : State) (c : Ma) (f : FwdU → FwdU) : (s.modFwd c f).ill = s.ill := rfl
@[simp] theorem modFwd_tags (s : State) (c : Ma) (f : FwdU → FwdU) : (s.modFwd c f).tags = s.tags := rfl
@[simp] theorem modFwd_lanes (s : State) (c : Ma) (f : FwdU → FwdU) : (s.modFwd c f).lanes = s.lanes := rfl
@[simp] theorem modFwd_rings (s : State) (c : Ma) (f : FwdU → FwdU) : (s.modFwd c f).rings = s.rings := rfl
@[simp] theorem modFwd_mcmd (s : State) (c : Ma) (f : FwdU → FwdU) : (s.modFwd c f).mcmd = s.mcmd := rfl
@[simp] theorem modFwd_link (s : State) (c : Ma) (f : FwdU → FwdU) : (s.modFwd c f).link = s.link := rfl
@[simp] theorem modFwd_ints (s : State) (c : Ma) (f : FwdU → FwdU) : (s.modFwd c f).ints = s.ints := rfl
@[simp] theorem modFwd_evt (s : State) (c : Ma) (f : FwdU → FwdU) : (s.modFwd c f).evt = s.evt := rfl
@[simp] theorem modFwd_log (s : State) (c : Ma) (f : FwdU → FwdU) : (s.modFwd c f).log = s.log := rfl
@[simp] theorem modFwd_safe (s : State) (c : Ma) (f : FwdU → FwdU) : (s.modFwd c f).safe = s.safe := rfl
@[simp] theorem modFwd_svc (s : State) (c : Ma) (f : FwdU → FwdU) : (s.modFwd c f).svc = s.svc := rfl
@[simp] theorem modFwd_hk (s : State) (c : Ma) (f : FwdU → FwdU) : (s.modFwd c f).hk = s.hk := rfl
@[simp] theorem modFwd_boot (s : State) (c : Ma) (f : FwdU → FwdU) : (s.modFwd c f).boot = s.boot := rfl
@[simp] theorem modFwd_fuse (s : State) (c : Ma) (f : FwdU → FwdU) : (s.modFwd c f).fuse = s.fuse := rfl
@[simp] theorem modFwd_bank (s : State) (c : Ma) (f : FwdU → FwdU) : (s.modFwd c f).bank = s.bank := rfl
@[simp] theorem modFwd_damper (s : State) (c : Ma) (f : FwdU → FwdU) : (s.modFwd c f).damper = s.damper := rfl
@[simp] theorem modFwd_outs (s : State) (c : Ma) (f : FwdU → FwdU) : (s.modFwd c f).outs = s.outs := rfl
@[simp] theorem modFwd_pending (s : State) (c : Ma) (f : FwdU → FwdU) : (s.modFwd c f).pending = s.pending := rfl

/-! modTag changes tags alone. -/

@[simp] theorem modTag_regs (s : State) (c : Fin 26) (f : TagU → TagU) : (s.modTag c f).regs = s.regs := rfl
@[simp] theorem modTag_sram (s : State) (c : Fin 26) (f : TagU → TagU) : (s.modTag c f).sram = s.sram := rfl
@[simp] theorem modTag_bad (s : State) (c : Fin 26) (f : TagU → TagU) : (s.modTag c f).bad = s.bad := rfl
@[simp] theorem modTag_now (s : State) (c : Fin 26) (f : TagU → TagU) : (s.modTag c f).now = s.now := rfl
@[simp] theorem modTag_free (s : State) (c : Fin 26) (f : TagU → TagU) : (s.modTag c f).free = s.free := rfl
@[simp] theorem modTag_clk (s : State) (c : Fin 26) (f : TagU → TagU) : (s.modTag c f).clk = s.clk := rfl
@[simp] theorem modTag_staged (s : State) (c : Fin 26) (f : TagU → TagU) : (s.modTag c f).staged = s.staged := rfl
@[simp] theorem modTag_time (s : State) (c : Fin 26) (f : TagU → TagU) : (s.modTag c f).time = s.time := rfl
@[simp] theorem modTag_gang (s : State) (c : Fin 26) (f : TagU → TagU) : (s.modTag c f).gang = s.gang := rfl
@[simp] theorem modTag_eng (s : State) (c : Fin 26) (f : TagU → TagU) : (s.modTag c f).eng = s.eng := rfl
@[simp] theorem modTag_ch (s : State) (c : Fin 26) (f : TagU → TagU) : (s.modTag c f).ch = s.ch := rfl
@[simp] theorem modTag_loadQ (s : State) (c : Fin 26) (f : TagU → TagU) : (s.modTag c f).loadQ = s.loadQ := rfl
@[simp] theorem modTag_spare (s : State) (c : Fin 26) (f : TagU → TagU) : (s.modTag c f).spare = s.spare := rfl
@[simp] theorem modTag_vec (s : State) (c : Fin 26) (f : TagU → TagU) : (s.modTag c f).vec = s.vec := rfl
@[simp] theorem modTag_sync (s : State) (c : Fin 26) (f : TagU → TagU) : (s.modTag c f).sync = s.sync := rfl
@[simp] theorem modTag_ta (s : State) (c : Fin 26) (f : TagU → TagU) : (s.modTag c f).ta = s.ta := rfl
@[simp] theorem modTag_sv (s : State) (c : Fin 26) (f : TagU → TagU) : (s.modTag c f).sv = s.sv := rfl
@[simp] theorem modTag_gridQ (s : State) (c : Fin 26) (f : TagU → TagU) : (s.modTag c f).gridQ = s.gridQ := rfl
@[simp] theorem modTag_las (s : State) (c : Fin 26) (f : TagU → TagU) : (s.modTag c f).las = s.las := rfl
@[simp] theorem modTag_lsafe (s : State) (c : Fin 26) (f : TagU → TagU) : (s.modTag c f).lsafe = s.lsafe := rfl
@[simp] theorem modTag_loop (s : State) (c : Fin 26) (f : TagU → TagU) : (s.modTag c f).loop = s.loop := rfl
@[simp] theorem modTag_trace (s : State) (c : Fin 26) (f : TagU → TagU) : (s.modTag c f).trace = s.trace := rfl
@[simp] theorem modTag_camTr (s : State) (c : Fin 26) (f : TagU → TagU) : (s.modTag c f).camTr = s.camTr := rfl
@[simp] theorem modTag_em (s : State) (c : Fin 26) (f : TagU → TagU) : (s.modTag c f).em = s.em := rfl
@[simp] theorem modTag_gd (s : State) (c : Fin 26) (f : TagU → TagU) : (s.modTag c f).gd = s.gd := rfl
@[simp] theorem modTag_gm (s : State) (c : Fin 26) (f : TagU → TagU) : (s.modTag c f).gm = s.gm := rfl
@[simp] theorem modTag_cam (s : State) (c : Fin 26) (f : TagU → TagU) : (s.modTag c f).cam = s.cam := rfl
@[simp] theorem modTag_cal (s : State) (c : Fin 26) (f : TagU → TagU) : (s.modTag c f).cal = s.cal := rfl
@[simp] theorem modTag_camEst (s : State) (c : Fin 26) (f : TagU → TagU) : (s.modTag c f).camEst = s.camEst := rfl
@[simp] theorem modTag_pool (s : State) (c : Fin 26) (f : TagU → TagU) : (s.modTag c f).pool = s.pool := rfl
@[simp] theorem modTag_cl (s : State) (c : Fin 26) (f : TagU → TagU) : (s.modTag c f).cl = s.cl := rfl
@[simp] theorem modTag_ma (s : State) (c : Fin 26) (f : TagU → TagU) : (s.modTag c f).ma = s.ma := rfl
@[simp] theorem modTag_prb (s : State) (c : Fin 26) (f : TagU → TagU) : (s.modTag c f).prb = s.prb := rfl
@[simp] theorem modTag_ill (s : State) (c : Fin 26) (f : TagU → TagU) : (s.modTag c f).ill = s.ill := rfl
@[simp] theorem modTag_lanes (s : State) (c : Fin 26) (f : TagU → TagU) : (s.modTag c f).lanes = s.lanes := rfl
@[simp] theorem modTag_rings (s : State) (c : Fin 26) (f : TagU → TagU) : (s.modTag c f).rings = s.rings := rfl
@[simp] theorem modTag_mcmd (s : State) (c : Fin 26) (f : TagU → TagU) : (s.modTag c f).mcmd = s.mcmd := rfl
@[simp] theorem modTag_link (s : State) (c : Fin 26) (f : TagU → TagU) : (s.modTag c f).link = s.link := rfl
@[simp] theorem modTag_ints (s : State) (c : Fin 26) (f : TagU → TagU) : (s.modTag c f).ints = s.ints := rfl
@[simp] theorem modTag_evt (s : State) (c : Fin 26) (f : TagU → TagU) : (s.modTag c f).evt = s.evt := rfl
@[simp] theorem modTag_log (s : State) (c : Fin 26) (f : TagU → TagU) : (s.modTag c f).log = s.log := rfl
@[simp] theorem modTag_safe (s : State) (c : Fin 26) (f : TagU → TagU) : (s.modTag c f).safe = s.safe := rfl
@[simp] theorem modTag_svc (s : State) (c : Fin 26) (f : TagU → TagU) : (s.modTag c f).svc = s.svc := rfl
@[simp] theorem modTag_hk (s : State) (c : Fin 26) (f : TagU → TagU) : (s.modTag c f).hk = s.hk := rfl
@[simp] theorem modTag_boot (s : State) (c : Fin 26) (f : TagU → TagU) : (s.modTag c f).boot = s.boot := rfl
@[simp] theorem modTag_fuse (s : State) (c : Fin 26) (f : TagU → TagU) : (s.modTag c f).fuse = s.fuse := rfl
@[simp] theorem modTag_bank (s : State) (c : Fin 26) (f : TagU → TagU) : (s.modTag c f).bank = s.bank := rfl
@[simp] theorem modTag_damper (s : State) (c : Fin 26) (f : TagU → TagU) : (s.modTag c f).damper = s.damper := rfl
@[simp] theorem modTag_outs (s : State) (c : Fin 26) (f : TagU → TagU) : (s.modTag c f).outs = s.outs := rfl
@[simp] theorem modTag_pending (s : State) (c : Fin 26) (f : TagU → TagU) : (s.modTag c f).pending = s.pending := rfl

/-! modPort changes lanes alone. -/

@[simp] theorem modPort_regs (s : State) (c : Fin 2) (f : PortU → PortU) : (s.modPort c f).regs = s.regs := rfl
@[simp] theorem modPort_sram (s : State) (c : Fin 2) (f : PortU → PortU) : (s.modPort c f).sram = s.sram := rfl
@[simp] theorem modPort_bad (s : State) (c : Fin 2) (f : PortU → PortU) : (s.modPort c f).bad = s.bad := rfl
@[simp] theorem modPort_now (s : State) (c : Fin 2) (f : PortU → PortU) : (s.modPort c f).now = s.now := rfl
@[simp] theorem modPort_free (s : State) (c : Fin 2) (f : PortU → PortU) : (s.modPort c f).free = s.free := rfl
@[simp] theorem modPort_clk (s : State) (c : Fin 2) (f : PortU → PortU) : (s.modPort c f).clk = s.clk := rfl
@[simp] theorem modPort_staged (s : State) (c : Fin 2) (f : PortU → PortU) : (s.modPort c f).staged = s.staged := rfl
@[simp] theorem modPort_time (s : State) (c : Fin 2) (f : PortU → PortU) : (s.modPort c f).time = s.time := rfl
@[simp] theorem modPort_gang (s : State) (c : Fin 2) (f : PortU → PortU) : (s.modPort c f).gang = s.gang := rfl
@[simp] theorem modPort_eng (s : State) (c : Fin 2) (f : PortU → PortU) : (s.modPort c f).eng = s.eng := rfl
@[simp] theorem modPort_ch (s : State) (c : Fin 2) (f : PortU → PortU) : (s.modPort c f).ch = s.ch := rfl
@[simp] theorem modPort_loadQ (s : State) (c : Fin 2) (f : PortU → PortU) : (s.modPort c f).loadQ = s.loadQ := rfl
@[simp] theorem modPort_spare (s : State) (c : Fin 2) (f : PortU → PortU) : (s.modPort c f).spare = s.spare := rfl
@[simp] theorem modPort_vec (s : State) (c : Fin 2) (f : PortU → PortU) : (s.modPort c f).vec = s.vec := rfl
@[simp] theorem modPort_sync (s : State) (c : Fin 2) (f : PortU → PortU) : (s.modPort c f).sync = s.sync := rfl
@[simp] theorem modPort_ta (s : State) (c : Fin 2) (f : PortU → PortU) : (s.modPort c f).ta = s.ta := rfl
@[simp] theorem modPort_sv (s : State) (c : Fin 2) (f : PortU → PortU) : (s.modPort c f).sv = s.sv := rfl
@[simp] theorem modPort_gridQ (s : State) (c : Fin 2) (f : PortU → PortU) : (s.modPort c f).gridQ = s.gridQ := rfl
@[simp] theorem modPort_las (s : State) (c : Fin 2) (f : PortU → PortU) : (s.modPort c f).las = s.las := rfl
@[simp] theorem modPort_lsafe (s : State) (c : Fin 2) (f : PortU → PortU) : (s.modPort c f).lsafe = s.lsafe := rfl
@[simp] theorem modPort_loop (s : State) (c : Fin 2) (f : PortU → PortU) : (s.modPort c f).loop = s.loop := rfl
@[simp] theorem modPort_trace (s : State) (c : Fin 2) (f : PortU → PortU) : (s.modPort c f).trace = s.trace := rfl
@[simp] theorem modPort_camTr (s : State) (c : Fin 2) (f : PortU → PortU) : (s.modPort c f).camTr = s.camTr := rfl
@[simp] theorem modPort_em (s : State) (c : Fin 2) (f : PortU → PortU) : (s.modPort c f).em = s.em := rfl
@[simp] theorem modPort_gd (s : State) (c : Fin 2) (f : PortU → PortU) : (s.modPort c f).gd = s.gd := rfl
@[simp] theorem modPort_gm (s : State) (c : Fin 2) (f : PortU → PortU) : (s.modPort c f).gm = s.gm := rfl
@[simp] theorem modPort_cam (s : State) (c : Fin 2) (f : PortU → PortU) : (s.modPort c f).cam = s.cam := rfl
@[simp] theorem modPort_cal (s : State) (c : Fin 2) (f : PortU → PortU) : (s.modPort c f).cal = s.cal := rfl
@[simp] theorem modPort_camEst (s : State) (c : Fin 2) (f : PortU → PortU) : (s.modPort c f).camEst = s.camEst := rfl
@[simp] theorem modPort_pool (s : State) (c : Fin 2) (f : PortU → PortU) : (s.modPort c f).pool = s.pool := rfl
@[simp] theorem modPort_cl (s : State) (c : Fin 2) (f : PortU → PortU) : (s.modPort c f).cl = s.cl := rfl
@[simp] theorem modPort_ma (s : State) (c : Fin 2) (f : PortU → PortU) : (s.modPort c f).ma = s.ma := rfl
@[simp] theorem modPort_prb (s : State) (c : Fin 2) (f : PortU → PortU) : (s.modPort c f).prb = s.prb := rfl
@[simp] theorem modPort_ill (s : State) (c : Fin 2) (f : PortU → PortU) : (s.modPort c f).ill = s.ill := rfl
@[simp] theorem modPort_tags (s : State) (c : Fin 2) (f : PortU → PortU) : (s.modPort c f).tags = s.tags := rfl
@[simp] theorem modPort_rings (s : State) (c : Fin 2) (f : PortU → PortU) : (s.modPort c f).rings = s.rings := rfl
@[simp] theorem modPort_mcmd (s : State) (c : Fin 2) (f : PortU → PortU) : (s.modPort c f).mcmd = s.mcmd := rfl
@[simp] theorem modPort_link (s : State) (c : Fin 2) (f : PortU → PortU) : (s.modPort c f).link = s.link := rfl
@[simp] theorem modPort_ints (s : State) (c : Fin 2) (f : PortU → PortU) : (s.modPort c f).ints = s.ints := rfl
@[simp] theorem modPort_evt (s : State) (c : Fin 2) (f : PortU → PortU) : (s.modPort c f).evt = s.evt := rfl
@[simp] theorem modPort_log (s : State) (c : Fin 2) (f : PortU → PortU) : (s.modPort c f).log = s.log := rfl
@[simp] theorem modPort_safe (s : State) (c : Fin 2) (f : PortU → PortU) : (s.modPort c f).safe = s.safe := rfl
@[simp] theorem modPort_svc (s : State) (c : Fin 2) (f : PortU → PortU) : (s.modPort c f).svc = s.svc := rfl
@[simp] theorem modPort_hk (s : State) (c : Fin 2) (f : PortU → PortU) : (s.modPort c f).hk = s.hk := rfl
@[simp] theorem modPort_boot (s : State) (c : Fin 2) (f : PortU → PortU) : (s.modPort c f).boot = s.boot := rfl
@[simp] theorem modPort_fuse (s : State) (c : Fin 2) (f : PortU → PortU) : (s.modPort c f).fuse = s.fuse := rfl
@[simp] theorem modPort_bank (s : State) (c : Fin 2) (f : PortU → PortU) : (s.modPort c f).bank = s.bank := rfl
@[simp] theorem modPort_damper (s : State) (c : Fin 2) (f : PortU → PortU) : (s.modPort c f).damper = s.damper := rfl
@[simp] theorem modPort_outs (s : State) (c : Fin 2) (f : PortU → PortU) : (s.modPort c f).outs = s.outs := rfl
@[simp] theorem modPort_pending (s : State) (c : Fin 2) (f : PortU → PortU) : (s.modPort c f).pending = s.pending := rfl

/-! modMember changes gm alone. -/

@[simp] theorem modMember_regs (s : State) (c : Fin 4) (f : Member → Member) : (s.modMember c f).regs = s.regs := rfl
@[simp] theorem modMember_sram (s : State) (c : Fin 4) (f : Member → Member) : (s.modMember c f).sram = s.sram := rfl
@[simp] theorem modMember_bad (s : State) (c : Fin 4) (f : Member → Member) : (s.modMember c f).bad = s.bad := rfl
@[simp] theorem modMember_now (s : State) (c : Fin 4) (f : Member → Member) : (s.modMember c f).now = s.now := rfl
@[simp] theorem modMember_free (s : State) (c : Fin 4) (f : Member → Member) : (s.modMember c f).free = s.free := rfl
@[simp] theorem modMember_clk (s : State) (c : Fin 4) (f : Member → Member) : (s.modMember c f).clk = s.clk := rfl
@[simp] theorem modMember_staged (s : State) (c : Fin 4) (f : Member → Member) : (s.modMember c f).staged = s.staged := rfl
@[simp] theorem modMember_time (s : State) (c : Fin 4) (f : Member → Member) : (s.modMember c f).time = s.time := rfl
@[simp] theorem modMember_gang (s : State) (c : Fin 4) (f : Member → Member) : (s.modMember c f).gang = s.gang := rfl
@[simp] theorem modMember_eng (s : State) (c : Fin 4) (f : Member → Member) : (s.modMember c f).eng = s.eng := rfl
@[simp] theorem modMember_ch (s : State) (c : Fin 4) (f : Member → Member) : (s.modMember c f).ch = s.ch := rfl
@[simp] theorem modMember_loadQ (s : State) (c : Fin 4) (f : Member → Member) : (s.modMember c f).loadQ = s.loadQ := rfl
@[simp] theorem modMember_spare (s : State) (c : Fin 4) (f : Member → Member) : (s.modMember c f).spare = s.spare := rfl
@[simp] theorem modMember_vec (s : State) (c : Fin 4) (f : Member → Member) : (s.modMember c f).vec = s.vec := rfl
@[simp] theorem modMember_sync (s : State) (c : Fin 4) (f : Member → Member) : (s.modMember c f).sync = s.sync := rfl
@[simp] theorem modMember_ta (s : State) (c : Fin 4) (f : Member → Member) : (s.modMember c f).ta = s.ta := rfl
@[simp] theorem modMember_sv (s : State) (c : Fin 4) (f : Member → Member) : (s.modMember c f).sv = s.sv := rfl
@[simp] theorem modMember_gridQ (s : State) (c : Fin 4) (f : Member → Member) : (s.modMember c f).gridQ = s.gridQ := rfl
@[simp] theorem modMember_las (s : State) (c : Fin 4) (f : Member → Member) : (s.modMember c f).las = s.las := rfl
@[simp] theorem modMember_lsafe (s : State) (c : Fin 4) (f : Member → Member) : (s.modMember c f).lsafe = s.lsafe := rfl
@[simp] theorem modMember_loop (s : State) (c : Fin 4) (f : Member → Member) : (s.modMember c f).loop = s.loop := rfl
@[simp] theorem modMember_trace (s : State) (c : Fin 4) (f : Member → Member) : (s.modMember c f).trace = s.trace := rfl
@[simp] theorem modMember_camTr (s : State) (c : Fin 4) (f : Member → Member) : (s.modMember c f).camTr = s.camTr := rfl
@[simp] theorem modMember_em (s : State) (c : Fin 4) (f : Member → Member) : (s.modMember c f).em = s.em := rfl
@[simp] theorem modMember_gd (s : State) (c : Fin 4) (f : Member → Member) : (s.modMember c f).gd = s.gd := rfl
@[simp] theorem modMember_cam (s : State) (c : Fin 4) (f : Member → Member) : (s.modMember c f).cam = s.cam := rfl
@[simp] theorem modMember_cal (s : State) (c : Fin 4) (f : Member → Member) : (s.modMember c f).cal = s.cal := rfl
@[simp] theorem modMember_camEst (s : State) (c : Fin 4) (f : Member → Member) : (s.modMember c f).camEst = s.camEst := rfl
@[simp] theorem modMember_pool (s : State) (c : Fin 4) (f : Member → Member) : (s.modMember c f).pool = s.pool := rfl
@[simp] theorem modMember_cl (s : State) (c : Fin 4) (f : Member → Member) : (s.modMember c f).cl = s.cl := rfl
@[simp] theorem modMember_ma (s : State) (c : Fin 4) (f : Member → Member) : (s.modMember c f).ma = s.ma := rfl
@[simp] theorem modMember_prb (s : State) (c : Fin 4) (f : Member → Member) : (s.modMember c f).prb = s.prb := rfl
@[simp] theorem modMember_ill (s : State) (c : Fin 4) (f : Member → Member) : (s.modMember c f).ill = s.ill := rfl
@[simp] theorem modMember_tags (s : State) (c : Fin 4) (f : Member → Member) : (s.modMember c f).tags = s.tags := rfl
@[simp] theorem modMember_lanes (s : State) (c : Fin 4) (f : Member → Member) : (s.modMember c f).lanes = s.lanes := rfl
@[simp] theorem modMember_rings (s : State) (c : Fin 4) (f : Member → Member) : (s.modMember c f).rings = s.rings := rfl
@[simp] theorem modMember_mcmd (s : State) (c : Fin 4) (f : Member → Member) : (s.modMember c f).mcmd = s.mcmd := rfl
@[simp] theorem modMember_link (s : State) (c : Fin 4) (f : Member → Member) : (s.modMember c f).link = s.link := rfl
@[simp] theorem modMember_ints (s : State) (c : Fin 4) (f : Member → Member) : (s.modMember c f).ints = s.ints := rfl
@[simp] theorem modMember_evt (s : State) (c : Fin 4) (f : Member → Member) : (s.modMember c f).evt = s.evt := rfl
@[simp] theorem modMember_log (s : State) (c : Fin 4) (f : Member → Member) : (s.modMember c f).log = s.log := rfl
@[simp] theorem modMember_safe (s : State) (c : Fin 4) (f : Member → Member) : (s.modMember c f).safe = s.safe := rfl
@[simp] theorem modMember_svc (s : State) (c : Fin 4) (f : Member → Member) : (s.modMember c f).svc = s.svc := rfl
@[simp] theorem modMember_hk (s : State) (c : Fin 4) (f : Member → Member) : (s.modMember c f).hk = s.hk := rfl
@[simp] theorem modMember_boot (s : State) (c : Fin 4) (f : Member → Member) : (s.modMember c f).boot = s.boot := rfl
@[simp] theorem modMember_fuse (s : State) (c : Fin 4) (f : Member → Member) : (s.modMember c f).fuse = s.fuse := rfl
@[simp] theorem modMember_bank (s : State) (c : Fin 4) (f : Member → Member) : (s.modMember c f).bank = s.bank := rfl
@[simp] theorem modMember_damper (s : State) (c : Fin 4) (f : Member → Member) : (s.modMember c f).damper = s.damper := rfl
@[simp] theorem modMember_outs (s : State) (c : Fin 4) (f : Member → Member) : (s.modMember c f).outs = s.outs := rfl
@[simp] theorem modMember_pending (s : State) (c : Fin 4) (f : Member → Member) : (s.modMember c f).pending = s.pending := rfl

/-! modEm changes em alone. -/

@[simp] theorem modEm_regs (s : State) (c : Ch) (f : EmCh → EmCh) : (s.modEm c f).regs = s.regs := rfl
@[simp] theorem modEm_sram (s : State) (c : Ch) (f : EmCh → EmCh) : (s.modEm c f).sram = s.sram := rfl
@[simp] theorem modEm_bad (s : State) (c : Ch) (f : EmCh → EmCh) : (s.modEm c f).bad = s.bad := rfl
@[simp] theorem modEm_now (s : State) (c : Ch) (f : EmCh → EmCh) : (s.modEm c f).now = s.now := rfl
@[simp] theorem modEm_free (s : State) (c : Ch) (f : EmCh → EmCh) : (s.modEm c f).free = s.free := rfl
@[simp] theorem modEm_clk (s : State) (c : Ch) (f : EmCh → EmCh) : (s.modEm c f).clk = s.clk := rfl
@[simp] theorem modEm_staged (s : State) (c : Ch) (f : EmCh → EmCh) : (s.modEm c f).staged = s.staged := rfl
@[simp] theorem modEm_time (s : State) (c : Ch) (f : EmCh → EmCh) : (s.modEm c f).time = s.time := rfl
@[simp] theorem modEm_gang (s : State) (c : Ch) (f : EmCh → EmCh) : (s.modEm c f).gang = s.gang := rfl
@[simp] theorem modEm_eng (s : State) (c : Ch) (f : EmCh → EmCh) : (s.modEm c f).eng = s.eng := rfl
@[simp] theorem modEm_ch (s : State) (c : Ch) (f : EmCh → EmCh) : (s.modEm c f).ch = s.ch := rfl
@[simp] theorem modEm_loadQ (s : State) (c : Ch) (f : EmCh → EmCh) : (s.modEm c f).loadQ = s.loadQ := rfl
@[simp] theorem modEm_spare (s : State) (c : Ch) (f : EmCh → EmCh) : (s.modEm c f).spare = s.spare := rfl
@[simp] theorem modEm_vec (s : State) (c : Ch) (f : EmCh → EmCh) : (s.modEm c f).vec = s.vec := rfl
@[simp] theorem modEm_sync (s : State) (c : Ch) (f : EmCh → EmCh) : (s.modEm c f).sync = s.sync := rfl
@[simp] theorem modEm_ta (s : State) (c : Ch) (f : EmCh → EmCh) : (s.modEm c f).ta = s.ta := rfl
@[simp] theorem modEm_sv (s : State) (c : Ch) (f : EmCh → EmCh) : (s.modEm c f).sv = s.sv := rfl
@[simp] theorem modEm_gridQ (s : State) (c : Ch) (f : EmCh → EmCh) : (s.modEm c f).gridQ = s.gridQ := rfl
@[simp] theorem modEm_las (s : State) (c : Ch) (f : EmCh → EmCh) : (s.modEm c f).las = s.las := rfl
@[simp] theorem modEm_lsafe (s : State) (c : Ch) (f : EmCh → EmCh) : (s.modEm c f).lsafe = s.lsafe := rfl
@[simp] theorem modEm_loop (s : State) (c : Ch) (f : EmCh → EmCh) : (s.modEm c f).loop = s.loop := rfl
@[simp] theorem modEm_trace (s : State) (c : Ch) (f : EmCh → EmCh) : (s.modEm c f).trace = s.trace := rfl
@[simp] theorem modEm_camTr (s : State) (c : Ch) (f : EmCh → EmCh) : (s.modEm c f).camTr = s.camTr := rfl
@[simp] theorem modEm_gd (s : State) (c : Ch) (f : EmCh → EmCh) : (s.modEm c f).gd = s.gd := rfl
@[simp] theorem modEm_gm (s : State) (c : Ch) (f : EmCh → EmCh) : (s.modEm c f).gm = s.gm := rfl
@[simp] theorem modEm_cam (s : State) (c : Ch) (f : EmCh → EmCh) : (s.modEm c f).cam = s.cam := rfl
@[simp] theorem modEm_cal (s : State) (c : Ch) (f : EmCh → EmCh) : (s.modEm c f).cal = s.cal := rfl
@[simp] theorem modEm_camEst (s : State) (c : Ch) (f : EmCh → EmCh) : (s.modEm c f).camEst = s.camEst := rfl
@[simp] theorem modEm_pool (s : State) (c : Ch) (f : EmCh → EmCh) : (s.modEm c f).pool = s.pool := rfl
@[simp] theorem modEm_cl (s : State) (c : Ch) (f : EmCh → EmCh) : (s.modEm c f).cl = s.cl := rfl
@[simp] theorem modEm_ma (s : State) (c : Ch) (f : EmCh → EmCh) : (s.modEm c f).ma = s.ma := rfl
@[simp] theorem modEm_prb (s : State) (c : Ch) (f : EmCh → EmCh) : (s.modEm c f).prb = s.prb := rfl
@[simp] theorem modEm_ill (s : State) (c : Ch) (f : EmCh → EmCh) : (s.modEm c f).ill = s.ill := rfl
@[simp] theorem modEm_tags (s : State) (c : Ch) (f : EmCh → EmCh) : (s.modEm c f).tags = s.tags := rfl
@[simp] theorem modEm_lanes (s : State) (c : Ch) (f : EmCh → EmCh) : (s.modEm c f).lanes = s.lanes := rfl
@[simp] theorem modEm_rings (s : State) (c : Ch) (f : EmCh → EmCh) : (s.modEm c f).rings = s.rings := rfl
@[simp] theorem modEm_mcmd (s : State) (c : Ch) (f : EmCh → EmCh) : (s.modEm c f).mcmd = s.mcmd := rfl
@[simp] theorem modEm_link (s : State) (c : Ch) (f : EmCh → EmCh) : (s.modEm c f).link = s.link := rfl
@[simp] theorem modEm_ints (s : State) (c : Ch) (f : EmCh → EmCh) : (s.modEm c f).ints = s.ints := rfl
@[simp] theorem modEm_evt (s : State) (c : Ch) (f : EmCh → EmCh) : (s.modEm c f).evt = s.evt := rfl
@[simp] theorem modEm_log (s : State) (c : Ch) (f : EmCh → EmCh) : (s.modEm c f).log = s.log := rfl
@[simp] theorem modEm_safe (s : State) (c : Ch) (f : EmCh → EmCh) : (s.modEm c f).safe = s.safe := rfl
@[simp] theorem modEm_svc (s : State) (c : Ch) (f : EmCh → EmCh) : (s.modEm c f).svc = s.svc := rfl
@[simp] theorem modEm_hk (s : State) (c : Ch) (f : EmCh → EmCh) : (s.modEm c f).hk = s.hk := rfl
@[simp] theorem modEm_boot (s : State) (c : Ch) (f : EmCh → EmCh) : (s.modEm c f).boot = s.boot := rfl
@[simp] theorem modEm_fuse (s : State) (c : Ch) (f : EmCh → EmCh) : (s.modEm c f).fuse = s.fuse := rfl
@[simp] theorem modEm_bank (s : State) (c : Ch) (f : EmCh → EmCh) : (s.modEm c f).bank = s.bank := rfl
@[simp] theorem modEm_damper (s : State) (c : Ch) (f : EmCh → EmCh) : (s.modEm c f).damper = s.damper := rfl
@[simp] theorem modEm_outs (s : State) (c : Ch) (f : EmCh → EmCh) : (s.modEm c f).outs = s.outs := rfl
@[simp] theorem modEm_pending (s : State) (c : Ch) (f : EmCh → EmCh) : (s.modEm c f).pending = s.pending := rfl

/-! modAx changes sv alone. -/

@[simp] theorem modAx_regs (s : State) (c : Ch) (a : Ax) (f : Axis → Axis) : (s.modAx c a f).regs = s.regs := rfl
@[simp] theorem modAx_sram (s : State) (c : Ch) (a : Ax) (f : Axis → Axis) : (s.modAx c a f).sram = s.sram := rfl
@[simp] theorem modAx_bad (s : State) (c : Ch) (a : Ax) (f : Axis → Axis) : (s.modAx c a f).bad = s.bad := rfl
@[simp] theorem modAx_now (s : State) (c : Ch) (a : Ax) (f : Axis → Axis) : (s.modAx c a f).now = s.now := rfl
@[simp] theorem modAx_free (s : State) (c : Ch) (a : Ax) (f : Axis → Axis) : (s.modAx c a f).free = s.free := rfl
@[simp] theorem modAx_clk (s : State) (c : Ch) (a : Ax) (f : Axis → Axis) : (s.modAx c a f).clk = s.clk := rfl
@[simp] theorem modAx_staged (s : State) (c : Ch) (a : Ax) (f : Axis → Axis) : (s.modAx c a f).staged = s.staged := rfl
@[simp] theorem modAx_time (s : State) (c : Ch) (a : Ax) (f : Axis → Axis) : (s.modAx c a f).time = s.time := rfl
@[simp] theorem modAx_gang (s : State) (c : Ch) (a : Ax) (f : Axis → Axis) : (s.modAx c a f).gang = s.gang := rfl
@[simp] theorem modAx_eng (s : State) (c : Ch) (a : Ax) (f : Axis → Axis) : (s.modAx c a f).eng = s.eng := rfl
@[simp] theorem modAx_ch (s : State) (c : Ch) (a : Ax) (f : Axis → Axis) : (s.modAx c a f).ch = s.ch := rfl
@[simp] theorem modAx_loadQ (s : State) (c : Ch) (a : Ax) (f : Axis → Axis) : (s.modAx c a f).loadQ = s.loadQ := rfl
@[simp] theorem modAx_spare (s : State) (c : Ch) (a : Ax) (f : Axis → Axis) : (s.modAx c a f).spare = s.spare := rfl
@[simp] theorem modAx_vec (s : State) (c : Ch) (a : Ax) (f : Axis → Axis) : (s.modAx c a f).vec = s.vec := rfl
@[simp] theorem modAx_sync (s : State) (c : Ch) (a : Ax) (f : Axis → Axis) : (s.modAx c a f).sync = s.sync := rfl
@[simp] theorem modAx_ta (s : State) (c : Ch) (a : Ax) (f : Axis → Axis) : (s.modAx c a f).ta = s.ta := rfl
@[simp] theorem modAx_gridQ (s : State) (c : Ch) (a : Ax) (f : Axis → Axis) : (s.modAx c a f).gridQ = s.gridQ := rfl
@[simp] theorem modAx_las (s : State) (c : Ch) (a : Ax) (f : Axis → Axis) : (s.modAx c a f).las = s.las := rfl
@[simp] theorem modAx_lsafe (s : State) (c : Ch) (a : Ax) (f : Axis → Axis) : (s.modAx c a f).lsafe = s.lsafe := rfl
@[simp] theorem modAx_loop (s : State) (c : Ch) (a : Ax) (f : Axis → Axis) : (s.modAx c a f).loop = s.loop := rfl
@[simp] theorem modAx_trace (s : State) (c : Ch) (a : Ax) (f : Axis → Axis) : (s.modAx c a f).trace = s.trace := rfl
@[simp] theorem modAx_camTr (s : State) (c : Ch) (a : Ax) (f : Axis → Axis) : (s.modAx c a f).camTr = s.camTr := rfl
@[simp] theorem modAx_em (s : State) (c : Ch) (a : Ax) (f : Axis → Axis) : (s.modAx c a f).em = s.em := rfl
@[simp] theorem modAx_gd (s : State) (c : Ch) (a : Ax) (f : Axis → Axis) : (s.modAx c a f).gd = s.gd := rfl
@[simp] theorem modAx_gm (s : State) (c : Ch) (a : Ax) (f : Axis → Axis) : (s.modAx c a f).gm = s.gm := rfl
@[simp] theorem modAx_cam (s : State) (c : Ch) (a : Ax) (f : Axis → Axis) : (s.modAx c a f).cam = s.cam := rfl
@[simp] theorem modAx_cal (s : State) (c : Ch) (a : Ax) (f : Axis → Axis) : (s.modAx c a f).cal = s.cal := rfl
@[simp] theorem modAx_camEst (s : State) (c : Ch) (a : Ax) (f : Axis → Axis) : (s.modAx c a f).camEst = s.camEst := rfl
@[simp] theorem modAx_pool (s : State) (c : Ch) (a : Ax) (f : Axis → Axis) : (s.modAx c a f).pool = s.pool := rfl
@[simp] theorem modAx_cl (s : State) (c : Ch) (a : Ax) (f : Axis → Axis) : (s.modAx c a f).cl = s.cl := rfl
@[simp] theorem modAx_ma (s : State) (c : Ch) (a : Ax) (f : Axis → Axis) : (s.modAx c a f).ma = s.ma := rfl
@[simp] theorem modAx_prb (s : State) (c : Ch) (a : Ax) (f : Axis → Axis) : (s.modAx c a f).prb = s.prb := rfl
@[simp] theorem modAx_ill (s : State) (c : Ch) (a : Ax) (f : Axis → Axis) : (s.modAx c a f).ill = s.ill := rfl
@[simp] theorem modAx_tags (s : State) (c : Ch) (a : Ax) (f : Axis → Axis) : (s.modAx c a f).tags = s.tags := rfl
@[simp] theorem modAx_lanes (s : State) (c : Ch) (a : Ax) (f : Axis → Axis) : (s.modAx c a f).lanes = s.lanes := rfl
@[simp] theorem modAx_rings (s : State) (c : Ch) (a : Ax) (f : Axis → Axis) : (s.modAx c a f).rings = s.rings := rfl
@[simp] theorem modAx_mcmd (s : State) (c : Ch) (a : Ax) (f : Axis → Axis) : (s.modAx c a f).mcmd = s.mcmd := rfl
@[simp] theorem modAx_link (s : State) (c : Ch) (a : Ax) (f : Axis → Axis) : (s.modAx c a f).link = s.link := rfl
@[simp] theorem modAx_ints (s : State) (c : Ch) (a : Ax) (f : Axis → Axis) : (s.modAx c a f).ints = s.ints := rfl
@[simp] theorem modAx_evt (s : State) (c : Ch) (a : Ax) (f : Axis → Axis) : (s.modAx c a f).evt = s.evt := rfl
@[simp] theorem modAx_log (s : State) (c : Ch) (a : Ax) (f : Axis → Axis) : (s.modAx c a f).log = s.log := rfl
@[simp] theorem modAx_safe (s : State) (c : Ch) (a : Ax) (f : Axis → Axis) : (s.modAx c a f).safe = s.safe := rfl
@[simp] theorem modAx_svc (s : State) (c : Ch) (a : Ax) (f : Axis → Axis) : (s.modAx c a f).svc = s.svc := rfl
@[simp] theorem modAx_hk (s : State) (c : Ch) (a : Ax) (f : Axis → Axis) : (s.modAx c a f).hk = s.hk := rfl
@[simp] theorem modAx_boot (s : State) (c : Ch) (a : Ax) (f : Axis → Axis) : (s.modAx c a f).boot = s.boot := rfl
@[simp] theorem modAx_fuse (s : State) (c : Ch) (a : Ax) (f : Axis → Axis) : (s.modAx c a f).fuse = s.fuse := rfl
@[simp] theorem modAx_bank (s : State) (c : Ch) (a : Ax) (f : Axis → Axis) : (s.modAx c a f).bank = s.bank := rfl
@[simp] theorem modAx_damper (s : State) (c : Ch) (a : Ax) (f : Axis → Axis) : (s.modAx c a f).damper = s.damper := rfl
@[simp] theorem modAx_outs (s : State) (c : Ch) (a : Ax) (f : Axis → Axis) : (s.modAx c a f).outs = s.outs := rfl
@[simp] theorem modAx_pending (s : State) (c : Ch) (a : Ax) (f : Axis → Axis) : (s.modAx c a f).pending = s.pending := rfl

/-! The unit that an update changes. -/

@[simp] theorem modTime_at (s : State) (f : TimeSt → TimeSt) : (s.modTime f).time = f s.time := rfl
@[simp] theorem modGang_at (s : State) (f : GangSt → GangSt) : (s.modGang f).gang = f s.gang := rfl
@[simp] theorem modCal_at (s : State) (c : Ch) (f : CalCh → CalCh) : (s.modCal c f).cal[c] = f s.cal[c] := by
  simp [State.modCal]
@[simp] theorem modCal_nth (s : State) (c : Ch) (f : CalCh → CalCh) : (s.modCal c f).cal[c.val] = f s.cal[c.val] := by
  simp [State.modCal]
@[simp] theorem modCam_at (s : State) (c : Cam) (f : Camera → Camera) : (s.modCam c f).cam[c] = f s.cam[c] := by
  simp [State.modCam]
@[simp] theorem modCam_nth (s : State) (c : Cam) (f : Camera → Camera) : (s.modCam c f).cam[c.val] = f s.cam[c.val] := by
  simp [State.modCam]
@[simp] theorem modIll_at (s : State) (c : Fin 4) (f : IllU → IllU) : (s.modIll c f).ill[c] = f s.ill[c] := by
  simp [State.modIll]
@[simp] theorem modIll_nth (s : State) (c : Fin 4) (f : IllU → IllU) : (s.modIll c f).ill[c.val] = f s.ill[c.val] := by
  simp [State.modIll]
@[simp] theorem modMotor_at (s : State) (c : Ma) (f : Motor → Motor) : (s.modMotor c f).ma[c] = f s.ma[c] := by
  simp [State.modMotor]
@[simp] theorem modMotor_nth (s : State) (c : Ma) (f : Motor → Motor) : (s.modMotor c f).ma[c.val] = f s.ma[c.val] := by
  simp [State.modMotor]
@[simp] theorem modTag_at (s : State) (c : Fin 26) (f : TagU → TagU) : (s.modTag c f).tags.tag[c] = f s.tags.tag[c] := by
  simp [State.modTag]
@[simp] theorem modTag_nth (s : State) (c : Fin 26) (f : TagU → TagU) : (s.modTag c f).tags.tag[c.val] = f s.tags.tag[c.val] := by
  simp [State.modTag]
@[simp] theorem modPort_at (s : State) (c : Fin 2) (f : PortU → PortU) : (s.modPort c f).lanes.port[c] = f s.lanes.port[c] := by
  simp [State.modPort]
@[simp] theorem modPort_nth (s : State) (c : Fin 2) (f : PortU → PortU) : (s.modPort c f).lanes.port[c.val] = f s.lanes.port[c.val] := by
  simp [State.modPort]
@[simp] theorem modMember_at (s : State) (c : Fin 4) (f : Member → Member) : (s.modMember c f).gm.dev[c] = f s.gm.dev[c] := by
  simp [State.modMember]
@[simp] theorem modMember_nth (s : State) (c : Fin 4) (f : Member → Member) : (s.modMember c f).gm.dev[c.val] = f s.gm.dev[c.val] := by
  simp [State.modMember]
@[simp] theorem modEm_at (s : State) (c : Ch) (f : EmCh → EmCh) : (s.modEm c f).em.ch[c] = f s.em.ch[c] := by
  simp [State.modEm]
@[simp] theorem modEm_nth (s : State) (c : Ch) (f : EmCh → EmCh) : (s.modEm c f).em.ch[c.val] = f s.em.ch[c.val] := by
  simp [State.modEm]
@[simp] theorem modMa_at (s : State) (c : Ma) (f : MaU → MaU) : (s.modMa c f).ma[c] = { s.ma[c] with m := f s.ma[c].m } := by
  simp [State.modMa]
@[simp] theorem modMa_nth (s : State) (c : Ma) (f : MaU → MaU) : (s.modMa c f).ma[c.val] = { s.ma[c.val] with m := f s.ma[c.val].m } := by
  simp [State.modMa]
@[simp] theorem modEnc_at (s : State) (c : Ma) (f : EncU → EncU) : (s.modEnc c f).ma[c] = { s.ma[c] with e := f s.ma[c].e } := by
  simp [State.modEnc]
@[simp] theorem modEnc_nth (s : State) (c : Ma) (f : EncU → EncU) : (s.modEnc c f).ma[c.val] = { s.ma[c.val] with e := f s.ma[c.val].e } := by
  simp [State.modEnc]
@[simp] theorem modCmp_at (s : State) (c : Ma) (f : CmpU → CmpU) : (s.modCmp c f).ma[c] = { s.ma[c] with c := f s.ma[c].c } := by
  simp [State.modCmp]
@[simp] theorem modCmp_nth (s : State) (c : Ma) (f : CmpU → CmpU) : (s.modCmp c f).ma[c.val] = { s.ma[c.val] with c := f s.ma[c.val].c } := by
  simp [State.modCmp]
@[simp] theorem modFwd_at (s : State) (c : Ma) (f : FwdU → FwdU) : (s.modFwd c f).ma[c] = { s.ma[c] with f := f s.ma[c].f } := by
  simp [State.modFwd]
@[simp] theorem modFwd_nth (s : State) (c : Ma) (f : FwdU → FwdU) : (s.modFwd c f).ma[c.val] = { s.ma[c.val] with f := f s.ma[c.val].f } := by
  simp [State.modFwd]
@[simp] theorem modAx_at (s : State) (c : Ch) (a : Ax) (f : Axis → Axis) : (s.modAx c a f).sv[c] = { s.sv[c] with ax := s.sv[c].ax.set a.val (f s.sv[c].ax[a]) a.isLt } := by
  simp [State.modAx]
@[simp] theorem modAx_nth (s : State) (c : Ch) (a : Ax) (f : Axis → Axis) : (s.modAx c a f).sv[c.val] = { s.sv[c.val] with ax := s.sv[c.val].ax.set a.val (f s.sv[c.val].ax[a]) a.isLt } := by
  simp [State.modAx]

@[simp] theorem modEst_regs (s : State) (n : Fin 6) (c : Fin 24) (f : Est → Est) : (s.modEst n c f).regs = s.regs := by
  unfold State.modEst
  split <;> rfl
@[simp] theorem modEst_sram (s : State) (n : Fin 6) (c : Fin 24) (f : Est → Est) : (s.modEst n c f).sram = s.sram := by
  unfold State.modEst
  split <;> rfl
@[simp] theorem modEst_bad (s : State) (n : Fin 6) (c : Fin 24) (f : Est → Est) : (s.modEst n c f).bad = s.bad := by
  unfold State.modEst
  split <;> rfl
@[simp] theorem modEst_now (s : State) (n : Fin 6) (c : Fin 24) (f : Est → Est) : (s.modEst n c f).now = s.now := by
  unfold State.modEst
  split <;> rfl
@[simp] theorem modEst_free (s : State) (n : Fin 6) (c : Fin 24) (f : Est → Est) : (s.modEst n c f).free = s.free := by
  unfold State.modEst
  split <;> rfl
@[simp] theorem modEst_clk (s : State) (n : Fin 6) (c : Fin 24) (f : Est → Est) : (s.modEst n c f).clk = s.clk := by
  unfold State.modEst
  split <;> rfl
@[simp] theorem modEst_staged (s : State) (n : Fin 6) (c : Fin 24) (f : Est → Est) : (s.modEst n c f).staged = s.staged := by
  unfold State.modEst
  split <;> rfl
@[simp] theorem modEst_time (s : State) (n : Fin 6) (c : Fin 24) (f : Est → Est) : (s.modEst n c f).time = s.time := by
  unfold State.modEst
  split <;> rfl
@[simp] theorem modEst_gang (s : State) (n : Fin 6) (c : Fin 24) (f : Est → Est) : (s.modEst n c f).gang = s.gang := by
  unfold State.modEst
  split <;> rfl
@[simp] theorem modEst_eng (s : State) (n : Fin 6) (c : Fin 24) (f : Est → Est) : (s.modEst n c f).eng = s.eng := by
  unfold State.modEst
  split <;> rfl
@[simp] theorem modEst_ch (s : State) (n : Fin 6) (c : Fin 24) (f : Est → Est) : (s.modEst n c f).ch = s.ch := by
  unfold State.modEst
  split <;> rfl
@[simp] theorem modEst_loadQ (s : State) (n : Fin 6) (c : Fin 24) (f : Est → Est) : (s.modEst n c f).loadQ = s.loadQ := by
  unfold State.modEst
  split <;> rfl
@[simp] theorem modEst_spare (s : State) (n : Fin 6) (c : Fin 24) (f : Est → Est) : (s.modEst n c f).spare = s.spare := by
  unfold State.modEst
  split <;> rfl
@[simp] theorem modEst_vec (s : State) (n : Fin 6) (c : Fin 24) (f : Est → Est) : (s.modEst n c f).vec = s.vec := by
  unfold State.modEst
  split <;> rfl
@[simp] theorem modEst_sync (s : State) (n : Fin 6) (c : Fin 24) (f : Est → Est) : (s.modEst n c f).sync = s.sync := by
  unfold State.modEst
  split <;> rfl
@[simp] theorem modEst_ta (s : State) (n : Fin 6) (c : Fin 24) (f : Est → Est) : (s.modEst n c f).ta = s.ta := by
  unfold State.modEst
  split <;> rfl
@[simp] theorem modEst_sv (s : State) (n : Fin 6) (c : Fin 24) (f : Est → Est) : (s.modEst n c f).sv = s.sv := by
  unfold State.modEst
  split <;> rfl
@[simp] theorem modEst_gridQ (s : State) (n : Fin 6) (c : Fin 24) (f : Est → Est) : (s.modEst n c f).gridQ = s.gridQ := by
  unfold State.modEst
  split <;> rfl
@[simp] theorem modEst_las (s : State) (n : Fin 6) (c : Fin 24) (f : Est → Est) : (s.modEst n c f).las = s.las := by
  unfold State.modEst
  split <;> rfl
@[simp] theorem modEst_lsafe (s : State) (n : Fin 6) (c : Fin 24) (f : Est → Est) : (s.modEst n c f).lsafe = s.lsafe := by
  unfold State.modEst
  split <;> rfl
@[simp] theorem modEst_loop (s : State) (n : Fin 6) (c : Fin 24) (f : Est → Est) : (s.modEst n c f).loop = s.loop := by
  unfold State.modEst
  split <;> rfl
@[simp] theorem modEst_trace (s : State) (n : Fin 6) (c : Fin 24) (f : Est → Est) : (s.modEst n c f).trace = s.trace := by
  unfold State.modEst
  split <;> rfl
@[simp] theorem modEst_camTr (s : State) (n : Fin 6) (c : Fin 24) (f : Est → Est) : (s.modEst n c f).camTr = s.camTr := by
  unfold State.modEst
  split <;> rfl
@[simp] theorem modEst_em (s : State) (n : Fin 6) (c : Fin 24) (f : Est → Est) : (s.modEst n c f).em = s.em := by
  unfold State.modEst
  split <;> rfl
@[simp] theorem modEst_gd (s : State) (n : Fin 6) (c : Fin 24) (f : Est → Est) : (s.modEst n c f).gd = s.gd := by
  unfold State.modEst
  split <;> rfl
@[simp] theorem modEst_gm (s : State) (n : Fin 6) (c : Fin 24) (f : Est → Est) : (s.modEst n c f).gm = s.gm := by
  unfold State.modEst
  split <;> rfl
@[simp] theorem modEst_cam (s : State) (n : Fin 6) (c : Fin 24) (f : Est → Est) : (s.modEst n c f).cam = s.cam := by
  unfold State.modEst
  split <;> rfl
@[simp] theorem modEst_pool (s : State) (n : Fin 6) (c : Fin 24) (f : Est → Est) : (s.modEst n c f).pool = s.pool := by
  unfold State.modEst
  split <;> rfl
@[simp] theorem modEst_cl (s : State) (n : Fin 6) (c : Fin 24) (f : Est → Est) : (s.modEst n c f).cl = s.cl := by
  unfold State.modEst
  split <;> rfl
@[simp] theorem modEst_ma (s : State) (n : Fin 6) (c : Fin 24) (f : Est → Est) : (s.modEst n c f).ma = s.ma := by
  unfold State.modEst
  split <;> rfl
@[simp] theorem modEst_prb (s : State) (n : Fin 6) (c : Fin 24) (f : Est → Est) : (s.modEst n c f).prb = s.prb := by
  unfold State.modEst
  split <;> rfl
@[simp] theorem modEst_ill (s : State) (n : Fin 6) (c : Fin 24) (f : Est → Est) : (s.modEst n c f).ill = s.ill := by
  unfold State.modEst
  split <;> rfl
@[simp] theorem modEst_tags (s : State) (n : Fin 6) (c : Fin 24) (f : Est → Est) : (s.modEst n c f).tags = s.tags := by
  unfold State.modEst
  split <;> rfl
@[simp] theorem modEst_lanes (s : State) (n : Fin 6) (c : Fin 24) (f : Est → Est) : (s.modEst n c f).lanes = s.lanes := by
  unfold State.modEst
  split <;> rfl
@[simp] theorem modEst_rings (s : State) (n : Fin 6) (c : Fin 24) (f : Est → Est) : (s.modEst n c f).rings = s.rings := by
  unfold State.modEst
  split <;> rfl
@[simp] theorem modEst_mcmd (s : State) (n : Fin 6) (c : Fin 24) (f : Est → Est) : (s.modEst n c f).mcmd = s.mcmd := by
  unfold State.modEst
  split <;> rfl
@[simp] theorem modEst_link (s : State) (n : Fin 6) (c : Fin 24) (f : Est → Est) : (s.modEst n c f).link = s.link := by
  unfold State.modEst
  split <;> rfl
@[simp] theorem modEst_ints (s : State) (n : Fin 6) (c : Fin 24) (f : Est → Est) : (s.modEst n c f).ints = s.ints := by
  unfold State.modEst
  split <;> rfl
@[simp] theorem modEst_evt (s : State) (n : Fin 6) (c : Fin 24) (f : Est → Est) : (s.modEst n c f).evt = s.evt := by
  unfold State.modEst
  split <;> rfl
@[simp] theorem modEst_log (s : State) (n : Fin 6) (c : Fin 24) (f : Est → Est) : (s.modEst n c f).log = s.log := by
  unfold State.modEst
  split <;> rfl
@[simp] theorem modEst_safe (s : State) (n : Fin 6) (c : Fin 24) (f : Est → Est) : (s.modEst n c f).safe = s.safe := by
  unfold State.modEst
  split <;> rfl
@[simp] theorem modEst_svc (s : State) (n : Fin 6) (c : Fin 24) (f : Est → Est) : (s.modEst n c f).svc = s.svc := by
  unfold State.modEst
  split <;> rfl
@[simp] theorem modEst_hk (s : State) (n : Fin 6) (c : Fin 24) (f : Est → Est) : (s.modEst n c f).hk = s.hk := by
  unfold State.modEst
  split <;> rfl
@[simp] theorem modEst_boot (s : State) (n : Fin 6) (c : Fin 24) (f : Est → Est) : (s.modEst n c f).boot = s.boot := by
  unfold State.modEst
  split <;> rfl
@[simp] theorem modEst_fuse (s : State) (n : Fin 6) (c : Fin 24) (f : Est → Est) : (s.modEst n c f).fuse = s.fuse := by
  unfold State.modEst
  split <;> rfl
@[simp] theorem modEst_bank (s : State) (n : Fin 6) (c : Fin 24) (f : Est → Est) : (s.modEst n c f).bank = s.bank := by
  unfold State.modEst
  split <;> rfl
@[simp] theorem modEst_damper (s : State) (n : Fin 6) (c : Fin 24) (f : Est → Est) : (s.modEst n c f).damper = s.damper := by
  unfold State.modEst
  split <;> rfl
@[simp] theorem modEst_outs (s : State) (n : Fin 6) (c : Fin 24) (f : Est → Est) : (s.modEst n c f).outs = s.outs := by
  unfold State.modEst
  split <;> rfl
@[simp] theorem modEst_pending (s : State) (n : Fin 6) (c : Fin 24) (f : Est → Est) : (s.modEst n c f).pending = s.pending := by
  unfold State.modEst
  split <;> rfl

end Sys2Proof.Machine
end

