-- ==== Sys2Proof/Laws/Tuikin.lean ====
section
/-! SUPPORT. What the issue of one instruction can do, said once: its outcome under each condition of `State.tuikin`, and what the elementary changes of an engine leave. -/

namespace Sys2Proof.Machine
open Sys2Proof

/-! Engines. -/

/-- The engine changed reads as changed. -/
@[simp] theorem modEng_eng_same (s : State) (e : Fin 28) (f : Core → Core) : (s.modEng e f).eng[e] = f s.eng[e] := by
  simp [State.modEng]
/-- Every other engine stands. -/
theorem modEng_eng_ne (s : State) {e e' : Fin 28} (f : Core → Core) (h : e' ≠ e) : (s.modEng e f).eng[e'] = s.eng[e'] := by
  have : e.val ≠ e'.val := fun x => h (Fin.ext x.symm)
  simp [State.modEng, this]
/-- Two changes of one engine are one. -/
@[simp] theorem modEng_modEng (s : State) (e : Fin 28) (f g : Core → Core) : (s.modEng e f).modEng e g = s.modEng e fun u => g (f u) := by
  simp [State.modEng]
/-- Changes that agree on the engine are equal. -/
theorem modEng_congr (s : State) (e : Fin 28) {f g : Core → Core} (h : f s.eng[e] = g s.eng[e]) : s.modEng e f = s.modEng e g := by
  unfold State.modEng
  rw [h]

/-- w0 reads 0. -/
@[simp] theorem Core.r_zero (u : Core) : u.r 0 = 0#32 := by simp [Core.r]
/-- A register written reads what was written, but for w0. -/
theorem Core.r_put_same (u : Core) {d : Reg} (v : Word) (h : d ≠ 0) : (u.put d v).r d = v := by simp [Core.r, Core.put, h]
/-- Every other register stands. -/
theorem Core.r_put_ne (u : Core) {d x : Reg} (v : Word) (h : x ≠ d) : (u.put d v).r x = u.r x := by
  have : d.val ≠ x.val := fun y => h (Fin.ext y.symm)
  by_cases h0 : d = 0 <;> simp [Core.r, Core.put, h0, this]

/-! The issue. -/

variable {s : State} {c : Ch} {uses : List Reg} {all ctrl : Bool} {cost : Nat} {act : Core → Fin 28 → Act}

/-- An engine that runs no entry, or a die that stands still, issues nothing. -/
theorem tuikin_idle (h : (s.engC c).run ≠ .run ∨ s.halted = true) : s.tuikin c uses all ctrl act = s := by
  unfold State.tuikin
  exact if_pos h

/-- The engine as an instruction that issues finds it. -/
def Core.atIssue (u : Core) (t : Nat) : Core := { u.fold t with cycle := t, stall := u.stall + (t - u.cycle) }

/-- Under the conditions of issue, what the instruction does is asked of the engine at its issue cycle. -/
theorem tuikin_issue (h : Issues s c uses all ctrl cost) :
    s.tuikin c uses all ctrl act =
      (let e := s.engOf c
       let t := (s.engC c).issueAt uses all
       let u := (s.engC c).atIssue t
       let b := s.engBudget e
       let s := s.modEng e fun _ => u
       match act u e with
        | .trap code => s.engTrap c e code u.pc
        | .ue a => (s.countUe a).engDiffer e (if 24 ≤ e.val ∧ dmemBase e ≤ a then ownMemItem else 0)
        | .differ item => s.engDiffer e item
        | .go cost eff nxt =>
          if b < t + cost then s.engOver c e
          else
            let s := (eff s).modEng e fun u => { u with cycle := t + cost }
            match nxt with
            | .seq => (s.modEng e Core.seqNext).engPast c e
            | .to pc => (s.modEng e fun u => { u with pc := pc }).engPast c e
            | .fin => s.engEnd c e) := by
  obtain ⟨h1, h2, h3, h4, h5, h6⟩ := h
  have hb : ¬ s.engBudget (s.engOf c) ≤ (s.engC c).issueAt uses all := by omega
  have hm : min ((s.engC c).issueAt uses all) (s.engBudget (s.engOf c)) = (s.engC c).issueAt uses all := by omega
  have hl : (ctrl && (match (s.engC c).loops with
          | f :: _ => (s.engC c).pc == f.stop
          | [] => false)) = false := by
    cases ctrl with
    | false => rfl
    | true =>
      cases hl : (s.engC c).loops with
      | nil => rfl
      | cons f r => simpa using h6 rfl f r hl
  have h0 : ¬ ((s.engC c).run ≠ .run ∨ s.halted = true) := by simp [h1, h2]
  have hm' : min ((s.engC c).issueAt uses all) (s.engBudget (s.engOf c)) - (s.engC c).cycle = (s.engC c).issueAt uses all - (s.engC c).cycle := by rw [hm]
  unfold State.tuikin
  refine (if_neg h0).trans ((if_neg hb).trans ?_)
  refine (if_neg (fun hh => Bool.false_ne_true (h5.symm.trans hh))).trans ?_
  refine (if_neg (fun hh => Bool.false_ne_true (hl.symm.trans hh))).trans ?_
  rw [show min (s.eng[s.engOf c].issueAt uses all) (s.engBudget (s.engOf c)) - s.eng[s.engOf c].cycle
    = s.eng[s.engOf c].issueAt uses all - s.eng[s.engOf c].cycle from hm']
  rfl

/-- The program counter after an instruction depends on the program counter and the loops alone. -/
theorem seqNext_pc_congr {u v : Core} (hp : v.pc = u.pc) (hl : v.loops = u.loops) : v.seqNext.pc = u.seqNext.pc := by
  unfold Core.seqNext
  rw [hl, hp]
  split <;> (try rfl)
  split <;> (try rfl)
  split <;> rfl

/-- Inside the bank nothing more happens. -/
theorem engPast_stays {s : State} {c : Ch} {e : Fin 28} (h : s.eng[e].pc ≤ 0x1FFF) : s.engPast c e = s := if_pos h

/-- An instruction that changes registers of its engine alone retires. -/
theorem tuikin_retires {f g : Core → Core} (h : Issues s c uses all ctrl cost) (hb : s.staysInBank c)
    (ha : act ((s.engC c).atIssue ((s.engC c).issueAt uses all)) (s.engOf c) = .go cost (fun s' => s'.modEng (s.engOf c) g) .seq)
    (hf : { g ((s.engC c).atIssue ((s.engC c).issueAt uses all)) with cycle := (s.engC c).issueAt uses all + cost }
      = f ((s.engC c).issued ((s.engC c).issueAt uses all) cost))
    (hp : (g ((s.engC c).atIssue ((s.engC c).issueAt uses all))).pc = (s.engC c).pc)
    (hl : (g ((s.engC c).atIssue ((s.engC c).issueAt uses all))).loops = (s.engC c).loops) :
    .next (s.tuikin c uses all ctrl act) = s.retires c uses all cost f := by
  have hbud := h.budget
  rw [tuikin_issue h]
  simp only [ha]
  rw [if_neg (by omega)]
  simp only [modEng_modEng]
  rw [engPast_stays]
  · unfold State.retires
    congr 1
    apply modEng_congr
    show Core.seqNext _ = Core.seqNext _
    congr 1
  · rw [modEng_eng_same]
    exact Nat.le_trans (Nat.le_of_eq (seqNext_pc_congr (u := s.engC c) hp hl)) hb

/-- An instruction that computes one register from the engine's registers. -/
theorem aluOp_retires {d : Reg} {f : Core → Word} (h : Issues s c (d :: uses) false false cost) (hb : s.staysInBank c)
    (hf : ∀ u v : Core, u.w = v.w → f u = f v) :
    .next (s.aluOp c uses d cost f) = s.retires c (d :: uses) false cost fun u => u.put d (f u) := by
  unfold State.aluOp
  refine tuikin_retires (g := fun u => u.put d (f ((s.engC c).atIssue ((s.engC c).issueAt (d :: uses) false)))) h hb ?_ ?_ ?_ ?_
  · rfl
  · rw [hf ((s.engC c).issued ((s.engC c).issueAt (d :: uses) false) cost) ((s.engC c).atIssue ((s.engC c).issueAt (d :: uses) false)) rfl]
    unfold Core.put
    split <;> rfl
  · simp only [Core.put]; split <;> rfl
  · simp only [Core.put]; split <;> rfl

/-- An instruction that sets the flags from the engine's registers. -/
theorem cmpOp_retires {f : Core → Flg} (h : Issues s c uses false false 1) (hb : s.staysInBank c)
    (hf : ∀ u v : Core, u.w = v.w → f u = f v) :
    .next (s.cmpOp c uses f) = s.retires c uses false 1 fun u => u.setFlg (f u) := by
  unfold State.cmpOp
  refine tuikin_retires (g := fun u => u.setFlg (f ((s.engC c).atIssue ((s.engC c).issueAt uses false)))) h hb rfl ?_ rfl rfl
  rw [hf ((s.engC c).issued ((s.engC c).issueAt uses false) 1) ((s.engC c).atIssue ((s.engC c).issueAt uses false)) rfl]
  rfl

/-- A binary32 instruction: its flags wait `lat` cycles. -/
theorem fpuOp_retires {d : Reg} {lat : Nat} {f : Core → Word × FFlags} (h : Issues s c (d :: uses) false false cost) (hb : s.staysInBank c)
    (hf : ∀ u v : Core, u.w = v.w → f u = f v) :
    .next (s.fpuOp c uses d cost lat f) = s.retires c (d :: uses) false cost fun u =>
      { u.put d (f u).1 with pend := u.pend ++ [⟨d, (f u).2, (s.engC c).issueAt (d :: uses) false + lat⟩] } := by
  unfold State.fpuOp
  refine tuikin_retires (g := fun u => { u.put d (f ((s.engC c).atIssue ((s.engC c).issueAt (d :: uses) false))).1 with
      pend := u.pend ++ [⟨d, (f ((s.engC c).atIssue ((s.engC c).issueAt (d :: uses) false))).2, u.cycle + lat⟩] }) h hb ?_ ?_ ?_ ?_
  · rfl
  · rw [hf ((s.engC c).issued ((s.engC c).issueAt (d :: uses) false) cost) ((s.engC c).atIssue ((s.engC c).issueAt (d :: uses) false)) rfl]
    unfold Core.put
    split <;> rfl
  · simp only [Core.put]; split <;> rfl
  · simp only [Core.put]; split <;> rfl

end Sys2Proof.Machine
end

