-- ==== Sys2Proof/Tests/Slice0.lean ====
section
/-! SUPPORT. The package's own tests: ill-formed terms that WellFormed refuses, words of the encodings, and for every statement a state and operands that
meet its hypotheses. -/

namespace Sys2Proof.Tests
open Sys2Proof Sys2Proof.Machine

set_option maxRecDepth 20000
set_option Elab.async false

/-! Small states. -/

/-- The device after boot, before RUN. -/
def up : State :=
  { State.reset with boot := { State.reset.boot with stage := .ready, rstLow := false, inReset := false }, log := { State.reset.log with started := true } }
/-- The same with the stoke running. -/
def on : State := { up with time := { up.time with running := true } }
/-- Channel 0's engine runs its STOKE entry; w1 to w4 hold small numbers. -/
def prog : State :=
  on.modEng 0 fun u => { u with run := .run, w := (((u.w.set 1 4#32).set 2 0xFFFFFFFD#32).set 3 7#32).set 4 0x200#32 }
/-- The same in the FAULT entry. -/
def progFault : State := prog.modEng 0 fun u => { u with entry := .fault }

/-- The conditions of issue as a Bool. -/
def issuesB (s : State) (c : Ch) (uses : List Reg) (all ctrl : Bool) (cost : Nat) : Bool :=
  decide ((s.engC c).run = .run) && !s.halted && decide (0 < cost) && decide ((s.engC c).issueAt uses all + cost ≤ s.engBudget (s.engOf c))
    && !s.isBad (s.fetchAt c) && (!ctrl || match (s.engC c).loops with | [] => true | f :: _ => decide ((s.engC c).pc ≠ f.stop))

/-- The Bool says what `Issues` says. -/
theorem issues_of {s : State} {c : Ch} {uses : List Reg} {all ctrl : Bool} {cost : Nat} (h : issuesB s c uses all ctrl cost = true) :
    Issues s c uses all ctrl cost := by
  simp only [issuesB, Bool.and_eq_true, Bool.not_eq_true', decide_eq_true_eq, Bool.or_eq_true] at h
  obtain ⟨⟨⟨⟨⟨h1, h2⟩, h3⟩, h4⟩, h5⟩, h6⟩ := h
  refine ⟨h1, h2, h3, h4, h5, fun hc f r he => ?_⟩
  rcases h6 with h6 | h6
  · simp [hc] at h6
  · rw [he] at h6; simpa using h6

/-! The instruction set (chapter 03). -/

/-- A word at a DMEM offset of channel 0's engine. -/
def dmem (n : Nat) : Nat := 0x1610000 + n
/-- The command answers a next state. -/
def completes (i : Instr) (s : State) : Bool := match exec i s with | .next _ => true | _ => false

theorem test_issues_one_cycle : Issues prog 0 [5, 1, 2] false false 1 ∧ Issues prog 0 [5, 1] false false 1 ∧ Issues prog 0 [5] false false 1
    ∧ Issues prog 0 [1] false false 1 ∧ Issues prog 0 [1, 2] false false 1 ∧ Issues prog 0 [1] true false 1 ∧ Issues prog 0 [5] true false 1
    ∧ prog.staysInBank 0 ∧ (0b10111#5).getLsbD 3 = false :=
  ⟨issues_of (by decide +kernel), issues_of (by decide +kernel), issues_of (by decide +kernel), issues_of (by decide +kernel),
    issues_of (by decide +kernel), issues_of (by decide +kernel), issues_of (by decide +kernel), by unfold State.staysInBank; decide +kernel,
    by decide⟩

/-- `n` cycles are left of the budget. -/
def lateBy (n : Nat) : State := prog.modEng 0 fun u => { u with cycle := prog.budget - n }

theorem test_issues_at_the_budget : Issues (lateBy 16) 0 [5, 1, 2] false false 16 ∧ Issues (lateBy 16) 0 [5, 1] false false 16
    ∧ Issues (lateBy 1) 0 [5, 1, 2] false false 1 ∧ (lateBy 16).staysInBank 0 ∧ (lateBy 1).staysInBank 0 :=
  ⟨issues_of (by decide +kernel), issues_of (by decide +kernel), issues_of (by decide +kernel), by unfold State.staysInBank; decide +kernel,
    by unfold State.staysInBank; decide +kernel⟩

/-- The last words of the bank, with calls and loops open, and a jump table at the bank's end. -/
def deep : State :=
  (prog.put (imemBase 0 false + 4 * 0x1FFF) [0xFF#8, 0x1F#8, 0#8, 0#8]).modEng 0 fun u =>
    { u with pc := 0x1FFE, z := true, calls := [0x1FFF], loops := [⟨0x1000, 0x1FFF, 3⟩], w := u.w.set 5 0#32 }
/-- Three loops open, the innermost wide. -/
def three : State := prog.modEng 0 fun u => { u with pc := 0x10, loops := List.replicate 3 ⟨0, 0x100, 2⟩, calls := List.replicate 7 0x1FFF }

theorem test_witness_ControlTransfersR70R72 :
    (Issues deep 0 [] false true 2 ∧ condOk 1#5 = true ∧ condHolds 1#5 (deep.engC 0).flg = true ∧ ((0x1FFF : Nat) : Int) = (deep.engC 0).pc + (1#16).toInt)
    ∧ (Issues deep 0 [] false true 1 ∧ condHolds 0b10001#5 (deep.engC 0).flg = false ∧ deep.staysInBank 0)
    ∧ (Issues three 0 [] false true 2 ∧ (three.engC 0).calls.length < 8)
    ∧ (deep.engC 0).calls = [0x1FFF]
    ∧ (Issues deep 0 [5] false true 3 ∧ (deep.engC 0).pc + 1 + min ((deep.engC 0).r 5).toNat 3 ≤ 0x1FFF
        ∧ deep.isBad (imemBase (ownEng 0) deep.ch[(0 : Ch)].bankB + 4 * 0x1FFF) = false
        ∧ (deep.word (imemBase (ownEng 0) deep.ch[(0 : Ch)].bankB + 4 * 0x1FFF)).toNat < 0x2000)
    ∧ (Issues three 0 [1] false true 1 ∧ (three.engC 0).r 1 ≠ 0#32 ∧ (three.engC 0).loops.length < 4 ∧ (three.engC 0).pc + 0xEF < 0x100)
    ∧ (Issues three 0 [6] false true 2 ∧ (three.engC 0).r 6 = 0#32 ∧ (three.engC 0).pc + 1 + 0x3FF ≤ 0x1FFF) :=
  ⟨⟨issues_of (by decide +kernel), by decide +kernel⟩, ⟨issues_of (by decide +kernel), by decide +kernel, by unfold State.staysInBank; decide +kernel⟩,
    ⟨issues_of (by decide +kernel), by decide +kernel⟩, by decide +kernel, ⟨issues_of (by decide +kernel), by decide +kernel⟩,
    ⟨issues_of (by decide +kernel), by decide +kernel⟩, ⟨issues_of (by decide +kernel), by decide +kernel⟩⟩

theorem test_witness_EndFinishesTheEntryR75 : Issues prog 0 [] false true 1 ∧ prog.canon = true ∧ (prog.engC 0).entry = .stoke
    ∧ Issues progFault 0 [] false true 1 ∧ progFault.canon = true ∧ (progFault.engC 0).entry = .fault
    ∧ Issues (prog.modEng 0 fun u => { u with entry := .layer }) 0 [] false true 1 :=
  ⟨issues_of (by decide +kernel), by decide +kernel, by decide +kernel, issues_of (by decide +kernel), by decide +kernel, by decide +kernel,
    issues_of (by decide +kernel)⟩

/-- w1 holds the last word, halfword and byte address of DMEM less the immediate. -/
def top (n : Nat) : State := prog.modEng 0 fun u => { u with w := u.w.set 1 (BitVec.ofNat 32 (0x10000 - n + 4)) }

theorem test_witness_LoadsReadDmemR76 : ∀ n ∈ [4, 2, 1], issuesB (top n) 0 [1, 5] false false 2 = true ∧ ((top n).engC 0).seqNext.pc ≤ 0x1FFF
    ∧ 0 ≤ (((top n).engC 0).r 1).toInt + (0xFFFC#16).toInt ∧ (((top n).engC 0).r 1).toInt + (0xFFFC#16).toInt + n = 0x10000
    ∧ (n : Int) ∣ (((top n).engC 0).r 1).toInt + (0xFFFC#16).toInt ∧ (top n).isBad (dmem (0x10000 - n)) = false := by decide +kernel
theorem test_witness_StoresWriteTheirBytesAloneR76 : ∀ n ∈ [4, 2, 1], issuesB (top n) 0 [1, 5] false false 1 = true ∧ (top n).canon = true
    ∧ dmemAddr (((top n).engC 0).r 1) 0xFFFC#16 n = some (0x10000 - n) := by decide +kernel

theorem test_witness_PortsReadAndStageR77R78 :
    (Issues prog 0 [1, 5] false false 4 ∧ ((0x3FF : Nat) : Int) = ((prog.engC 0).r 1).toInt + (0x3FB#16).toInt)
    ∧ ((0x010 : Nat) : Int) = ((prog.engC 0).r 1).toInt + (0xC#16).toInt ∧ ((0x2C1 : Nat) : Int) = ((prog.engC 0).r 1).toInt + (0x2BD#16).toInt
    ∧ (Issues prog 0 [1, 5] false false 1 ∧ ((0x140 : Nat) : Int) = ((prog.engC 0).r 1).toInt + (0x13C#16).toInt ∧ prog.portOk 0 0x140 false = true) :=
  ⟨⟨issues_of (by decide +kernel), by decide +kernel⟩, by decide +kernel, by decide +kernel, ⟨issues_of (by decide +kernel), by decide +kernel⟩⟩

/-- A record waits in channel 0's buffer. -/
def held : State := prog.modVec 0 fun v => { v with buf := [⟨(List.range 32).map (BitVec.ofNat 8), 0, 0, 0⟩] }
/-- The registers that POP w24 writes. -/
def pop24 : List Reg := (List.range 8).map fun i => (⟨((24 : Reg).val + i) % 32, Nat.mod_lt _ (by decide)⟩ : Reg)

theorem test_witness_PopTakesTheNextRecordR80 : Issues held 0 pop24 false false 6 ∧ held.staysInBank 0
    ∧ (held.vec[(0 : Ch)].buf[(held.engC 0).popped]?).isSome = true ∧ (∀ r ∈ held.vec[(0 : Ch)].buf, r.bytes.length = 32)
    ∧ (∀ i, i < 8 → held.isBad (vecSlot 0 (held.vec[(0 : Ch)].stream + 0) + 4 * i) = false)
    ∧ Issues prog 0 pop24 false false 6 ∧ prog.vec[(0 : Ch)].buf.length ≤ (prog.engC 0).popped :=
  ⟨issues_of (by decide +kernel), by unfold State.staysInBank; decide +kernel, by decide +kernel, by decide +kernel, by decide +kernel,
    issues_of (by decide +kernel), by decide +kernel⟩

/-- Table 0 has two entries. -/
def tabled : State := prog.modCh 0 fun x => { x with luts := [[5#32, 0xFFFFFFFE#32], [], [], [], [], [], [], []] }

theorem test_witness_LutReadsItsTableR81 : Issues tabled 0 [5, 1] false false 2 ∧ tabled.staysInBank 0
    ∧ nthD tabled.ch[(0 : Ch)].luts 0 [] ≠ [] ∧ nthD tabled.ch[(0 : Ch)].luts 1 [] = []
    ∧ (nthD tabled.ch[(0 : Ch)].luts 0 [])[(0x3FF#32).toNat / 1024]? = some 5#32
    ∧ (nthD tabled.ch[(0 : Ch)].luts 0 [])[(0x3FF#32).toNat / 1024 + 1]? = some 0xFFFFFFFE#32 ∧ 1 ≤ (0x400#32).toNat / 1024 :=
  ⟨issues_of (by decide +kernel), by unfold State.staysInBank; decide +kernel, by decide +kernel⟩

theorem test_witness_QueriesAnswerR82R83 : let s := prog.modEng 0 fun u => { u with emqs := 7, gdqs := 7, w := u.w.set 1 0xFFE0#32 }
    Issues s 0 [1, 2, 5] false false 24 ∧ Issues s 0 [1, 5] false false 12 ∧ (s.engC 0).entry ≠ .fault ∧ s.staysInBank 0
    ∧ ((s.engC 0).r 1).toNat % 4 = 0 ∧ ((s.engC 0).r 1).toNat ≤ 0xFFE0 ∧ (∀ i, i < 8 → s.isBad (dmem 0xFFE0 + 4 * i) = false) ∧ s.emOn = false :=
  ⟨issues_of (by decide +kernel), issues_of (by decide +kernel), by decide +kernel, by unfold State.staysInBank; decide +kernel, by decide +kernel⟩

/-- Where each trap can arise: full loop and call stacks, and none. -/
def full : State := three.modEng 0 fun u => { u with loops := ⟨0, 0x100, 2⟩ :: u.loops, calls := 0 :: u.calls, emqs := 8, gdqs := 8, z := true }

theorem test_witness_TrapsStopTheEngineR86R87 : prog.canon = true ∧ full.canon = true ∧ progFault.canon = true
    ∧ Issues prog 0 [] false false 1 ∧ decodeWord 0 0xFFFFFFFF = none ∧ (0b01000#5).getLsbD 3 = true ∧ Issues prog 0 [] false true 1
    ∧ (((prog.engC 0).r 3).toNat % 4 ≠ 0 ∧ Issues prog 0 [3, 5] false false 1)
    ∧ ((prog.engC 0).r 1).toInt + (0xFFFB#16).toInt < 0 ∧ 0x3FF < ((prog.engC 0).r 1).toInt + (0x3FC#16).toInt
    ∧ 0x10000 ≤ ((((top 1)).engC 0).r 1).toInt + (0xFFFD#16).toInt
    ∧ (((0 : Nat) : Int) = ((prog.engC 0).r 1).toInt + (0xFFFC#16).toInt ∧ prog.portOk 0 0 false = false)
    ∧ (Issues full 0 [1] false true 1 ∧ (full.engC 0).loops.length = 4 ∧ (full.engC 0).r 1 ≠ 0#32)
    ∧ (Issues full 0 [] false true 1 ∧ (full.engC 0).calls.length = 8) ∧ (prog.engC 0).calls = []
    ∧ (Issues full 0 [1, 2, 5] false false 1 ∧ (full.engC 0).emqs = 8 ∧ (full.engC 0).gdqs = 8)
    ∧ Issues progFault 0 [1, 2, 5] false false 1
    ∧ (condHolds 0#5 (prog.engC 0).flg = true ∧ ((prog.engC 0).pc : Int) + (0xFFFF#16).toInt < 0) ∧ (5 : Reg).val % 8 ≠ 0 :=
  ⟨by decide +kernel, by decide +kernel, by decide +kernel, issues_of (by decide +kernel), by decide +kernel, by decide, issues_of (by decide +kernel),
    ⟨by decide +kernel, issues_of (by decide +kernel)⟩, by decide +kernel, by decide +kernel, by decide +kernel, by decide +kernel,
    ⟨issues_of (by decide +kernel), by decide +kernel⟩, ⟨issues_of (by decide +kernel), by decide +kernel⟩, by decide +kernel,
    ⟨issues_of (by decide +kernel), by decide +kernel⟩, issues_of (by decide +kernel), by decide +kernel⟩

theorem test_witness_BudgetCutsAnInstructionOffR63 : ((lateBy 0).engC 0).run = .run ∧ (lateBy 0).halted = false ∧ (lateBy 0).isBad ((lateBy 0).fetchAt 0) = false
    ∧ (lateBy 0).engBudget ((lateBy 0).engOf 0) < ((lateBy 0).engC 0).issueAt [5, 1, 2] false + 1
    ∧ (lateBy 15).engBudget ((lateBy 15).engOf 0) < ((lateBy 15).engC 0).issueAt [5, 1, 2] false + 16 := by decide +kernel

theorem test_witness_CoreDifferenceStopsThePairR53 : Issues prog 0 [1, 5] false false 1 ∧ Issues prog 0 pop24 false false 1
    ∧ Issues prog 0 [1, 2, 5] false false 1 ∧ Issues prog 0 [] false true 1 ∧ (prog.engC 0).emqs < 8 ∧ (prog.engC 0).entry ≠ .fault
    ∧ 0 ≤ ((prog.engC 0).r 1).toInt + (0xFFFC#16).toInt ∧ prog.portOk 0 0x140 ((prog.engC 0).entry == .fault) = true :=
  ⟨issues_of (by decide +kernel), issues_of (by decide +kernel), issues_of (by decide +kernel), issues_of (by decide +kernel), by decide +kernel⟩

theorem test_witness_EngineInstructionsFrame : engDest (.add 0 5 1 2) = some (0, [5]) ∧ completes (.add 0 5 1 2) prog = true
    ∧ engDest (.pop 0 24 false) = some (0, pop24) ∧ completes (.pop 0 24 false) held = true := by decide +kernel
theorem test_witness_StoresLeaveOtherBytesAlone : completes (.stw 0 5 1 0xFFFC#16 false) prog = true
    ∧ dmemAddr ((prog.engC 0).r 1) 0xFFFC#16 4 = some 0 ∧ dmemAddr ((prog.engC 0).r 1) 0xFFFB#16 4 = none := by decide +kernel

theorem test_witness_EncodingAndDecodingAgree : wellFormed (.lut 0 5 1 7 true) = true ∧ engChan (.lut 0 5 1 7 true) = some 0
    ∧ encodeOp (.lut 0 5 1 7 true) = some 0x6CA1F000 ∧ decodeWord 0 0x6CA1F000 = some (.lut 0 5 1 7 true) := by decide +kernel

/-! One word of each family, its bits from R59 and the tables of chapter 03: opcode, d, a, b, s, function. -/

theorem test_decode_alu : decodeWord 0 0b00000000011000100010100000000001 = some (.sub 0 3 2 5) := by decide +kernel
theorem test_decode_immediate : decodeWord 0 0b00001100011000101000000000000001 = some (.andi 0 3 2 0x8001#16) := by decide +kernel
theorem test_decode_bits : decodeWord 0 0b00101000011000100000010001100011 = some (.exts 0 3 2 3 3) := by decide +kernel
theorem test_decode_binary32 : decodeWord 0 0b00000100011000100010100000000000 = some (.fadd 0 3 2 5) := by decide +kernel
theorem test_decode_branch : decodeWord 0 0b10000000001000001111111111111111 = some (.b 0 1#5 0xFFFF#16) := by decide +kernel
theorem test_decode_memory : decodeWord 0 0b01010100011000101111111111111100 = some (.stw 0 3 2 0xFFFC#16 false) := by decide +kernel
theorem test_decode_port : decodeWord 0 0b01100000011000100000000101000000 = some (.prd 0 3 2 0x140#16) := by decide +kernel
theorem test_decode_special : decodeWord 0 0b10011100011000000000000000000110 = some (.mfs 0 3 6) := by decide +kernel
theorem test_decode_reserved : decodeWord 0 0b00100100000000000000000000000000 = none ∧ decodeWord 0 0b00000000011000100010100000111111 = none := by
  decide +kernel

/-! What an instruction leaves, on fixed operands of the chapter. -/

/-- Channel 0's w[d] after a command. -/
def wAfter (i : Instr) (s : State) (d : Reg) : Option Word := match exec i s with | .next u => some ((u.engC 0).r d) | _ => none

theorem test_div_by_zero : wAfter (.div 0 5 2 0) prog 5 = some 0x80000000#32 ∧ wAfter (.divu 0 5 1 0) prog 5 = some 0xFFFFFFFF#32 := by decide +kernel
theorem test_sub_wraps : wAfter (.sub 0 5 2 3) prog 5 = some 0xFFFFFFF6#32 := by decide +kernel
theorem test_w0_discards : wAfter (.add 0 0 1 3) prog 0 = some 0#32 := by decide +kernel

/-! Register rows. -/

/-- The conditions of `Receives` as a Bool. -/
def receivesB (s : State) (org : Origin) (a : Nat) (val : Word) (x : RegAt) : Bool :=
  !s.halted && decide (x.rd.acc ≠ .ro ∧ x.rd.acc ≠ .rc) && s.originOk x org val && fieldsOk x.rd val
    && decide (s.boot.stage = .ready ∨ a ≤ 0x2BF ∨ (org ≠ .host0 ∧ org ≠ .host1)) && decide (s.log.held.length < 3840)

/-- The Bool says what `Receives` says. -/
theorem receives_of {s : State} {org : Origin} {a : Nat} {val : Word} {x : RegAt} (hx : regAt a = some x) (h : receivesB s org a val x = true) :
    s.Receives org a val x := by
  simp only [receivesB, Bool.and_eq_true, Bool.not_eq_true', decide_eq_true_eq] at h
  obtain ⟨⟨⟨⟨⟨h1, h2⟩, h3⟩, h4⟩, h5⟩, h6⟩ := h
  exact ⟨h1, hx, h2, h3, h4, h5, h6⟩

/-- The row's write is received in `s` and no rule of its register refuses it. -/
def rowOk (s : State) (i : Instr) : Bool :=
  match regCmd i with
  | none => false
  | some (org, addr, val, aux, t) => match regAt addr with
    | none => false
    | some x => receivesB (s.advance t) org addr val x && (s.advance t).writeOk x (recvWrite org addr val aux x)

/-- What the rows ask for beside the boot: images in both banks, a vector ring in RUN, both safety inputs seen, room for captures, a pair of a
running channel to swap, a key in slot 0. -/
def ready (s : State) : State :=
  let m : ImgMeta := ⟨[], 0, 0x10, 0x20, 0, 0, 0, 0, 0, 0, 100, 100, 0, false, false, []⟩
  let u : State := { s with rings := s.rings.set 0 { s.rings[(0 : Ring)] with st := .run }, lsafe := { s.lsafe with both := true },
                            fuse := { s.fuse with keys := s.fuse.keys.set 1 (some (List.replicate 64 0#8)) } }
  ((u.modCh 0 fun x => { x with active := some m, inactive := some m, running := true }).setReg (chReg 0 Reg.TRACE_ALLOC) 0x10000#32).setReg
    (camReg 0 Reg.CAM_TRC_ALLOC) 0x10001#32

theorem test_rows_before_and_after_run : ∀ i ∈ ([.stokeRun .host0 0, .ppsArm .host0 false 0, .engTrapClr .host0 0 0, .faultClear .host0 0 0, .faultResume .host0 0 0, .progLoad .host0 0 0,
      .progSwitch .host0 0 0, .progHalt .host0 0 0, .lutSwap .host0 0 0, .vecRestart .host0 0 0 0, .svCtrlWrite .host0 0 0#32 0,
      .svClear .host0 0 0, .paramApply .host0 0 0 0, .trimTgtWrite .host0 0 0 0#32 0, .pdTgtWrite .host0 0 0 false 0#32 0, .gridLoadXy .host0 0 0,
      .gridLoadF .host0 0 0, .gridAbort .host0 0 0, .lasDisarm .host0 0 0, .lsafeClr .host0 0, .loopMode .host0 0 0 false 0,
      .loopTrimWrite .host0 0 0#32 0, .traceArm .host0 0 0, .traceTrig .host0 0 0, .traceAbort .host0 0 0, .emCfgWrite .host0 0#32 0,
      .emClear .host0 0, .camStart .host0 0 0, .camStop .host0 0 0, .camAbort .host0 0 0, .camBindWrite .host0 0 0#32 0, .camTrigReq .host0 0 0,
      .camTrcArm .host0 0 0, .camTrcTrig .host0 0 0, .camTrcAbort .host0 0 0, .estCfgWrite .host0 0 0 0x801#32 0, .estStart .host0 0 0 0,
      .estAbort .host0 0 0 0, .clSwapTake .host0 0 0, .clSwapReturn .host0 0 0, .clSwapAbort .host0 0 0, .maDisable .host0 0 0, .maStop .host0 0 0,
      .maHardStop .host0 0 0, .maClear .host0 0 0, .posSet .host0 0 0#32 0, .decelWrite .host0 0 1#32 0, .limClr .host0 0 0#32 0,
      .idxArm .host0 0 0, .prbRearm .host0 0 0, .cmpArm .host0 0 0, .cmpDisarm .host0 0 0, .illUpdate .host0 0 0, .illStrobe .host0 0 0,
      .tagCtrlAuth .host0 0 0, .tagCtrlWrite .host0 0 0, .xferGo .host0 0x80000100#32 0, .ringEnable .host0 0 0 0, .ringDisable .host0 0 0,
      .ringDoorbell .host0 0 0#32 0, .intAck .host0 0 0, .intPendClear .host0 0 0#32 0, .portEn .host0 0 0, .portDis .host0 0 0,
      .portRetrain .host0 0 false 0, .svcLock .host0 0, .hkOverrideRelease .host0 0, .dipGateWrite .host0 0#32 0, .bootGo .host0 0,
      .keyProgram .svc 0 0, .keyRevoke .svc 0 0, .setSecure .svc 0, .dmpEngage .host0 0, .dmpRelease .host0 0, .coefWrite .host0 0 0xA00C 0#32 0] : List Instr),
    rowOk (ready up) i = true ∧ rowOk (ready on) i = true := by decide +kernel
theorem test_rows_after_run : ∀ i ∈ ([.layerCtrlReq .host0 0 0, .progRun .host0 0 0 0, .lasArm .host0 0 0, .maEnable .host0 0 0, .maGo .host0 0 0, .maJog .host0 0 0,
      .maHome .host0 0 0] : List Instr),
    rowOk (ready on) i = true := by decide +kernel
theorem test_rows_before_run : rowOk (ready up) (.stokeCfgWrite .host0 0#32 0) = true ∧ rowOk (ready up) (.stokeCfgWrite .host0 0x103#32 0) = true := by decide +kernel

/-! Time, registers, programs (chapters 00 to 05, 19, 22). -/

/-- The log takes entries. -/
theorem logOpen_of {s : State} (h : s.log.started = true ∧ s.log.batching = false ∧ s.log.held.length < 4000) : s.LogOpen := ⟨h.1, h.2.1, h.2.2⟩
/-- A timing master whose counter stands at `q` quarter nanoseconds of second 8. -/
def master (q : Nat) (f : TimeSt → TimeSt) : State :=
  { on with boot := { on.boot with gangTm := true }, time := f { on.time with taiSec := 8, taiQ := q } }

theorem test_witness_PulsesSteerTheTimeCounter :
    (let s := master 0 fun x => { x with armed := true, armSec := 9 };
      s.halted = false ∧ s.boot.gangTm = true ∧ s.time.armed = true ∧ s.time.autoArmed = false ∧ s.time.armAt ≠ some (s.advance 8).now
      ∧ s.time.armSec < 2 ^ 40 ∧ (s.advance 8).LogOpen)
    ∧ (∀ q ∈ [8000, 3999992000], let s := master q fun x => { x with lastAcc := some 7 };
      s.halted = false ∧ (s.advance 0).tai.1 = 8 ∧ ((s.advance 0).tai.2 / 4 = 2000 ∨ (s.advance 0).tai.2 / 4 = 1000000000 - 2000))
    ∧ (let s := master 8004 fun x => { x with lastAcc := some 7 };
      s.time.armed = false ∧ s.time.lastAcc = some 7 ∧ (s.advance 0).tai.2 / 4 = 2001)
    ∧ (let s := master 0 fun x => { x with lastAcc := some 6, accAt := 6 * 4000000000 + 2000000000 };
      s.time.lastAcc ≠ none ∧ s.time.holdover = false ∧ s.time.accAt + 6000000000 = (s.advance 0).tai.1 * 4000000000 + (s.advance 0).tai.2
      ∧ (s.advance 0).LogOpen)
    ∧ on.boot.gangTm = false ∧ on.halted = false := by
  refine ⟨⟨by decide +kernel, by decide +kernel, by decide +kernel, by decide +kernel, by decide +kernel, by decide +kernel, logOpen_of (by decide +kernel)⟩,
    by decide +kernel, by decide +kernel, ⟨by decide +kernel, by decide +kernel, by decide +kernel, logOpen_of (by decide +kernel)⟩, by decide +kernel⟩

/-- A member with EAST up. -/
def member (f : GangSt → GangSt) : State :=
  { on with lanes := { on.lanes with port := on.lanes.port.set 0 { on.lanes.port[(0 : Fin 2)] with st := .up } }, gang := f on.gang }

theorem test_witness_GangStatesFollowTheStamps :
    (let s := member id;
      s.halted = false ∧ s.lanes.port[(0 : Fin 2)].st = .up ∧ s.lanes.port[otherPort 0].st ≠ .up ∧ s.boot.gangTm = false ∧ s.gang.st = .solo)
    ∧ (∀ g ∈ [GangState.align, .locked, .holdover], (member fun x => { x with st := g }).gang.st = g)
    ∧ (let s := { member id with boot := { (member id).boot with gangTm := true } }; s.gang.conflict = false ∧ (s.advance 0).log.started = true ∧ (s.advance 0).log.batching = false)
    ∧ (let s := member fun x => { x with st := .align };
      s.time.running = true ∧ (s.advance 3999).stokeCyc = (s.advance 3999).now + 1 ∧ s.gang.stepped = false ∧ s.anyArmed = false ∧ s.anyLayer = false)
    ∧ (let s := member fun x => { x with st := .align, stepped := true, lockRun := 64 };
      s.halted = false ∧ (s.advance 3999).stokeCyc ≤ (s.advance 3999).now + 1 ∧ s.gang.stepped = true ∧ 64 ≤ s.gang.lockRun)
    ∧ (let s := member fun x => { x with st := .locked, sinceStamp := 64 }; s.gang.st = .locked ∧ 64 ≤ s.gang.sinceStamp ∧ s.log.batching = false) := by
  decide +kernel

theorem test_witness_RowsWriteTheirRegisters : regCmd (.dmpRelease .svc 5) = some (.svc, 0x800004, 2#32, 0, 5)
    ∧ regCmd (.estCfgWrite .host0 5 23 7#32 0) = some (.host0, 0x300000 + 0x8000 * 23 + 0x300, 7#32, 0, 0) := by decide +kernel

/-- GLB_SCRATCH, LSAFE_CFG, STOKE_STATUS and DENIED_CNT, by address. -/
theorem test_witness_writes_and_reads :
    (regAt 0x1C).any (fun x => receivesB on .host1 0x1C 5#32 x && x.rd.imm && on.writeOk x (recvWrite .host1 0x1C 5#32 0 x)) = true
    ∧ (regAt 0x104).any (fun x => receivesB on .host0 0x104 0xFFFF#32 x && !x.rd.imm && decide (¬(x.blk = .ma ∧ x.off = 4))
        && decide (¬(x.blk = .ch ∧ isCoef x.off = true))) = true
    ∧ (on.canon = true ∧ 0x1E % 4 ≠ 0 ∧ (0x3#4 : BitVec 4) ≠ 0xF#4)
    ∧ regAt 0x3FFFFFC = none ∧ (regAt 0x10008).any (fun x => x.rd.acc == .ro) = true ∧ (regAt 0x20040).any (fun x => x.rd.acc == .rc) = true
    ∧ (regAt 0x104).any (fun x => !on.originOk x .host1 0#32) = true ∧ (regAt 0x20004).any (fun x => on.originOk x .host0 0#32 && !fieldsOk x.rd 0#32 && !ownRange x) = true
    ∧ (regAt 0x10000).any (fun x => receivesB (ready up) .host0 0x10000 0#32 x) = true
    ∧ (regAt 0x108).any (fun x => receivesB on .host0 0x108 1#32 x && x.rd.imm && !on.writeOk x (recvWrite .host0 0x108 1#32 0 x)) = true
    ∧ (regAt 0x104).any (fun x => loggable x .host0) = true
    ∧ 3840 ≤ { on with log := { on.log with held := List.replicate 3840 ⟨0, 0, 0, 0, false, 0, 0, 0, 0, []⟩ } }.log.held.length
    ∧ on.log.held.length < 3840 ∧ on.log.denied < on.denyLimit ∧ on.boot.stage = .ready ∧ on.halted = false
    ∧ (regAt 0x108).any (fun x => x.rd.acc == .wo && x.blk != .stk && x.blk != .acc) = true
    ∧ (regAt 0x10C).any (fun x => x.rd.acc == .rc && x.blk != .acc) = true ∧ (regAt 0x1C).any (fun x => x.rd.acc != .rc && x.blk != .stk && x.blk != .acc) = true
    ∧ { on with time := { on.time with latCnt := some 3#32 } }.time.latCnt = some 3#32 := by decide +kernel

theorem test_witness_Bar2ReachesTheSram : on.halted = false ∧ on.boot.stage = .ready ∧ on.canon = true ∧ on.bar2Writable .host1 0x2FFFFFC = true
    ∧ on.bar2Writable .host1 0x1610000 = false ∧ laidOut 0x1610000 = true ∧ on.isBad 0x1610000 = false
    ∧ { on with bad := [0x161FFFC] }.isBad 0x161FFFC = true := by decide +kernel

theorem test_witness_BoundaryCountsOnR36R37 : on.halted = false ∧ on.time.running = true ∧ on.gang.st ≠ .align := by decide +kernel

theorem test_witness_OverrunsAndBarriersAct :
    (prog.halted = false ∧ (prog.engC 0).run = .run ∧ (prog.engC 0).entry ≠ .fault
      ∧ (prog.advance prog.budget).engBudget (prog.engOf 0) ≤ (prog.advance prog.budget).now)
    ∧ ((progFault.engC 0).run = .run ∧ (progFault.engC 0).entry = .fault ∧ (progFault.advance 200).engBudget (progFault.engOf 0) = (progFault.advance 200).now)
    ∧ (let s := on.modCh 0 fun x => { x with overruns := 2 }; 2 ≤ s.ch[(0 : Ch)].overruns ∧ s.ch[(0 : Ch)].fault = 0 ∧ 2 ∉ s.ch[(0 : Ch)].faultDue)
    ∧ ((on.advance 3999).stokeCyc ≤ (on.advance 3999).now + 1)
    ∧ (let y : SyncSt := { on.sync[(0 : Ch)] with waiting := true, arr := 4, arrMask := 1, arrTmo := 3, known := [(0, 0#32, 4, 4)] };
      y.releaseDue 5 = true ∧ y.releaseDue 4 = false)
    ∧ (let y : SyncSt := { on.sync[(0 : Ch)] with waiting := true, arr := 4, arrMask := 3, arrTmo := 3, known := [(0, 0#32, 4, 4)] };
      y.waiting = true ∧ y.releaseDue 7 = false ∧ y.arr + y.arrTmo ≤ 7) := by decide +kernel

theorem test_witness_LoaderAndPrefetcherAct :
    ({ on with loadQ := [(3, 0x1000, 64)] }.loadQ = (3, 0x1000, 64) :: [] ∧ ({ on with loadQ := [] } : State).progCheck 3 [] 64 ≠ 0)
    ∧ (let s := ready on;
      s.halted = false ∧ s.vecRing 0 = some 0 ∧ s.rings[(0 : Ring)].st = .run ∧ s.rings[(0 : Ring)].closing = false ∧ s.vec[(0 : Ch)].stop = 0
      ∧ s.vec[(0 : Ch)].eps = false ∧ s.vec[(0 : Ch)].buf.length < 8192 ∧ s.vec[(0 : Ch)].drop = 0)
    ∧ (let s := { ready on with rings := (ready on).rings.set 0 { (ready on).rings[(0 : Ring)] with host := 1 } };
      s.vec[(0 : Ch)].fetchIdx ≠ s.rings[(0 : Ring)].host ∧ (List.replicate 32 0xEF#8).length = 32
      ∧ (nthD (List.replicate 32 0xEF#8) 0 0#8).toNat < 0xF0 ∧ 0xF0 ≤ (nthD (List.replicate 32 0xF0#8) 0 0#8).toNat
      ∧ (nthD (List.replicate 32 0xEF#8) 1 0#8).toNat ≠ s.vec[(0 : Ch)].placed % 256 ∧ (nthD (0x10#8 :: List.replicate 31 0#8) 1 0#8).toNat = s.vec[(0 : Ch)].placed % 256)
    := by decide +kernel

/-! The servo, the laser port, the loop, the ember map, cameras and estimators (chapters 06 to 11). -/

/-- The stoke's last instant. -/
def last : Nat := 3999
theorem test_witness_edge : on.halted = false ∧ on.canon = true ∧ (on.advance last).stokeCyc = (on.advance last).now + 1 ∧ (on.advance last).canon = true
    ∧ (on.advance last).log.started = true ∧ (on.advance last).log.batching = false ∧ (on.advance last).log.held.length < 4000 := by decide +kernel

theorem test_witness_ServoEventsAndGridsAct :
    (let s := on.modAx 0 1 fun x => { x with st := .run, fFerr := true, nFerr := 65535, fSat := true, nSat := 65535 };
      s.sv[(0 : Ch)].ax[(1 : Ax)].st = .run ∧ (s.advance 0).servoCause 0 1 = 1)
    ∧ (let s := on.modSv 0 fun x => { x with m := 5, n := 5 }; s.sv[(0 : Ch)].n ≤ s.sv[(0 : Ch)].m
      ∧ s.sv[(0 : Ch)].ax[(0 : Ax)].pdN ≤ s.sv[(0 : Ch)].ax[(0 : Ax)].pdM)
    ∧ (let s := { on with gridQ := [⟨2, false, none⟩] }; s.gridQ = [⟨2, false, none⟩] ∧ (List.replicate 16900 0#8).length = 16900
      ∧ s.time.running = true)
    ∧ (let s := { on with gridQ := [⟨2, false, some [7#8]⟩] }; s.gridQ = [⟨2, false, some [7#8]⟩] ∧ s.ch[(2 : Ch)].inLayer = false) := by decide +kernel
/-- Both outcomes of the CRC exist: the CRC of the block is what GRID_CRC says, or not. -/
theorem test_witness_grid_crc : crc32 (List.replicate 64 0#8) ≠ on.reg (chReg 2 Reg.GRID_CRC)
    ∧ (let s := on.setReg (chReg 2 Reg.GRID_CRC) (crc32 (List.replicate 64 0#8)); crc32 (List.replicate 64 0#8) = s.reg (chReg 2 Reg.GRID_CRC)) := by
  decide +kernel

theorem test_witness_LaserPortArmsAndTrips :
    fld (on.creg 0 Reg.LAS_CFG) 8 8 ≤ 255 ∧ fld (on.creg 0 Reg.LAS_CFG) 8 8 ≤ fld (on.creg 0 Reg.LAS_CFG) 8 8
    ∧ (let s := on.modLas 0 fun l => { l with arm := .armed, ready := true };
      s.las[(0 : Ch)].arm = .armed ∧ s.las[(0 : Ch)].cut = false ∧ s.las[(0 : Ch)].ready = true ∧ s.time.running = true ∧ s.halted = false)
    ∧ (let s := on.modLas 0 fun l => { l with arm := .arming, armWait := 65535 };
      s.las[(0 : Ch)].arm = .arming ∧ s.las[(0 : Ch)].ready = false ∧ fld (s.creg 0 Reg.LAS_CFG) 16 16 ≤ s.las[(0 : Ch)].armWait)
    ∧ (let s := (ready on).modLas 0 fun l => { l with arm := .armed, play := ⟨some 3999, none, true⟩ };
      s.las[(0 : Ch)].play = ⟨some 3999, none, true⟩ ∧ 3999 ≤ (s.advance 3999).now ∧ (s.advance 3999).lasLatched 0 = false)
    ∧ (let s := on.modLas 0 fun l => { l with play := ⟨none, some 0, true⟩ }; s.las[(0 : Ch)].play = ⟨none, some 0, true⟩ ∧ 0 ≤ (s.advance 0).now)
    ∧ (let s := on.modLas 0 fun l => { l with play := ⟨some 7, some 7, true⟩ }; s.las[(0 : Ch)].play = ⟨some (s.advance 7).now, some (s.advance 7).now, true⟩)
    ∧ (let s := on.modLas 0 fun l => { l with monCount := 65535 };
      fld (s.creg 0 Reg.MON_CFG) 16 16 ≤ s.las[(0 : Ch)].monCount ∧ s.las[(0 : Ch)].monDev = false) := by decide +kernel

theorem test_witness_SafetyInputsKillAndDiffer : on.halted = false ∧ on.lsafe.bLow = false ∧ on.lsafe.aLow = false ∧ on.canon = true
    ∧ State.reset.halted = true
    ∧ (let s := { on with lsafe := { on.lsafe with differ := 0x2711 } };
      s.lsafe.disc = false ∧ (s.advance 0).regF Reg.LSAFE_CFG 0 16 < s.lsafe.differ ∧ (s.advance 0).log.started = true) := by decide +kernel

/-- A decided property of an option's content. -/
theorem some_of {α : Type} {o : Option α} {P : α → Prop} [DecidablePred P] (h : (o.any fun x => decide (P x)) = true) : ∃ x, o = some x ∧ P x := by
  cases o with
  | none => simp at h
  | some x => exact ⟨x, rfl, by simpa using h⟩

theorem test_witness_LoopRequestsAndCoefficientsAct :
    (∃ x, regAt (chReg 0 0xA00C) = some x ∧ x.blk = .ch ∧ x.inst = 0 ∧ x.off = 0xA00C ∧ x.rd.acc = .rw ∧ on.originOk x .host0 0x3F800000#32 = true
      ∧ isCoef 0xA00C = true ∧ on.loop[(0 : Ch)].queue.length < 128 ∧ on.coefOk 0 0xA00C (recvWrite .host0 (chReg 0 0xA00C) 0x3F800000#32 0 x).val = true)
    ∧ (let s := on.modLoop 0 fun l => { l with queue := List.replicate 128 ⟨.host0, chReg 0 0xA00C, 0#32, false, 0⟩ };
      128 ≤ s.loop[(0 : Ch)].queue.length ∧ s.canon = true)
    ∧ (let s := on.modLoop 0 fun l => { l with queue := [⟨.host0, chReg 0 Reg.LOOP_I_MAX, 0xFF000000#32, false, 0⟩], fbValid := true };
      s.loop[(0 : Ch)].queue = ⟨.host0, chReg 0 Reg.LOOP_I_MAX, 0xFF000000#32, false, 0⟩ :: [] ∧ s.coefOk 0 Reg.LOOP_I_MAX 0xFF000000#32 = false
      ∧ s.loop[(0 : Ch)].fbValid = true) := by
  refine ⟨some_of (by decide +kernel), by decide +kernel, by decide +kernel⟩

theorem test_witness_ReversionsAndCapturesAct :
    (let s := on.modLoop 0 fun l => { l with dueLost := true, dueFrozen := true, dueAged := true };
      s.loop[(0 : Ch)].dueLost = true ∧ s.loop[(0 : Ch)].dueFrozen = true ∧ s.loop[(0 : Ch)].dueAged = true ∧ s.canon = true)
    ∧ (let s := (on.modLoop 0 fun l => { l with autoDue := true, mode := .track, camAge := 0 }).setReg (chReg 0 Reg.LOOP_CFG) 8#32;
      s.loop[(0 : Ch)].autoDue = true ∧ s.loop[(0 : Ch)].mode = .track ∧ s.loop[(0 : Ch)].camAge = 0 ∧ bit (s.creg 0 Reg.LOOP_CFG) 3 = true)
    ∧ on.loop[(0 : Ch)].blendLeft = 0
    ∧ (let s := { on with trace := on.trace.set 0 { on.trace[(0 : Ch)] with st := .post } };
      s.trace[(0 : Ch)].st = .post ∧ s.trace[(0 : Ch)].trigDue = false ∧ s.trace[(0 : Ch)].postLeft = 0) := by decide +kernel

theorem test_witness_EmberMapAndGuardActs :
    (let s := ({ on with time := { on.time with cnt := 9 }, em := { on.em with due := [⟨7, 0, 0x3F800000#32, 0, 2047⟩] } }).setReg (emReg Reg.EM_CFG) 1#32;
      s.em.due = [⟨7, 0, 0x3F800000#32, 0, 2047⟩] ∧ 7 + 1 < s.time.cnt ∧ (s.advance last).emOn = true ∧ inMap (0 + 1) (2047 - 1) = true ∧ inMap (0 - 1) 2047 = false)
    ∧ (let s := { on with time := { on.time with cnt := 64 }, gm := { on.gm with dev := on.gm.dev.set 2 { on.gm.dev[(2 : Fin 4)] with missing := [0] } } };
      s.gm.dev[(2 : Fin 4)].missing = [0] ∧ 0 + 64 ≤ s.time.cnt ∧ s.halted = false ∧ s.canon = true)
    ∧ ({ on with em := { on.em with clearing := true } }.em.clearing = true)
    ∧ (let s := { on with time := { on.time with cnt := 64 * 32768 } }.put 0xFFFFFC [1#8, 0#8, 0#8, 0#8];
      s.isBad 0xFFFFFC = false ∧ s.word 0xFFFFFC ≠ 0#32 ∧ 32768 ≤ ageOf (stampUnit s.time.cnt) (fld (s.word 0xFFFFFC) 16 16) ∧ s.canon = true ∧ s.boot.stage = .ready) := by
  decide +kernel

/-- Pipeline 0 in RUN with one pulse of a set of two members pending. -/
def camRun : State :=
  let z : CamSet := ⟨3, 4, 2, [100, 100, 100], 50, 0, false, 0, 0#32, 0#32⟩
  (on.modCam 0 fun c => { c with st := .run, pending := [⟨4, 3, 0, 10⟩], opens := [⟨z, [], false, none, true⟩], tseq := 5, setNum := 4 }).setReg
    (camReg 0 Reg.CAM_MATCH) 0x64#32
/-- Pipeline 0 in RUN with nothing under way, triggered by request. -/
def camIdle : State := (on.modCam 0 fun c => { c with st := .run }).setReg (camReg 0 Reg.CAM_TRIG_CFG) 2#32
/-- No event of the pipeline is due. -/
def quiet (s : State) (m : Cam) : Bool := match s.camNext m with | none => true | some x => decide (((s.now : Nat) : Int) < x.1)
/-- Neither a request, nor a periodic one, nor a missed pulse is due. -/
def free (s : State) (m : Cam) : Bool :=
  !s.cam[m].reqDue && (s.mregF m Reg.CAM_TRIG_CFG 0 2 == 0 || s.mregF m Reg.CAM_TRIG_CFG 0 2 == 2)
    && match s.cam[m].pending.head? with | none => true | some p => decide (((s.now : Nat) : Int) < p.rise + s.matchWin m)

theorem test_witness_requests_and_edges :
    (camIdle.halted = false ∧ quiet (camIdle.advance 20) 0 = true ∧ (camIdle.advance 20).mregF 0 Reg.CAM_TRIG_CFG 0 2 = 2 ∧ camIdle.cam[(0 : Cam)].st = .run
      ∧ camIdle.cam[(0 : Cam)].exp = none ∧ camIdle.cam[(0 : Cam)].pending.length < 8)
    ∧ (let s := camIdle.modCam 0 fun c => { c with st := .stopped }; quiet (s.advance 0) 0 = true ∧ s.cam[(0 : Cam)].st ≠ .run)
    ∧ (let z : CamSet := ⟨3, 4, 2, [100, 100, 100], 50, 0, false, 0, 0#32, 0#32⟩
      let s := camRun.modCam 0 fun c => { c with exp := some (z, 1, true, 110) };
      s.cam[(0 : Cam)].exp = some (z, 1, true, 110) ∧ (110 : Int) ≤ ((s.advance 110).now : Nat) ∧ free (s.advance 110) 0 = true ∧ 1 + 1 = z.members)
    ∧ (let z : CamSet := ⟨3, 4, 2, [100, 100, 100], 50, 0, false, 0, 0#32, 0#32⟩
      let s := camRun.modCam 0 fun c => { c with exp := some (z, 1, false, 160) };
      (160 : Int) ≤ ((s.advance 160).now : Nat) ∧ free (s.advance 160) 0 = true ∧ ((s.advance 160).now : Int) < 160 + (nthD z.widths 1 8 : Nat)
      ∧ ((s.advance 160).now : Int) < 160 + (s.advance 160).matchWin 0) := by decide +kernel

theorem test_witness_pulses_and_frames :
    (let s := camRun; let a := s.advance 810;
      (∃ p, s.cam[(0 : Cam)].pending = p :: [] ∧ p ∉ ([] : List CamPulse) ∧ p.rise + a.matchWin 0 = ((a.now : Nat) : Int)) ∧ s.cam[(0 : Cam)].exp = none
      ∧ s.cam[(0 : Cam)].reqDue = false ∧ a.mregF 0 Reg.CAM_TRIG_CFG 0 2 = 0 ∧ a.lineScan 0 = false)
    ∧ (let s := camRun; let a := s.advance 809;
      s.cam[(0 : Cam)].st ≠ .stopped ∧ s.cam[(0 : Cam)].fv = false ∧ quiet a 0 = true
      ∧ (∀ q ∈ s.cam[(0 : Cam)].pending, q.rise < ((a.now : Nat) : Int) ∧ ((a.now : Nat) : Int) ≤ q.rise + a.matchWin 0)
      ∧ s.cam[(0 : Cam)].opens.map (·.set.setNum) = s.cam[(0 : Cam)].pending.map (·.setNum))
    ∧ (camIdle.cam[(0 : Cam)].pending = [] ∧ quiet (camIdle.advance 0) 0 = true)
    ∧ (let s := camRun.modCam 0 fun c => { c with pending := [], fv := true, cur := some ⟨some (3, 1), 0, 0, 0, 0#32, 0#32, 0#32, none, false⟩ };
      (s.cam[(0 : Cam)].cur.any fun f => !f.dead && f.tag == some (3, 1)) = true ∧ s.cam[(0 : Cam)].opens.map (·.missed) = [false]
      ∧ quiet (s.advance 9) 0 = true ∧ (s.advance 9).lineScan 0 = false)
    ∧ (let s := ({ camRun with time := { on.time with cnt := 70000 } }).modCam 0 fun c => { c with cur := some ⟨some (3, 0), 0, 0, 0, 0#32, 0#32, 0#32, none, false⟩ };
      0 + 1 ≠ 2 ∧ 0 + (s.advance last).mregF 0 Reg.CAM_FRAME_TMO 0 16 ≤ s.time.cnt ∧ (s.advance last).stokeCyc ≤ (s.advance last).now + 1) := by
  refine ⟨⟨⟨_, rfl, by decide +kernel⟩, by decide +kernel⟩, by decide +kernel⟩

theorem test_witness_records_and_archive :
    ((on.modCam 0 fun c => { c with done := [⟨List.replicate 16 0#32, [1, 2, 3], 0, false⟩], fresh := some ⟨[], [], 0, false⟩ }).cam[(0 : Cam)].done.length = 1)
    ∧ (let s := on.modCam 0 fun c => { c with st := .stopping };
      s.cam[(0 : Cam)].st = .stopping ∧ s.cam[(0 : Cam)].pending = [] ∧ s.cam[(0 : Cam)].opens = [] ∧ s.cam[(0 : Cam)].exp = none ∧ quiet (s.advance 0) 0 = true)
    ∧ (let s := (on.modCam 0 fun c => { c with arch := [⟨0, 0, 0#32, 0#32, 0, 1, 1, [5], 0, 1, 0#32⟩] }).modRing 48 fun r => { r with st := .run, host := 1 };
      (s.advance 0).ringRole 48 = 3 ∧ (s.advance 0).ringInst 48 = (0 : Cam).val ∧ s.rings[(48 : Ring)].st = .run ∧ s.rings[(48 : Ring)].closing = false
      ∧ 0 < idxDiff s.rings[(48 : Ring)].host s.rings[(48 : Ring)].dev ∧ s.rings[(48 : Ring)].dev < 2 ^ 32 ∧ descGood (64, 256) = true ∧ descGood (64, 255) = false
      ∧ (s.cam[(0 : Cam)].arch.all fun x => decide (((s.advance 0).archBytes 0 x).length ≤ 256)) = true) := by decide +kernel

/-- Estimator 5 of pipeline 0, enabled, with a round's samples. -/
def estOn (f : Est → Est) : State :=
  (on.modEst 5 0 f).setReg (estBase 5 0) 0x801#32

theorem test_witness_EstimatorsStepAndDecide :
    (let s := estOn fun e => { e with st := .idle, wait := 0xFFFFFFFF };
      bit ((s.advance last).reg (estBase 5 0)) 0 = true ∧ bit ((s.advance last).reg (estBase 5 0)) 1 = false ∧ (s.est 5 0).st = .idle ∧ (s.est 5 0).abort = false
      ∧ ((s.advance last).reg (estBase 5 0 + 0x10)).toNat ≤ (s.est 5 0).wait + 1 ∧ s.canon = true)
    ∧ (let s := estOn fun e => { e with st := .collect, par := List.replicate 28 2#32, xs := List.replicate 2 [Q.ofInt 5] };
      (s.est 5 0).st = .collect ∧ (s.est 5 0).retarget = [] ∧ estReady (s.est 5 0) 5 = true ∧ ∀ w ∈ s.bad, regionOf w ≠ 5)
    ∧ (let e := (estOn fun e => { e with st := .evaluate, par := List.replicate 28 0x7FFFFF#32, old := [0#32], xs := List.replicate 2 [Q.ofInt 5] }).est 5 0;
      e.st = .evaluate ∧ estCause e 5 false (estResult e 5) = 0)
    ∧ (let e := (estOn fun e => { e with st := .evaluate, par := 0x201#32 :: List.replicate 27 0#32, old := [0#32], xs := List.replicate 2 [Q.ofInt 5] }).est 5 0;
      estCause e 5 false (estResult e 5) = 1 ∧ min (e.rejRun + 1) 255 < fld (e.p 0) 8 8 ∧ fld (e.p 0) 8 8 ≤ min ({ e with rejRun := 1 }.rejRun + 1) 255)
    ∧ (let s := estOn fun e => { e with st := .ramp, m := 4, n := 4 }; (s.est 5 0).st = .ramp ∧ s.estRampDone 5 0 = true)
    ∧ (let s := { on with time := { on.time with cnt := 2 } }.modCal 0 fun x => { x with pend := [⟨0, 0, 0, ⟨0, 1⟩, ⟨0, 1⟩, ⟨0, 1⟩, 3⟩] };
      s.time.cnt = 1 + 1 ∧ s.cal[(0 : Ch)].pend.map (·.mid) = [3] ∧ (3 + fld ((s.est 4 0).p 0x40) 8 7) * 250 < s.time.cnt * (s.advance 0).stokeCyc
      ∧ (s.advance 0).xingWindow 0 ⟨0, 0, 0, ⟨0, 1⟩, ⟨0, 1⟩, ⟨0, 1⟩, 3⟩ (fld ((s.est 4 0).p 0x40) 8 7) = none) := by decide +kernel

/-! Clusters, motion, illumination, tags, rings, lanes, ports, power (chapters 12 to 21). -/

/-- Pair 0 of cluster 0, changed, with the reserve covering its channel or not. -/
def paired (f : Pair → Pair) (st : ResState) : State := on.modCl 0 fun k => { k.modPair 0 f with st := st }

theorem test_witness_ReservesTakeOverAndReturn :
    (let s := on.modCl 0 fun k => { k with due := [(0, 3, false)] };
      s.cl[(0 : Cl)].due = [(0, 3, false)] ∧ s.halted = false ∧ (s.advance last).stokeCyc ≤ (s.advance last).now + 1 ∧ s.cl[(0 : Cl)].st = .standby
      ∧ s.cl[(0 : Cl)].uncov[(0 : Fin 6)] = false ∧ (s.advance last).canon = true ∧ (s.advance last).log.started = true)
    ∧ (let s := on.modCl 0 fun k => { k with due := [(0, 3, true)], st := .retired }; s.cl[(0 : Cl)].due = [(0, 3, true)] ∧ s.cl[(0 : Cl)].st ≠ .standby ∧ s.cl[(0 : Cl)].st ≠ .prep)
    ∧ (∀ n ∈ [0, 2], let s := paired (fun p => { p with st := .bist, attempts := n }) .cover;
      s.cl[clusterOf 0].pairs[inCluster 0].st = .bist ∧ s.cl[clusterOf 0].pairs[inCluster 0].bistLeft = 0 ∧ s.clHolds 0 = true
      ∧ s.cl[clusterOf 0].pairs[inCluster 0].attempts = n ∧ s.cl[clusterOf 0].pairs[inCluster 0].stopped = false)
    ∧ (paired (fun p => { p with st := .shadow }) .cover).cl[clusterOf 0].pairs[inCluster 0].st = .shadow
    ∧ (let s := { paired (fun p => { p with st := .waitRevert, returnReq := true }) .cover with time := up.time };
      s.time.running = false ∧ s.cl[clusterOf 0].pairs[inCluster 0].st = .waitRevert ∧ s.clHolds 0 = true ∧ s.cl[clusterOf 0].pairs[inCluster 0].returnReq = true
      ∧ s.gateQuiet 0 = true)
    ∧ (let s := up.modCl 0 fun k => { k with st := .prep }; s.time.running = false ∧ s.cl[(0 : Cl)].st = .prep ∧ s.cl[(0 : Cl)].prepLeft = 0)
    ∧ (let s := { paired (fun p => { p with st := .out, returnReq := true, bistPassed := true }) .swap with time := up.time };
      s.cl[clusterOf 0].pairs[inCluster 0].st = .out ∧ s.cl[clusterOf 0].pairs[inCluster 0].returnReq = true ∧ s.cl[clusterOf 0].pairs[inCluster 0].bistPassed = true
      ∧ s.gateQuiet 0 = true ∧ s.pendingImg 0 = none) := by decide +kernel

/-- The write of a command's row is received, whether or not the register's own rule refuses it. -/
def receivedB (s : State) (i : Instr) : Bool :=
  match regCmd i with
  | none => false
  | some (org, addr, val, _, t) => match regAt addr with
    | none => false
    | some x => receivesB (s.advance t) org addr val x

theorem test_witness_MotionRegistersAct :
    (∀ i ∈ [Instr.maEnable .host0 0 0, .maDisable .host0 0 0, .maStop .safe 0 0, .maHardStop .safe 0 0, .maClear .host0 0 0, .maGo .host0 0 0, .maJog .host0 0 0,
      .maHome .host0 0 0], receivedB on i = true ∧ receivedB up i = true)
    ∧ on.time.running = true ∧ up.time.running = false ∧ (up.advance 0).canon = true
    ∧ (let s := on.modMa 0 fun m => { m with st := .fault, cause := 1, all := 1 };
      s.ma[(0 : Ma)].m.cause ≠ 0 ∧ s.maPersists 0 = false ∧ s.ma[(0 : Ma)].m.st = .fault)
    ∧ (∀ p ∈ [false, true], let s := on.modMa 0 fun m => { m with st := .idle, stopped := p };
      s.ma[(0 : Ma)].m.st = .idle ∧ s.safe.stop[(0 : Ma)] = false ∧ s.ma[(0 : Ma)].m.blocked true = false ∧ s.ma[(0 : Ma)].m.stopped = p ∧ s.ma[(0 : Ma)].m.vq = 0)
    ∧ (let s := on.modMa 0 fun m => { m with st := .moving, vq := 5, pos := true };
      s.ma[(0 : Ma)].m.vq ≠ 0 ∧ s.ma[(0 : Ma)].m.blocked true = false ∧ s.ma[(0 : Ma)].m.pos ≠ decide ((0 : Int) ≤ (-1))) := by decide +kernel

theorem test_witness_MotionEventsAct :
    (let s := up.modMa 0 fun m => { m with landing := true, st := .moving }; s.halted = false ∧ s.time.running = false ∧ s.ma[(0 : Ma)].m.landing = true)
    ∧ (let s := up.modMa 0 fun m => { m with drive := .stop .idle, st := .stopping };
      s.ma[(0 : Ma)].m.drive = .stop .idle ∧ s.ma[(0 : Ma)].m.vq < s.ma[(0 : Ma)].m.dec + 65536)
    ∧ (let s := ((on.modMa 0 fun m => { m with st := .moving, drive := .jog 5 }).setReg (maReg 0 Reg.CUR_SCALE) 0x3F800000#32).setReg (maReg 0 Reg.I_OC) 10#32;
      (s.advance 8).maBridge 0 = true ∧ (s.advance 8).ocSample 0 11 = true ∧ (s.advance 8).ocSample 0 10 = false ∧ s.ma[(0 : Ma)].m.st ≠ .disabled
      ∧ 2 ∉ s.ma[(0 : Ma)].m.due ∧ (s.advance 8).canon = true ∧ (s.advance 8).log.started = true)
    ∧ (let s := on.modMa 0 fun m => { m with st := .moving, drive := .jog 5, stall := 65535, devRun := 3 };
      s.ma[(0 : Ma)].m.stall ≠ 0 ∧ (s.advance 0).maF 0 Reg.STALL_STOKES 0 16 ≤ s.ma[(0 : Ma)].m.stall ∧ 3 ≤ s.ma[(0 : Ma)].m.devRun
      ∧ s.ma[(0 : Ma)].m.all.testBit 3 = false ∧ 1 ∉ s.ma[(0 : Ma)].m.due ∧ 4 ∉ s.ma[(0 : Ma)].m.due ∧ s.ma[(0 : Ma)].m.going = true)
    ∧ (let s := (on.modMa 0 fun m => { m with st := .homing, drive := .jog 5, home := .search, acc := 65536 * 9 }).setReg (maReg 0 Reg.HOME_RANGE) 9#32;
      s.ma[(0 : Ma)].m.home = .search ∧ s.ma[(0 : Ma)].m.found = false ∧ s.ma[(0 : Ma)].m.going = true
      ∧ ((s.advance 0).maR 0 Reg.HOME_RANGE).toNat * 65536 ≤ (s.ma[(0 : Ma)].m.accAt ((s.advance 0).now / 8) - s.ma[(0 : Ma)].m.hstart).natAbs)
    ∧ (let s := (on.modMa 0 fun m => { m with st := .moving, drive := .jog 5, vq := 5, pos := true }).setReg (maReg 0 Reg.LIM_CFG) 0x00070006#32;
      (s.advance 0).maF 0 Reg.LIM_CFG 16 10 = 7 ∧ (s.ma[(0 : Ma)].m.lims[(0 : Fin 3)]).filt = false ∧ s.ma[(0 : Ma)].m.home = .none
      ∧ s.ma[(0 : Ma)].m.travels true = true ∧ (s.advance 0).maF 0 Reg.LIM_CFG 0 2 = 2 ∧ (s.advance 0).maF 0 Reg.LIM_CFG 2 2 = 1)
    ∧ (let s := on.modMa 0 fun m => { m with lims := m.lims.set 1 ⟨true, true, true, 0⟩ };
      (s.advance 0).maF 0 Reg.LIM_CFG 16 10 ≤ 1023 ∧ (s.ma[(0 : Ma)].m.lims[(1 : Fin 3)]).filt = true) := by decide +kernel

/-- Ring 5 in RUN for axis 0's motion records, with one to take. -/
def mcmdRing : State := (on.modRing 5 fun r => { r with st := .run, host := 1 }).setReg (ringReg 5 Reg.RING_BIND) 4#32
theorem test_witness_motion_records :
    (let s := mcmdRing; let a := s.advance 9;
      a.findRing 4 (0 : Ma).val = some 5 ∧ s.rings[(5 : Ring)].st = .run ∧ s.rings[(5 : Ring)].closing = false ∧ s.rings[(5 : Ring)].dev ≠ s.rings[(5 : Ring)].host
      ∧ s.mcmd[(0 : Ma)].wait = none ∧ s.mcmd[(0 : Ma)].taken = false ∧ (List.replicate 32 (9#8 : Byte)).length = 32
      ∧ 9 ≤ natLE ((List.replicate 32 (9#8 : Byte)).take 1)
      ∧ (let bs : List Byte := [1#8, 1#8] ++ List.replicate 30 0#8; natLE (bs.take 1) = 1 ∧ natLE ((bs.drop 1).take 1) = 1 ∧ receivedB a (.maGo .host0 0 9) = true)
      ∧ (let bs : List Byte := [1#8, 0x20#8] ++ List.replicate 22 0#8 ++ [5#8] ++ List.replicate 7 0#8;
        natLE (bs.take 1) < 9 ∧ (natLE ((bs.drop 1).take 1)).testBit 5 = true ∧ 0 < (recW bs 0x18 - a.stoke32).toInt)
      ∧ (let bs : List Byte := [1#8, 0x20#8] ++ List.replicate 22 0#8 ++ List.replicate 8 0xFF#8; (recW bs 0x18 - a.stoke32).toInt < 0))
    ∧ (∃ x, regAt (maReg 0 Reg.TARGET) = some x ∧ receivesB (mcmdRing.advance 9) .host0 (maReg 0 Reg.TARGET) 7#32 x = true) := by
  refine ⟨by decide +kernel, some_of (by decide +kernel)⟩

theorem test_witness_encoders :
    (let s := (on.setReg (evReg Reg.EVL_SRC) 0xCA#32).setReg (evReg Reg.EVD_SEL) 0x100#32; let a := s.advance 9;
      s.halted = false ∧ fld (a.reg (evReg Reg.EVL_SRC)) 0 10 = 0xC8 + (2 : Fin 8).val ∧ s.evt.lines[(0 : Fin 64)].active = false ∧ bit (a.reg (evReg Reg.EVL_SRC)) 12 = false
      ∧ a.evBusy 0 = false ∧ bit (a.reg (evReg Reg.EVD_SEL)) 8 = true ∧ fld (a.reg (evReg Reg.EVD_SEL)) 0 6 = (0 : Fin 64).val)
    ∧ (let s := (on.setReg (maReg 0 Reg.ENC_CFG) 1#32).setReg (maReg 0 Reg.ENC_FRAME) 0x11020800#32; let a := s.advance 9;
      a.encSrc 0 = 1 ∧ s.ma[(0 : Ma)].e.read = none ∧ s.ma[(0 : Ma)].e.first = true
      ∧ chkOk (a.maR 0 Reg.ENC_FRAME) (a.maR 0 Reg.ENC_CHK) [true, false, false, false, false, false, false, false, false, false] 1 = true
      ∧ chkOk (a.maR 0 Reg.ENC_FRAME) (a.maR 0 Reg.ENC_CHK) [true, false, false, false, false, false, false, false, false, false] 0 = false)
    ∧ (let s := (on.modEnc 0 fun e => { e with invalid := 5 }).modMa 0 fun m => { m with st := .moving, drive := .jog 5 };
      let u := s.setReg (maReg 0 Reg.ENC_ERR_STOKES) 5#32;
      (u.advance 0).maF 0 Reg.ENC_ERR_STOKES 0 8 ≠ 0 ∧ (u.advance 0).maF 0 Reg.ENC_ERR_STOKES 0 8 ≤ u.ma[(0 : Ma)].e.invalid ∧ u.ma[(0 : Ma)].m.all.testBit 6 = false
      ∧ 7 ∉ u.ma[(0 : Ma)].m.due)
    ∧ (let s := on.setReg (maReg 0 Reg.ENC_CFG) 3#32;
      2 ≤ (s.advance 0).encSrc 0 ∧ (quadPos true false + 4 - quadPos false false) % 4 + (quadPos false true + 4 - quadPos false false) % 4 = 4
      ∧ (quadPos true true + 4 - quadPos false false) % 4 = 2)
    ∧ (let s := (on.setReg (maReg 0 Reg.ENC_CFG) 3#32).setReg (maReg 0 Reg.IDX_CFG) 1#32; let a := s.advance 0;
      fld (a.maR 0 Reg.IDX_CFG) 0 2 = 1 ∧ bit (a.maR 0 Reg.IDX_CFG) 2 = false ∧ a.encSrc 0 = 3
      ∧ (idxError (wrap32 s.ma[(0 : Ma)].e.inc) (a.maR 0 Reg.IDX_EXPECT).toInt (a.maR 0 Reg.IDX_PERIOD).toNat).natAbs ≤ (a.maR 0 Reg.IDX_WIN).toNat
      ∧ (a.maR 0 Reg.IDX_WIN).toNat < (idxError 99999 (a.maR 0 Reg.IDX_EXPECT).toInt (a.maR 0 Reg.IDX_PERIOD).toNat).natAbs) := by decide +kernel

theorem test_witness_probes_and_compares :
    (∀ f ∈ [false, true], let s := { on.setReg (prbReg Reg.PRB_CFG) 0xD#32 with prb := on.prb.set 0 { on.prb[(0 : Fin 4)] with full := f } };
      bit ((s.advance 0).reg (prbReg Reg.PRB_CFG)) 0 = true ∧ bit ((s.advance 0).reg (prbReg Reg.PRB_CFG)) 1 = false
      ∧ bit ((s.advance 0).reg (prbReg Reg.PRB_CFG)) 2 = true ∧ s.prb[(0 : Fin 4)].full = f ∧ bit ((s.advance 0).reg (prbReg Reg.PRB_CFG)) 16 = false)
    ∧ (let s := ((on.modCmp 0 fun c => { c with armed := true, v := 0, p := -1, clk := 1 }).setReg (maReg 0 Reg.CMP_CFG) 9#32); let a := s.advance 16;
      s.ma[(0 : Ma)].c.armed = true ∧ s.ma[(0 : Ma)].c.behind = false ∧ a.maF 0 Reg.CMP_CFG 0 2 = 1 ∧ bit (a.maR 0 Reg.CMP_CFG) 3 = true ∧ bit (a.maR 0 Reg.CMP_CFG) 2 = false
      ∧ a.now / 8 = s.ma[(0 : Ma)].c.clk + 1 ∧ s.ma[(0 : Ma)].c.p < s.ma[(0 : Ma)].c.v
      ∧ s.ma[(0 : Ma)].c.v ≤ microOf (s.ma[(0 : Ma)].m.accAt (s.ma[(0 : Ma)].c.clk + 1)))
    ∧ on.ma[(0 : Ma)].c.until_ ≤ ((on.advance 0).now / 8 : Nat)
    ∧ (let s := (on.modFwd 0 fun f => { f with bits := some [true] }).setReg (maReg 0 Reg.FWD_CFG) 1#32;
      (s.advance 0).maF 0 Reg.FWD_CFG 0 2 = 1 ∧ s.ma[(0 : Ma)].f.bits = some (true :: []))
    ∧ (let s := on.modEnc 0 fun e => { e with rawOk := true }; s.ma[(0 : Ma)].f.bits = none ∧ s.ma[(0 : Ma)].e.rawOk = true)
    ∧ (let s := on.modFwd 0 fun f => { f with bits := some [], highAt := some (-300000) };
      s.ma[(0 : Ma)].f.bits = some [] ∧ s.ma[(0 : Ma)].f.highAt = some (-300000) ∧ (-300000 : Int) + (800 * (s.advance 3999).maF 0 Reg.FWD_CFG 8 8 : Nat) ≤ ((s.advance 3999).now : Nat)) := by
  decide +kernel

/-- Chain 0 of two drivers, its clock a sixteenth, a strobe of 10 motion clocks. -/
def chain (f : IllU → IllU) : State :=
  (((on.modIll 0 f).setReg (illReg Reg.ILL_CFG) 0x102#32).setReg (illReg Reg.STB_WIDTH) 10#32).setReg (illReg Reg.T_DIAG_MIN) 10#32

theorem test_witness_ChainsAndStrobesAct :
    let a := (chain id).advance 0;
    a.nDrv 0 ≠ 0 ∧ a.illDead = false ∧ (a.illCams 0).isEmpty = true ∧ (a.ill[(0 : Fin 4)].testAt.isSome || a.ill[(0 : Fin 4)].pendAt.isSome
      || a.ill[(0 : Fin 4)].openAt.isSome || a.ill[(0 : Fin 4)].testWait) = false
    ∧ 0 < a.illF 0 Reg.STB_WIDTH 0 20 ∧ a.illF 0 Reg.STB_DELAY 0 16 = 0 ∧ (chain id).halted = false := by decide +kernel
theorem test_witness_chain_delay : 0 < (((chain id).setReg (illReg Reg.STB_DELAY) 3#32).advance 0).illF 0 Reg.STB_DELAY 0 16 := by decide +kernel
theorem test_witness_chain_pends :
    (let s := chain fun i => { i with pendAt := some 9 }; s.ill[(0 : Fin 4)].pendAt = some 9 ∧ ((s.advance 8).now : Int) < 9 ∧ (9 : Int) ≤ ((s.advance 9).now : Nat)
      ∧ ((s.advance 9).now : Int) < 9 + (8 * (s.advance 9).illF 0 Reg.STB_WIDTH 0 20 : Nat)) := by decide +kernel
theorem test_witness_chain_opens :
    (let s := chain fun i => { i with openAt := some (0, 80) }; s.ill[(0 : Fin 4)].openAt = some (0, 80) ∧ ((s.advance 8).now : Int) < 80 ∧ (80 : Int) ≤ ((s.advance 80).now : Nat)
      ∧ bit ((s.advance 80).illR 0 Reg.ILL_CFG) 16 = false ∧ bit ((s.advance 80).illR 0 Reg.ILL_CFG) 17 = false) := by decide +kernel
theorem test_witness_chain_means_and_latches :
    (let s := (chain fun i => { i with openAt := some (0, 80) }).setReg (luxReg 1 Reg.LUX_CFG) 1#32; let a := s.advance 80;
      bit (a.reg (luxReg 1 Reg.LUX_CFG)) 0 = true ∧ fld (a.reg (luxReg 1 Reg.LUX_CFG)) 1 2 = (0 : Fin 4).val ∧ nthD [[], [5, 7]] 1 [] ≠ []
      ∧ (∀ k : Fin 4, s.ill[k].limited.testBit 1 = false))
    ∧ (let s := chain fun i => { i with shift := some ([0x1005#32], 100, 0) }; let a := s.advance 200;
      s.ill[(0 : Fin 4)].shift = some ([0x1005#32], 100, 0) ∧ s.ill[(0 : Fin 4)].again = false ∧ (100 : Int) + (2 * a.chainClk 0 : Nat) ≤ (a.now : Nat)
      ∧ s.ill[(0 : Fin 4)].closedAt + (2 * a.chainClk 0 : Nat) ≤ (a.now : Nat) ∧ fld (nthD [0x5001#32] 0 0#32) 12 4 = 5 ∧ fld (nthD ([] : List Word) 0 0#32) 12 4 ≠ 5) := by decide +kernel
theorem test_witness_chain_tests :
    (let s := chain fun i => { i with testWait := true, closedAt := 0 };
      s.ill[(0 : Fin 4)].testWait = true ∧ s.ill[(0 : Fin 4)].closedAt + 8 ≤ ((s.advance 8).now : Nat)
      ∧ ((s.advance 8).now : Int) < s.ill[(0 : Fin 4)].closedAt + 8 + (8 * (s.advance 8).illF 0 Reg.T_DIAG_MIN 0 16 : Nat))
    ∧ (let s := chain fun i => { i with testAt := some (8, 88) }; s.ill[(0 : Fin 4)].testAt = some (8, 88) ∧ (88 : Int) ≤ ((s.advance 88).now : Nat)) := by decide +kernel

/-- Tag 0, changed. -/
def tagged (f : TagU → TagU) : State := on.modTag 0 f
/-- A SHA-256 signature under the private key 1, whose public key is the base point. -/
def signed (m : List Byte) : List Byte :=
  (bytesOfNatLE 32 (p256Gx % p256N)).reverse ++ (bytesOfNatLE 32 ((natBE (sha256 m) + p256Gx) % p256N)).reverse
/-- The base point as a key. -/
def baseKey : List Byte := (bytesOfNatLE 32 p256Gx).reverse ++ (bytesOfNatLE 32 p256Gy).reverse
/-- The memory of a window's tag with ID 5: issuer slot 0, the base point as its own key, one valid counter record, and its certificate. -/
def tagMem : List Byte :=
  let head : List Byte := [0#8, 0#8, 1#8, 0#8] ++ List.replicate 60 9#8 ++ baseKey
  let rc : List Byte := 3#8 :: List.replicate 27 0#8
  head ++ signed (bytesOfNatLE 8 5 ++ head) ++ rc ++ bytesLE (crc32 rc) ++ List.replicate 32 1#8
/-- The base point is in issuer slot 0. -/
def issued (f : TagU → TagU) : State :=
  (List.range 16).foldl (fun s w => s.setReg (tagReg (Reg.TAG_ISSUER + 4 * w)) (toW (natBE ((baseKey.drop (4 * w)).take 4)))) (tagged f)

theorem test_witness_tag_judged :
    (let s := issued fun x => { x with st := .checking, seen := some 5, job := .judge (some (tagMem, [7#8], signed ([7#8] ++ bytesOfNatLE 8 5 ++ b32 3))) };
      let a := s.advance 0; s.halted = false ∧ s.tags.tag[(0 : Fin 26)].seen = some 5 ∧ s.tags.tag[(0 : Fin 26)].st ≠ .expired
      ∧ a.tagJudge 0 5 (some (tagMem, [7#8], signed ([7#8] ++ bytesOfNatLE 8 5 ++ b32 3))) = 0 ∧ a.tagJudge 0 5 none ≠ 0
      ∧ tagCurrent tagMem = some (0, 3)) := by decide +kernel
theorem test_witness_service_response :
    (let s := { on with svc := { on.svc with challenge := some [7#8] }, fuse := { on.fuse with keys := on.fuse.keys.set 0 (some baseKey), uid := [9#8] } };
      let a := s.advance 0; s.svc.challenge = some [7#8] ∧ a.svcVerify [7#8] (signed ([7#8] ++ a.fuse.uid)) = true ∧ a.svcVerify [7#8] [] = false
      ∧ s.svc.lockout = false) := by
  decide +kernel

theorem test_witness_TagsAreReadAndJudged :
    (let s := on.setReg (tagReg Reg.TAG_EN) 1#32;
      s.halted = false ∧ bit ((s.advance 0).reg (tagReg Reg.TAG_EN)) (0 : Fin 26).val = true ∧ s.tags.tag[(0 : Fin 26)].job = .none
      ∧ s.tags.tag[(0 : Fin 26)].wb = none ∧ s.tags.tag[(0 : Fin 26)].authDue = false)
    ∧ (let d : List Byte := List.replicate 8 7#8; let s := tagged fun x => { x with job := .poll };
      tagResp 8 [tagFrame d] = some d ∧ tagResp 8 [] = none ∧ s.tags.tag[(0 : Fin 26)].st = .absent ∧ s.tags.tag[(0 : Fin 26)].wb = none
      ∧ s.tags.tag[(0 : Fin 26)].pollDue = false ∧ s.tags.tag[(0 : Fin 26)].xferDue = false
      ∧ (let u := s.modTag 0 fun x => { x with st := .ready, seen := some (natLE d), fails := 2 };
        u.tags.tag[(0 : Fin 26)].st ≠ .absent ∧ u.tags.tag[(0 : Fin 26)].seen = some (natLE d) ∧ 2 ≤ u.tags.tag[(0 : Fin 26)].fails))
    ∧ (let d : List Byte := List.replicate 64 7#8;
      tagResp 64 [tagFrame d] = some d ∧ 0 + d.length < 256 ∧ 256 ≤ (List.replicate 192 (0#8 : Byte)).length + d.length ∧ tagResp 64 [[]] = none)
    ∧ (tagged fun x => { x with job := .auth [] }).tags.tag[(0 : Fin 26)].job = .auth []
    ∧ (tagged fun x => { x with job := .sign [] [] }).tags.tag[(0 : Fin 26)].job = .sign [] []
    ∧ (tagged fun x => { x with st := .ready, id := some 5, seen := some 5 }).tags.tag[(0 : Fin 26)].st = .ready
    ∧ (let s := tagged fun x => { x with job := .write ⟨0, 0#32, 1, false⟩ };
      s.tags.tag[(0 : Fin 26)].job = .write ⟨0, 0#32, 1, false⟩ ∧ tagResp 1 [tagFrame [0#8]] = some [0#8] ∧ tagResp 1 [tagFrame [1#8]] ≠ some [0#8]) := by decide +kernel

theorem test_witness_RingsAndVectorsAct :
    (on.halted = false ∧ on.rings[(3 : Ring)].st = .disabled ∧ on.ringTwin 3 = false ∧ (7 : Nat) < 2 ^ 32 ∧ on.ringRole 3 ≠ 7)
    ∧ (let s := { on with ints := { on.ints with wait := 1#256 } };
      orgFunc .host0 = some (vecFunc 0) ∧ orgFunc .host1 ≠ some (vecFunc 0) ∧ s.ints.wait.getLsbD (0 : Fin 256) = true
      ∧ (∀ src < 256, s.ints.pend.getLsbD src = false))
    ∧ (let s := ({ on with ints := { on.ints with wait := 1#256, pend := 1#256 } }).setReg (hostReg Reg.INT_MAP) 0x100#32; ∃ src < 256, s.ints.pend.getLsbD src = true ∧ s.vecOf src = some (0 : Fin 256).val)
    ∧ (let s := (on.modRing 0 fun r => { r with st := .run }).setReg (ringReg 0 Reg.RING_CFG) 0x40#32; let a := s.advance 0;
      (∃ x, regAt (ringReg 0 Reg.RING_DOORBELL) = some x ∧ receivesB a .host0 (ringReg 0 Reg.RING_DOORBELL) 99#32 x = true)
      ∧ a.ringOwner 0 = .host0 ∧ a.rings[(0 : Ring)].st ≠ .disabled ∧ a.ringKind 0 ≠ 1 ∧ a.ringSize 0 < idxDiff (99#32 : Word).toNat a.rings[(0 : Ring)].dev)
    ∧ (let s := on.modRing 0 fun r => { r with st := .run, closing := true }; (s.advance 0).rings[(0 : Ring)].st = .run ∧ (s.advance 0).rings[(0 : Ring)].closing = true)
    ∧ (let s := (on.modRing 0 fun r => { r with st := .run, age := some 5 }).setReg (ringReg 0 Reg.RING_INT_CFG) 0x50001#32; let a := s.advance 0;
      a.rings[(0 : Ring)].age = some 5 ∧ fld (a.reg (ringReg 0 Reg.RING_INT_CFG)) 0 16 ≠ 0 ∧ fld (a.reg (ringReg 0 Reg.RING_INT_CFG)) 16 16 ≤ 5)
    ∧ (on.modRing 0 fun r => { r with age := some 5 }).rings[(0 : Ring)].age = some 5 := by
  refine ⟨by decide +kernel, by decide +kernel, ⟨0, by decide +kernel⟩, ⟨some_of (by decide +kernel), by decide +kernel⟩, by decide +kernel, by decide +kernel,
    by decide +kernel⟩

theorem test_witness_LinkDownStopsRingsAndLasers :
    (let s := { (on.modRing 0 fun r => { r with st := .run }).modLas 3 (fun l => { l with arm := .armed }) with link := ⟨true, 4, 8, true, true⟩ };
      s.halted = false ∧ (s.advance 0).rings[(0 : Ring)].st = .run ∧ (s.advance 0).ringFunc 0 = 0 ∧ (s.advance 0).las[(3 : Ch)].arm ≠ .disarmed
      ∧ (s.advance 0).log.started = true ∧ (s.advance 0).log.batching = false ∧ (s.advance 0).log.held.length < 3000)
    ∧ (let s := (on.modRing 0 fun r => { r with st := .run }).setReg (ringReg 0 Reg.RING_CFG) 0x200#32; (s.advance 0).ringFunc 0 ≠ 0)
    ∧ ((on.modMa 0 fun m => { m with drive := .jog 5 }).advance 0).ma[(0 : Ma)].m.going = true := by decide +kernel

/-- EAST in a state of its own. -/
def east (f : PortU → PortU) : State := on.modPort 0 f

theorem test_witness_LanePortsTrainAndCarry :
    (let s := { east id with ch := on.ch.set 0 { on.ch[(0 : Ch)] with inLayer := true } };
      s.halted = false ∧ (∃ x, regAt (portReg 0 Reg.PORT_CTRL) = some x ∧ receivesB (s.advance 0) .host0 (portReg 0 Reg.PORT_CTRL) 4#32 x = true)
      ∧ (s.advance 0).anyLayer = true ∧ s.lanes.port[otherPort 0].st ≠ .up)
    ∧ (∀ x ∈ [PortSt.train, .align, .link, .up], (east fun p => { p with st := x }).lanes.port[(0 : Fin 2)].st = x)
    ∧ (let s := east fun p => { p with st := .link, probes := 63 }; s.lanes.port[(0 : Fin 2)].probes < 64)
    ∧ (let s := east fun p => { p with st := .up };
      let f : GangFrame := ⟨1, 7, false, [], [], [], []⟩; f.dev.val ≠ s.devNum ∧ ∀ x ∈ s.gm.frames, x.1.dev = f.dev → x.1.stoke ≠ f.stoke)
    ∧ (∀ w ∈ [none, some (1 : Fin 2)],
      let s := (on.modRing 9 fun r => { r with st := .run, host := 1 }).setReg (ringReg 9 Reg.RING_BIND) 0x50B#32;
      let u := { s with lanes := { s.lanes with route := s.lanes.route.set 1 w } }; let a := u.advance 0;
      a.rings[(9 : Ring)].st = .run ∧ a.rings[(9 : Ring)].closing = false ∧ a.ringRole 9 = 0x0B ∧ a.ringInst 9 = 4 + (1 : Fin 4).val
      ∧ a.findRing 0x0B (4 + (1 : Fin 4).val) = some 9 ∧ a.rings[(9 : Ring)].dev ≠ a.rings[(9 : Ring)].host ∧ (1 : Fin 4).val ≠ u.devNum ∧ u.lanes.msgs = []
      ∧ u.lanes.route[(1 : Fin 4)] = w)
    ∧ (0x04#8 : Byte).toNat / 4 % 4 = (1 : Fin 4).val
    ∧ (let s := (on.modRing 9 fun r => { r with st := .run }).setReg (ringReg 9 Reg.RING_BIND) 0x20C#32;
      (s.advance 0).findRing 0x0C (2 : Fin 4).val = some 9 ∧ (s.advance 0).rings[(9 : Ring)].st = .run ∧ (0 : Fin 4).val = s.devNum)
    ∧ (∀ r, (on.advance 0).findRing 0x0C (2 : Fin 4).val = some r → (on.advance 0).rings[r].st ≠ .run) := by
  refine ⟨⟨by decide +kernel, some_of (by decide +kernel), by decide +kernel⟩, by decide +kernel, by decide +kernel, by decide +kernel, by decide +kernel,
    by decide +kernel, by decide +kernel, fun r h => ?_⟩
  rw [show (on.advance 0).findRing 0x0C (2 : Fin 4).val = none from by decide +kernel] at h
  cases h

theorem test_witness_LogSafetyAndServicePortsAct :
    (let e : LogEntry := ⟨0, 0#8, 0, 0, false, 0, 3, 0#32, 0#32, []⟩;
      let s := { (on.modRing 6 fun r => { r with st := .run }).setReg (ringReg 6 Reg.RING_BIND) 6#32 with log := { on.log with held := [e] } }; let a := s.advance 0;
      (∀ w ∈ s.bad, regionOf w ≠ 10) ∧ a.log.held = [e] ∧ a.findRing 6 0 = some 6 ∧ a.rings[(6 : Ring)].st = .run ∧ a.rings[(6 : Ring)].closing = false
      ∧ a.ringFull 6 = false)
    ∧ (on.advance 0).findRing 6 0 = none
    ∧ (up.advance 0).time.running = false ∧ (up.advance 0).log.suppressed = 0
    ∧ ({ up with log := { up.log with suppressed := 5 } }.advance 0).log.suppressed ≠ 0
    ∧ (on.advance 0).tai.1 = (on.advance 0).lanes.headSec ∧ (on.advance 0).lanes.headDue = 0
    ∧ (let s := (({ on with lanes := { on.lanes with headSec := 9, route := on.lanes.route.set 1 (some 0) } }).modMember 1 fun x => { x with heard := true }); let a := s.advance 0;
      a.tai.1 ≠ a.lanes.headSec ∧ a.gm.dev[(1 : Fin 4)].heard = true ∧ (1 : Fin 4).val ≠ a.devNum ∧ a.lanes.route[(1 : Fin 4)] = some 0 ∧ a.lanes.msgs = [])
    ∧ (on.halted = false ∧ on.time.running = true ∧ up.time.running = false ∧ up.safe.holdDue = [] ∧ up.halted = false)
    ∧ ((5#16 : BitVec 16).toNat ≤ fld ((on.advance 0).reg (chReg 0 Reg.LAS_PCAP)) 0 16)
    ∧ (let s := on.setReg (chReg 0 Reg.LAS_PCAP) 4#32; fld ((s.advance 0).reg (chReg 0 Reg.LAS_PCAP)) 0 16 < (5#16 : BitVec 16).toNat)
    ∧ bit ((on.advance 0).reg (accReg Reg.SAFE_CFG)) 16 = false ∧ bit (((on.setReg (accReg Reg.SAFE_CFG) 0x10064#32).advance 0).reg (accReg Reg.SAFE_CFG)) 16 = true
    ∧ on.svc.unlocked = false ∧ { on with svc := { on.svc with unlocked := true } }.svc.unlocked = true ∧ on.svc.lockout = false := by decide +kernel

/-- A stage of the boot. -/
def boots (x : Stage) (f : BootSt → BootSt) : State := { up with boot := f { up.boot with stage := x } }

theorem test_witness_HousekeepingPowerBootAndDamperAct :
    (on.halted = false ∧ ({ on with time := { on.time with cnt := 511 } }.time.cnt % 512 = 511) ∧ on.time.cnt % 512 ≠ 511
      ∧ on.hk.heldBy = [] ∧ on.hk.released = false ∧ (∀ y ∈ (List.replicate 22 ((40 : Int), 0)).take 6, y.2 = 0))
    ∧ ({ on with hk := { on.hk with temps := Vector.replicate 22 ⟨40, true, 0, 0⟩ } }.tjOf = some 40)
    ∧ ((boots .rom id).boot.stage = .rom ∧ (boots .rom id).boot.fail = 0 ∧ (boots .rom id).halted = false)
    ∧ (boots .sram id).boot.stage = .sram ∧ (boots .fetch id).boot.fromHost = false ∧ (boots .fetch id).boot.secondary = false
    ∧ (boots .verify id).boot.stage = .verify ∧ (boots .apply id).boot.stage = .apply ∧ configPairs (boots .apply id).boot.image = []
    ∧ ({ on with fuse := { on.fuse with job := some (1, 2) } }.fuse.job = some (1, 2))
    ∧ (on.damper.pinLow = false ∧ on.damper.cmd = false ∧ on.damper.stopAtBoundary = false)
    ∧ (on.hk.shut = false ∧ { on with hk := { on.hk with temps := Vector.replicate 22 ⟨40, false, 0, 0⟩ } }.dieValid < 3)
    ∧ (let s := { on with hk := { on.hk with shut := true } }; s.hk.shut = true ∧ s.hk.shutLost = false ∧ s.boot.inReset = false)
    ∧ (11 : Fin 12).val = 11 ∧ (3 : Fin 12).val ∉ on.boot.railHold
    ∧ (let s := boots .held fun b => { b with railHold := [3] }; s.boot.railHold = [(3 : Fin 12).val] ∧ s.boot.rstLow = false ∧ s.hk.shut = false)
    ∧ (State.reset.bank.lostNow = false ∧ { on with bank := { on.bank with lostNow := true } }.bank.lostNow = true)
    ∧ (on.boot.rstLow = false ∧ State.reset.boot.rstLow = true ∧ State.reset.boot.railHold = [] ∧ State.reset.hk.shut = false ∧ State.reset.boot.stage = .held)
    ∧ (let s := { on with damper := { on.damper with frozen := true } };
      s.damper.frozen = true ∧ s.damper.pinLow = false ∧ s.damper.cmd = false ∧ s.boot.stage ≠ .held ∧ s.damper.space ≤ 1) := by decide +kernel

theorem test_witness_steps : (∃ s : State, s.pending = [Instr.powerUp, .idcode]) ∧ State.reset.pending = [] ∧ State.reset.canon = true :=
  ⟨⟨{ State.reset with pending := [.powerUp, .idcode] }, rfl⟩, rfl, by decide +kernel⟩

/-! Ill-formed terms, one for each check of WellFormed. -/

theorem test_illformed_boundaries : ∀ x ∈ ([⟨List.replicate 25 ChanIn.none, [], [], []⟩, ⟨[], List.replicate 9 MaIn.none, [], []⟩,
      ⟨[], [], List.replicate 5 ClIn.none, []⟩, ⟨[], [], [], List.replicate 25 []⟩, ⟨[], [], [], [[[4096]]]⟩, ⟨[], [], [⟨[], [], 8, 0, false, 0⟩], []⟩,
      ⟨[], [], [⟨[], [], 0, 8, false, 0⟩], []⟩, ⟨[], [], [⟨[], [], 0, 0, false, 8⟩], []⟩, ⟨[], [], [⟨[], [(0, 6)], 0, 0, false, 0⟩], []⟩, ⟨[⟨[131072], [], [], [], [], []⟩], [], [], []⟩, ⟨[⟨[], [-131073], [], [], [], []⟩], [], [], []⟩,
      ⟨[⟨[], [], [131072], [], [], []⟩], [], [], []⟩, ⟨[⟨[], [], [], [(65536, true)], [], []⟩], [], [], []⟩, ⟨[⟨[], [], [], [], [(65536, true)], []⟩], [], [], []⟩,
      ⟨[⟨[], [], [], [], [], [65536]⟩], [], [], []⟩] : List BoundaryIn), wellFormed (.stokeBoundary x) = false := by decide +kernel
theorem test_illformed_operands : ∀ i ∈ ([.stokeStamp 0 (2 ^ 64) 0 0 0 0 0, .stokeStamp 0 0 (2 ^ 40) 0 0 0 0, .stokeStamp 0 0 0 1000000000 0 0 0, .stokeStamp 0 0 0 0 4 0 0,
      .coefWrite .host0 0 0xA05C 0#32 0, .coefWrite .host0 0 0xA00D 0#32 0, .scrub 2 false false 0, .scrub 0x3000000 false false 0, .frameEnd 0 [[4096]] 0, .frameTimeout 0 [[4096]] 0,
      .mcmdRecord 0 [] 0, .strobeClose 0 [[65536]] 0, .portTrainDone 0 [] 0, .codewordLock 0 [0, 1, 2] (List.replicate 4 true) 0 0, .codewordLock 0 [0, 1, 2, 3] [] 0 0,
      .codewordLock 0 [0, 1, 2, 4] (List.replicate 4 true) 0 0, .gangFrame 0 ⟨0, 2 ^ 64, false, [], [], [], []⟩ 0, .registerWrite .host0 (2 ^ 26) 0xF#4 0#32 0 0,
      .peerHead 0 0 (2 ^ 48) (List.replicate 32 0#8) 0, .peerHead 0 0 0 [] 0, .svcRead (2 ^ 26) 0, .svcWrite (2 ^ 26) 0#32 0 0, .svcResponse [] 0, .hkRoundEnd [] (List.replicate 12 (0, 0, false)) 0,
      .hkRoundEnd (List.replicate 22 (0, 0)) [] 0, .bootSramDone [2] 0, .bootSramDone [0x3000000] 0, .damperRelease (2 ^ 40) 0 0, .damperRelease 0 1000000000 0, .registerRead (2 ^ 26) 0xF#4 0,
      .bar2Access .host0 (2 ^ 26) none 0 0] : List Instr), wellFormed i = false := by decide +kernel
theorem test_illformed_instructions : ∀ i ∈ ([.sel 0 1 2 3 8#5, .b 0 31#5 0#16, .loop 0 0#10 1 1#11, .loop 0 1#10 1 0#11, .pop 0 0 false, .pop 0 12 true, .mfs 0 1 7,
      .mts 0 1 1] : List Instr), wellFormed i = false := by decide +kernel
theorem test_wellformed : ∀ i ∈ ([.stokeBoundary BoundaryIn.none, .sel 0 1 2 3 0x17#5, .loop 0 1#10 1 1024#11, .pop 0 24 true, .mfs 0 1 6, .mts 0 1 0, .scrub 0x2FFFFFC true false 0,
      .coefWrite .host0 0 0xA00C 0#32 0] : List Instr), wellFormed i = true := by decide +kernel

/-! Known values: the CRC-16 of chapter 16 over "123456789", the CRC-32 of the same, and FIPS 180-4's digest of "abc". -/

theorem test_known_checks : crc32 ((List.range 9).map fun n => b8 (49 + n)) = 0xCBF43926#32 ∧ crc16 ((List.range 9).map fun n => b8 (49 + n)) = 0x29B1#16 := by decide +kernel
theorem test_known_digest : natBE (sha256 [0x61#8, 0x62#8, 0x63#8]) = 0xba7816bf8f01cfea414140de5dae2223b00361a396177a9cb410ff61f20015ad := by decide +kernel

/-! More witnesses: the clauses beside the boundary, before RUN and while the stoke runs, and the forms that change nothing. -/

theorem test_witness_words_given_to_the_trap : (∀ c : Ch, decodeWord c (0xFFFFFFFF#32).toNat = none) ∧ decodeWord 0 (0#32).toNat = some (.add 0 0 0 0) := by
  decide +kernel

theorem test_witness_gang_away_and_edge :
    (∀ aw ∈ [false, true], let s := member fun x => { x with st := .holdover, away := aw };
      s.gang.st = .holdover ∧ s.gang.away = aw ∧ s.time.running = true ∧ (s.advance 3999).stokeCyc ≤ (s.advance 3999).now + 1
      ∧ (s.boot.gangTm = false) ∧ s.anyArmed = false)
    ∧ ((member fun x => { x with st := .holdover }).modLas 0 fun l => { l with arm := .armed }).anyArmed = true
    ∧ ((member id).advance 9).rate = (member id).rate ∧ ((member id).advance 9).rate + 1 ≠ (member id).rate
    ∧ ({ member (fun x => { x with st := .locked, sinceStamp := 64 }) with time := up.time }).time.running = false := by decide +kernel

/-- An event of the clock has reached SYNC_TIMEOUT_CNT of channel 0. -/
def noted : State := on.addCnt (chReg 0 Reg.SYNC_TIMEOUT_CNT) 3
theorem test_witness_reads_of_the_same_clock :
    noted.clkNote (chReg 0 Reg.SYNC_TIMEOUT_CNT) = some ⟨chReg 0 Reg.SYNC_TIMEOUT_CNT, 0#32, 3#32⟩ ∧ noted.canon = true
    ∧ ((noted.advance 1).clkNote (chReg 0 Reg.SYNC_TIMEOUT_CNT)) = none ∧ on.clkNote (chReg 0 Reg.SYNC_TIMEOUT_CNT) = none
    ∧ (regAt (chReg 0 Reg.SYNC_TIMEOUT_CNT)).any (fun x => x.rd.acc == .rc) = true := by decide +kernel

/-- The two forms of a write of PROG_CTRL: LOAD alone acts at once, another command waits. -/
theorem test_witness_program_control : (regAt (chReg 0 Reg.PROG_CTRL)).any (fun x => receivesB on .host0 (chReg 0 Reg.PROG_CTRL) 8#32 x
      && !on.actsNow x (recvWrite .host0 (chReg 0 Reg.PROG_CTRL) 8#32 0 x) && decide (x.blk = .ch ∧ x.off = Reg.PROG_CTRL) && !bit 8#32 0) = true
    ∧ on.bar2Writable .host0 0x1980000 = true ∧ ((on.modCam 0 fun c => { c with st := .run }).bar2Writable .host0 0x1980000) = false
    ∧ on.log.held.length < 3840 := by decide +kernel

/-- A barrier that the merged arrival completes, and one that it does not. -/
def barrier (m : Nat) : State :=
  { on with time := { on.time with cnt := 7 },
            sync := on.sync.set 0 { on.sync[(0 : Ch)] with waiting := true, arr := 4, arrMask := m, arrTmo := 3, known := [(0, 0#32, 4, 4)] } }
theorem test_witness_barrier_timeout : (barrier 3).sync[(0 : Ch)].releaseDue 7 = false ∧ (barrier 3).sync[(0 : Ch)].waiting = true ∧ 4 + 3 ≤ (barrier 3).time.cnt
    ∧ ((((barrier 3).advance last).framesMerge 7).sync[(0 : Ch)]).releaseDue 7 = false ∧ (barrier 3).canon = true ∧ (barrier 1).sync[(0 : Ch)].releaseDue 7 = true := by
  decide +kernel

/-- The spare set's owner and kind, and a load that is queued. -/
theorem test_witness_spare_sets_and_loads :
    (let s := { ready on with spare := some ⟨0, [[5#32]], true, []⟩ }; s.spare = some ⟨0, [[5#32]], true, []⟩ ∧ rowOk s (.lutSwap .host0 0 0) = true)
    ∧ (∀ p ∈ [none, some (⟨1, [[5#32]], true, []⟩ : Spare), some ⟨0, [[5#32]], false, []⟩], let s := { ready on with spare := p };
      rowOk s (.lutSwap .host0 0 0) = true ∧ (∀ q, s.spare = some q → q.owner ≠ 0 ∨ q.lutSet = false))
    ∧ (let s := { ready on with loadQ := [(0, 0, 0)] }; s.loadQ.any (·.1 == (0 : Ch)) = true ∧ rowOk s (.progLoad .host0 0 0) = true ∧ s.now < s.stokeCyc)
    ∧ (∀ f ∈ [0, 4], let s := (ready up).modCh 0 fun x => { x with fault := f }; s.ch[(0 : Ch)].fault = f ∧ rowOk s (.faultClear .host0 0 0) = true) := by
  decide +kernel

theorem test_witness_servo_before_run :
    (let s := up.modAx 0 1 fun x => { x with st := .run, fFerr := true, nFerr := 65535 };
      s.halted = false ∧ s.time.running = false ∧ s.sv[(0 : Ch)].ax[(1 : Ax)].st = .run ∧ (s.advance 0).servoCause 0 1 = 1)
    ∧ (up.advance 0).servoCause 0 1 = 0
    ∧ (let s := on.modSv 0 fun x => { x with m := 4, n := 5 }; ¬ s.sv[(0 : Ch)].n ≤ s.sv[(0 : Ch)].m)
    ∧ (∀ d ∈ [false, true], let s := up.modSv 0 fun x => { x with trimDirty := d, m := 0, n := 5 }; s.sv[(0 : Ch)].trimDirty = d ∧ s.canon = true
      ∧ rowOk s (.trimTgtWrite .host0 0 0 7#32 0) = true ∧ rowOk on (.trimTgtWrite .host0 0 0 7#32 0) = true)
    ∧ (∀ n ∈ [0, 3], let s := up.modAx 0 0 fun x => { x with pdN := n }; s.sv[(0 : Ch)].ax[(0 : Ax)].pdN = n ∧ rowOk s (.pdTgtWrite .host0 0 0 false 7#32 0) = true) := by
  decide +kernel

theorem test_witness_grids_before_run :
    (let s := { up with gridQ := [⟨2, true, none⟩] }; s.gridQ = [⟨2, true, none⟩] ∧ s.halted = false ∧ s.time.running = false ∧ s.ch[(2 : Ch)].inLayer = false
      ∧ (List.replicate 33800 0#8).length = 33800 ∧ s.canon = true ∧ (s.modCh 2 fun x => { x with inLayer := true }).ch[(2 : Ch)].inLayer = true)
    ∧ (let s := { up with gridQ := [⟨2, false, some [7#8]⟩] }; s.gridQ = [⟨2, false, some [7#8]⟩] ∧ s.ch[(2 : Ch)].inLayer = false ∧ s.time.running = false
      ∧ (s.advance 0).canon = true)
    ∧ (let s := { ready up with gridQ := [⟨0, true, some [7#8]⟩] }; s.gridQ = [⟨0, true, some [7#8]⟩] ∧ rowOk s (.gridAbort .host0 0 0) = true
      ∧ rowOk s (.gridLoadXy .host0 0 0) = true ∧ s.gridQ ≠ [] ∧ s.gridQ.any (·.ch == (0 : Ch)) = true) := by decide +kernel

theorem test_witness_laser_forms :
    (let s := up; fld ((s.advance 0).creg 0 Reg.LAS_CFG) 8 8 ≤ 255 ∧ s.time.running = false ∧ s.las[(0 : Ch)].tripDue = 0 ∧ s.lsafe.tripDue = false
      ∧ (s.las[(0 : Ch)].arm ≠ .armed ∧ s.las[(0 : Ch)].ready = false) ∧ s.las[(0 : Ch)].arm = .disarmed)
    ∧ (let s := up.modLas 0 fun l => { l with arm := .armed, ready := true, tripDue := 2 };
      s.las[(0 : Ch)].arm = .armed ∧ s.las[(0 : Ch)].ready = true ∧ s.time.running = false ∧ s.las[(0 : Ch)].tripDue ≠ 0)
    ∧ (let s := on.setReg (chReg 0 Reg.LAS_CFG) 0x500#32; ¬ fld ((s.advance 0).creg 0 Reg.LAS_CFG) 8 8 ≤ 4 ∧ fld ((s.advance 0).creg 0 Reg.LAS_CFG) 8 8 ≤ 5)
    ∧ (let s := up.modLas 0 fun l => { l with arm := .arming, armWait := 65535 }; s.time.running = false ∧ fld ((s.advance 0).creg 0 Reg.LAS_CFG) 16 16 ≤ 65535)
    ∧ (up.halted = false ∧ up.lsafe.aLow = false ∧ State.reset.halted = true ∧ State.reset.lsafe.aLow = false
      ∧ ({ State.reset with lsafe := { State.reset.lsafe with aLow := true } }).lsafe.aLow = true)
    ∧ (∀ r ∈ [up, on], (r.modLas 0 fun l => { l with arm := .armed }).las[(0 : Ch)].arm ≠ .disarmed) := by decide +kernel

theorem test_witness_loop_forms :
    (let s := up.modLoop 0 fun l => { l with fbValid := true }; s.time.running = false ∧ s.loop[(0 : Ch)].fbValid = true ∧ s.loop[(0 : Ch)].queue = []
      ∧ s.coefOk 0 0xA00C 0x3F800000#32 = true ∧ fld 0x103#32 0 8 = 3 ∧ (fld 0x100#32 0 8 = 0 ∧ bit 0x100#32 8 = true) ∧ 4 ≤ fld 0x104#32 0 8
      ∧ rowOk s (.loopMode .host0 0 1 false 0) = true)
    ∧ (let s := (up.modLoop 0 fun l => { l with fbValid := true, camAge := 0 }); s.camOf 0 ≠ none
      ∧ s.loop[(0 : Ch)].camAge ≤ s.creg16 0 Reg.CAM_AGE_MAX)
    ∧ up.loop[(0 : Ch)].fbValid = false ∧ up.loop[(0 : Ch)].mode ≠ .track ∧ up.loop[(0 : Ch)].mode ≠ .shape ∧ (up.setReg (camReg 0 Reg.CAM_BIND) 0#32).camOf 0 = none
    ∧ (∀ st ∈ [TraceState.idle, .filling, .ready, .post], let s := (ready on).modTrace 0 fun u => { u with st := st };
      s.trace[(0 : Ch)].st = st ∧ rowOk s (.traceArm .host0 0 0) = true ∧ rowOk (s.setReg (chReg 0 Reg.TRACE_TRIG_CFG) 1#32) (.traceTrig .host0 0 0) = true
      ∧ bit ((s.setReg (chReg 0 Reg.TRACE_TRIG_CFG) 1#32).creg 0 Reg.TRACE_TRIG_CFG) 0 = true) := by decide +kernel

theorem test_witness_guard_and_scrub :
    (on.halted = false ∧ (on.advance last).stokeCyc ≤ (on.advance last).now + 1)
    ∧ (let s := on.put 0 [7#8]; s.isBad 0 = false ∧ ageOf (stampUnit s.time.cnt) (fld (s.word 0) 16 16) < 32768 ∧ s.canon = true)
    ∧ (let s := { on with bad := [0] }; s.isBad 0 = true ∧ 0 < 0x1000000 ∧ s.canon = true)
    ∧ (∀ r ∈ [up, on], (r.setReg (emReg Reg.EM_CFG) 1#32).emOn = true ∧ rowOk (r.setReg (emReg Reg.EM_CFG) 1#32) (.emCfgWrite .host0 0#32 0) = true)
    ∧ (let s := { on with em := { on.em with due := [⟨7, 0, 0x3F800000#32, 0, 2047⟩] }, time := { on.time with cnt := 9 } }; (s.advance last).emOn = false)
    ∧ (let s := { up with gm := { up.gm with dev := up.gm.dev.set 2 { up.gm.dev[(2 : Fin 4)] with missing := [0] } }, time := { up.time with cnt := 64 } };
      s.time.running = false ∧ 0 + 64 ≤ s.time.cnt) := by decide +kernel

/-- Pipeline 0 in the middle member of a set. -/
def camSet : CamSet := ⟨3, 4, 2, [100, 100, 100], 50, 0, false, 0, 0#32, 0#32⟩
theorem test_witness_camera_members :
    (let s := camRun.modCam 0 fun c => { c with exp := some (camSet, 0, true, 110) }; let a := s.advance 110;
      s.cam[(0 : Cam)].exp = some (camSet, 0, true, 110) ∧ (110 : Int) ≤ (a.now : Nat) ∧ free a 0 = true ∧ 0 + 1 < camSet.members ∧ (a.now : Int) < 110 + (camSet.gap : Nat))
    ∧ (let s := on.modCam 0 fun c => { c with st := .stopped }; s.cam[(0 : Cam)].st = .stopped ∧ quiet (s.advance 0) 0 = true)
    ∧ (let s := (camIdle.modCam 0 fun c => { c with pending := List.replicate 8 ⟨0, 0, 0, 4000⟩ }); 8 ≤ s.cam[(0 : Cam)].pending.length ∧ quiet (s.advance 9) 0 = true)
    ∧ (let s := (camIdle.modCam 0 fun c => { c with exp := some (camSet, 0, true, 110) }); s.cam[(0 : Cam)].exp.isSome = true ∧ quiet (s.advance 9) 0 = true) := by decide +kernel

/-- A frame of a set of one or two members is coming in. -/
def framing (n : Nat) (run : Bool) (f : Camera → Camera) : State :=
  let s : State := (if run then on else up);
  ({ s with time := { s.time with cnt := 70000 } }).modCam 0 fun c => f { c with
    st := .run, fv := true, opens := [⟨{ camSet with members := n }, [], false, none, true⟩],
    cur := some ⟨some (3, 1), 0, 0, 0, 0#32, 0#32, 0#32, none, false⟩ }
theorem test_witness_camera_frames_end :
    (∀ n ∈ [2, 3], let s := framing n true id;
      s.cam[(0 : Cam)].opens.map (·.set.members) = [n] ∧ quiet (s.advance 9) 0 = true ∧ (s.advance 9).lineScan 0 = false
      ∧ (s.cam[(0 : Cam)].cur.any fun f => !f.dead && f.tag == some (3, 1)) = true)
    ∧ (∀ n ∈ [2, 3], ∀ r ∈ [false, true], let s := framing n r id; let a := s.advance last;
      (s.cam[(0 : Cam)].cur.any fun f => decide (f.start + a.mregF 0 Reg.CAM_FRAME_TMO 0 16 ≤ s.time.cnt)) = true ∧ (s.time.running = true → a.stokeCyc ≤ a.now + 1)) := by
  decide +kernel

theorem test_witness_camera_stops :
    (let s := up.modCam 0 fun c => { c with st := .stopping };
      s.time.running = false ∧ s.cam[(0 : Cam)].st = .stopping ∧ s.cam[(0 : Cam)].pending = [] ∧ s.cam[(0 : Cam)].opens = [] ∧ s.cam[(0 : Cam)].exp = none
      ∧ s.cam[(0 : Cam)].fv = false ∧ s.cam[(0 : Cam)].cur = none ∧ s.cam[(0 : Cam)].strip = none ∧ quiet (s.advance 0) 0 = true)
    ∧ on.time.running = true
    ∧ (let s := ({ on with lanes := { on.lanes with stage := [(3, [5#8])] } }.setReg (ringReg 48 Reg.RING_BIND) 0x030C#32).modRing 48 fun r => { r with st := .run, host := 1 };
      s.lanes.stage = [(3, [5#8])] ∧ (s.advance 0).ringRole 48 = 0xC ∧ (s.advance 0).ringInst 48 = 3 ∧ s.rings[(48 : Ring)].st = .run
      ∧ s.rings[(48 : Ring)].closing = false ∧ 0 < idxDiff s.rings[(48 : Ring)].host s.rings[(48 : Ring)].dev)
    ∧ (∀ st ∈ [TraceState.idle, .filling, .ready, .post], let s := { ready on with camTr := (ready on).camTr.set 0 { (ready on).camTr[(0 : Cam)] with st := st } };
      s.camTr[(0 : Cam)].st = st ∧ s.hk.level = 0 ∧ rowOk s (.camTrcArm .host0 0 0) = true ∧ rowOk s (.camTrcTrig .host0 0 0) = true) := by decide +kernel

/-- Estimator 5 of pipeline 0, enabled, before RUN. -/
def estUp (f : Est → Est) : State := (up.modEst 5 0 f).setReg (estBase 5 0) 0x801#32
theorem test_witness_estimators_before_run :
    (let s := estUp fun e => { e with st := .idle, wait := 0xFFFFFFFF };
      s.halted = false ∧ s.time.running = false ∧ (s.advance 0).canon = true ∧ bit ((s.advance 0).reg (estBase 5 0)) 0 = true ∧ (s.est 5 0).abort = false
      ∧ (s.est 5 0).st = .idle ∧ (s.est 5 0).par = [] ∧ bit ((s.advance 0).reg (estBase 5 0 + 0)) 1 = false
      ∧ ((s.advance 0).reg (estBase 5 0 + 0x10)).toNat ≤ (s.est 5 0).wait + 1)
    ∧ (let s := estUp fun e => { e with st := .idle, wait := 5, par := 0x801#32 :: List.replicate 27 2#32 };
      (s.est 5 0).par ≠ [] ∧ bit ((s.est 5 0).p 0) 1 = false ∧ ((s.est 5 0).p 0x10).toNat ≤ (s.est 5 0).wait + 1)
    ∧ (let s := estUp fun e => { e with st := .collect, par := List.replicate 28 2#32, xs := List.replicate 2 [Q.ofInt 5] };
      (s.est 5 0).st = .collect ∧ (s.est 5 0).retarget = [] ∧ estReady (s.est 5 0) 5 = true)
    ∧ (let s := estUp fun e => { e with st := .evaluate, par := List.replicate 28 0x7FFFFF#32, old := [0#32], xs := List.replicate 2 [Q.ofInt 5] };
      (s.est 5 0).st = .evaluate ∧ estCause (s.est 5 0) 5 false (estResult (s.est 5 0) 5) = 0 ∧ (s.est 5 0).retarget = [] ∧ s.bad = [])
    ∧ (let s := estUp fun e => { e with st := .ramp, m := 4, n := 4 }; (s.est 5 0).st = .ramp ∧ s.estRampDone 5 0 = true ∧ rowOk s (.estStart .host0 5 0 0) = true)
    ∧ (let s := { up with time := { up.time with cnt := 2 } }.modCal 0 fun x => { x with pend := [⟨0, 0, 0, ⟨0, 1⟩, ⟨0, 1⟩, ⟨0, 1⟩, 3⟩] };
      s.time.cnt ≠ 0 ∧ (s.est 4 0).st ≠ .collect) := by decide +kernel
theorem test_witness_crossings_in_collect :
    let s := ({ on with time := { on.time with cnt := 2 } }.modCal 0 fun x => { x with pend := [⟨0, 0, 0, ⟨0, 1⟩, ⟨0, 1⟩, ⟨0, 1⟩, 3⟩] }).modEst 4 0 fun e => { e with st := .collect };
    s.time.cnt = 1 + 1 ∧ s.cal[(0 : Ch)].pend.map (·.mid) = [3] ∧ (s.est 4 0).st = .collect
      ∧ (3 + fld ((s.est 4 0).p 0x40) 8 7) * 250 < s.time.cnt * (s.advance 0).stokeCyc ∧ s.halted = false ∧ (s.advance 0).canon = true := by decide +kernel

/-- Pair 0 of cluster 0 before RUN. -/
def pairedUp (f : Pair → Pair) (st : ResState) : State := up.modCl 0 fun k => { k.modPair 0 f with st := st }
theorem test_witness_failovers_before_run :
    (∀ z ∈ [ResState.standby, .prep], ∀ fr ∈ [false, true], let s := up.modCl 0 fun k => { k with due := [(0, 3, fr)], st := z, fresh := fr };
      s.halted = false ∧ s.time.running = false ∧ s.cl[(0 : Cl)].resDue = .nothing ∧ s.cl[(0 : Cl)].ueDue = false ∧ s.cl[(0 : Cl)].due = [(0, 3, fr)]
      ∧ s.cl[(0 : Cl)].st = z ∧ s.cl[(0 : Cl)].uncov[(0 : Fin 6)] = false ∧ s.cl[(0 : Cl)].fresh = fr)
    ∧ (let s := up.modCl 0 fun k => { k with due := [(0, 3, false), (5, 1, false)] }; s.cl[(0 : Cl)].due = [(0, 3, false), (5, 1, false)] ∧ s.cl[(0 : Cl)].st = .standby
      ∧ s.cl[(0 : Cl)].uncov[(0 : Fin 6)] = false)
    ∧ (let s := up.modCl 0 fun k => { k with due := [(0, 3, false)], uncov := k.uncov.set 0 true }; s.cl[(0 : Cl)].uncov[(0 : Fin 6)] = true)
    ∧ (let s := up.modCl 0 fun k => { k with due := [(0, 3, false)], st := .cover }; s.cl[(0 : Cl)].st ≠ .standby ∧ s.cl[(0 : Cl)].st ≠ .prep) := by decide +kernel
theorem test_witness_self_tests_end :
    (∀ s ∈ [paired (fun p => { p with st := .bist, bistLeft := 1 }) .cover, paired (fun p => { p with st := .out, bistLeft := 1 }) .swap],
      s.time.running = true ∧ s.cl[clusterOf 0].pairs[inCluster 0].bistLeft ≤ 1
      ∧ (s.cl[clusterOf 0].pairs[inCluster 0].st = .bist ∨ s.cl[clusterOf 0].pairs[inCluster 0].st = .out ∧ s.cl[clusterOf 0].pairs[inCluster 0].bistPassed = false))
    ∧ (∀ n ∈ [0, 2], ∀ z ∈ [PairState.bist, .out], let s := pairedUp (fun p => { p with st := z, attempts := n }) .cover;
      s.time.running = false ∧ s.cl[clusterOf 0].pairs[inCluster 0].bistLeft = 0 ∧ s.cl[clusterOf 0].pairs[inCluster 0].st = z ∧ s.cl[clusterOf 0].pairs[inCluster 0].attempts = n)
    ∧ (let s := pairedUp (fun p => { p with st := .bist }) .standby; s.clHolds 0 = false)
    ∧ (∀ r ∈ [false, true], let s := paired (fun p => { p with st := .bist, bistRes := some r }) .cover;
      s.cl[clusterOf 0].pairs[inCluster 0].bistRes = some r ∧ s.cl[clusterOf 0].pairs[inCluster 0].bistLeft = 0) := by decide +kernel
theorem test_witness_returns_and_aborts :
    (let m : ImgMeta := ⟨[], 0, 0x10, 0x20, 0, 0, 0, 0, 0, 0, 100, 100, 0, false, false, []⟩
      ∀ w ∈ [m, { m with layoutId := 7 }], let s := (pairedUp (fun p => { p with st := .out, returnReq := true, bistPassed := true }) .swap).modCh 0 fun x => { x with active := some m, inactive := some w, waiting := true };
      s.pendingImg 0 = some w ∧ s.gateQuiet 0 = true ∧ s.ch[(0 : Ch)].inLayer = false ∧ s.time.running = false)
    ∧ (∀ z ∈ [ResState.prep, .swap, .standby], ∀ q ∈ [PairState.out, .active], let s := (ready on).modCl 0 fun k => { k.modPair 0 (fun p => { p with st := q }) with st := z };
      s.cl[(0 : Cl)].st = z ∧ s.cl[(0 : Cl)].pairs[(0 : Fin 6)].st = q ∧ receivedB s (.clSwapAbort .host0 0 0) = true ∧ receivedB s (.clSwapReturn .host0 0 0) = true) := by
  decide +kernel

/-- Axis 0 before RUN, changed. -/
def axisUp (f : MaU → MaU) : State := up.modMa 0 f
theorem test_witness_stops_before_run :
    (∀ x ∈ [After.idle, .fault, .home, .move 5], let s := axisUp fun m => { m with drive := .stop x, st := .stopping };
      s.halted = false ∧ s.time.running = false ∧ s.ma[(0 : Ma)].m.drive = .stop x ∧ s.ma[(0 : Ma)].m.vq < s.ma[(0 : Ma)].m.dec + 65536 ∧ s.ma[(0 : Ma)].m.home = .none
      ∧ s.ma[(0 : Ma)].m.blocked (decide (s.ma[(0 : Ma)].m.acc ≤ 5)) = false)
    ∧ (let s := axisUp fun m => { m with drive := .stop (.move 5), lims := m.lims.set 0 ⟨true, true, true, 0⟩ };
      s.ma[(0 : Ma)].m.blocked (decide (s.ma[(0 : Ma)].m.acc ≤ 5)) = true)
    ∧ (axisUp id).ma[(0 : Ma)].m.drive = .rest ∧ (axisUp id).ma[(0 : Ma)].m.landing = false
    ∧ (let s := axisUp fun m => { m with drive := .stop .idle, vq := 65536 }; s.ma[(0 : Ma)].m.dec + 65536 ≤ s.ma[(0 : Ma)].m.vq)
    ∧ on.time.running = true ∧ (((on.setReg (maReg 0 Reg.MA_CFG) 1#32).advance 0).maBridge 0 = false) := by decide +kernel

/-- Axis 0 homes, its limit inputs filtered for 7 us, positive homing direction or not. -/
def homing (lims : Nat) (h : HomePh) (f : MaU → MaU) : State :=
  (on.modMa 0 fun m => f { m with st := .homing, drive := .jog 5, vq := 5, home := h }).setReg (maReg 0 Reg.LIM_CFG) (BitVec.ofNat 32 (0x00070000 + lims))
theorem test_witness_limits_while_homing :
    (let s := homing 0 .search id; let a := s.advance 0; a.maF 0 Reg.LIM_CFG 16 10 ≤ 7 ∧ (s.ma[(0 : Ma)].m.lims[a.homeSrc 0]).filt ≠ true ∧ s.ma[(0 : Ma)].m.home = .search)
    ∧ (let s := homing 0 .approach id; s.ma[(0 : Ma)].m.home = .approach ∧ s.ma[(0 : Ma)].m.found = false)
    ∧ (∀ act ∈ [0, 5], let s := homing act .search id; let a := s.advance 0;
      ∃ k : Fin 3, k ≠ a.homeSrc 0 ∧ k ≠ 2 ∧ (s.ma[(0 : Ma)].m.lims[k]).latch = false ∧ s.ma[(0 : Ma)].m.reversed = false ∧ s.ma[(0 : Ma)].m.found = false)
    ∧ (∀ h ∈ [HomePh.search, .backoff, .approach], let s := homing 0 h fun m => { m with reversed := true };
      s.ma[(0 : Ma)].m.home ≠ .set ∧ s.ma[(0 : Ma)].m.reversed = true ∧ s.ma[(0 : Ma)].m.st ≠ .disabled ∧ 5 ∉ s.ma[(0 : Ma)].m.due) := by decide +kernel

theorem test_witness_limits_in_travel :
    (∀ act ∈ [0, 1, 2, 3], let s := (on.modMa 0 fun m => { m with st := .moving, drive := .jog 5, vq := 5, pos := true }).setReg (maReg 0 Reg.LIM_CFG) (BitVec.ofNat 32 (0x00070000 + act));
      (s.advance 0).maF 0 Reg.LIM_CFG 0 2 = act ∧ s.ma[(0 : Ma)].m.home = .none ∧ s.ma[(0 : Ma)].m.travels true = true ∧ s.ma[(0 : Ma)].m.travels false = false
      ∧ (s.ma[(0 : Ma)].m.lims[(0 : Fin 3)]).latch = false)
    ∧ (let s := (axisUp fun m => { m with st := .moving, drive := .jog 5, vq := 5, pos := true }).setReg (maReg 0 Reg.LIM_CFG) 0x00070001#32;
      s.time.running = false ∧ (s.advance 0).maF 0 Reg.LIM_CFG 0 2 = 1 ∧ s.ma[(0 : Ma)].m.travels true = true)
    ∧ (∀ g ∈ [1, 2, 3], let s := (on.modMa 0 fun m => { m with st := .moving, drive := .jog 5, stall := 65535 }).setReg (maReg 0 Reg.STOP_CFG) (BitVec.ofNat 32 (g * 0x110));
      fld ((s.advance 0).maR 0 Reg.STOP_CFG) 4 2 = g ∧ fld ((s.advance 0).maR 0 Reg.STOP_CFG) 8 2 = g ∧ s.ma[(0 : Ma)].m.going = true) := by decide +kernel

theorem test_witness_motion_records_at :
    (let s := mcmdRing; let a := s.advance 9;
      let bs : List Byte := [1#8, 0x21#8] ++ List.replicate 30 0#8; s.time.running = true ∧ recW bs 0x18 = a.stoke32 ∧ (natLE ((bs.drop 1).take 1)).testBit 5 = true)
    ∧ (let s := { mcmdRing with time := up.time }; let a := s.advance 9;
      let bs : List Byte := [1#8, 0x21#8] ++ List.replicate 30 0#8; s.time.running = false ∧ recW bs 0x18 = a.stoke32 ∧ a.findRing 4 (0 : Ma).val = some 5)
    ∧ (∃ y, regAt (maReg 0 Reg.MA_CTRL) = some y ∧ receivesB (mcmdRing.advance 9) .host0 (maReg 0 Reg.MA_CTRL) 16#32 y = true) := by
  refine ⟨by decide +kernel, by decide +kernel, some_of (by decide +kernel)⟩

theorem test_witness_no_frames :
    (let s := (up.setReg (maReg 0 Reg.ENC_CFG) 1#32); s.time.running = false ∧ s.halted = false)
    ∧ (on.advance 0).encSrc 0 ≠ 1 ∧ (on.advance 0).encSrc 0 ≠ 2
    ∧ (on.modEnc 0 fun e => { e with read := some ⟨0, 0#32, 0, 0, 0, 0⟩ }).ma[(0 : Ma)].e.read.isSome = true
    ∧ (∀ tr ∈ [false, true], let s := ((on.modEnc 0 fun e => { e with tried := tr }).setReg (maReg 0 Reg.ENC_CFG) 1#32).setReg (maReg 0 Reg.ENC_JUMP_MAX) 3#32;
      (s.advance 9).encSrc 0 = 1 ∧ s.ma[(0 : Ma)].e.read = none ∧ s.ma[(0 : Ma)].e.tried = tr ∧ ((s.advance 9).maR 0 Reg.ENC_JUMP_MAX).toNat ≠ 0)
    ∧ (let s := ((on.setReg (maReg 0 Reg.ENC_CFG) 1#32).setReg (maReg 0 Reg.ENC_FRAME) 0x00020800#32).setReg (maReg 0 Reg.ENC_CHK) 0x0300#32; let a := s.advance 9;
      1 &&& fld (a.maR 0 Reg.ENC_CHK) 8 8 ≠ 0 ∧ 0 &&& fld (a.maR 0 Reg.ENC_CHK) 8 8 = 0) := by decide +kernel

theorem test_witness_index_modes :
    (fld ((on.advance 0).maR 0 Reg.IDX_CFG) 0 2 = 0)
    ∧ (let s := (on.setReg (maReg 0 Reg.ENC_CFG) 3#32).setReg (maReg 0 Reg.IDX_CFG) 5#32; let a := s.advance 0;
      fld (a.maR 0 Reg.IDX_CFG) 0 2 ≠ 0 ∧ bit (a.maR 0 Reg.IDX_CFG) 2 = true ∧ ¬(s.ma[(0 : Ma)].e.pa = true ∧ s.ma[(0 : Ma)].e.pb = true))
    ∧ (let s := ((on.modEnc 0 fun e => { e with pa := true, pb := true }).setReg (maReg 0 Reg.ENC_CFG) 3#32).setReg (maReg 0 Reg.IDX_CFG) 5#32; let a := s.advance 0;
      bit (a.maR 0 Reg.IDX_CFG) 2 = true ∧ s.ma[(0 : Ma)].e.pa = true ∧ s.ma[(0 : Ma)].e.pb = true ∧ a.encSrc 0 = 3)
    ∧ (let s := on.setReg (maReg 0 Reg.IDX_CFG) 1#32; (s.advance 0).encSrc 0 ≠ 3 ∧ fld ((s.advance 0).maR 0 Reg.IDX_CFG) 0 2 ≠ 0)
    ∧ (∀ r ∈ [false, true], let s := ((on.modEnc 0 fun e => { e with idxArmed := r }).setReg (maReg 0 Reg.ENC_CFG) 3#32).setReg (maReg 0 Reg.IDX_CFG) 2#32; let a := s.advance 0;
      fld (a.maR 0 Reg.IDX_CFG) 0 2 = 2 ∧ a.encSrc 0 = 3 ∧ s.ma[(0 : Ma)].e.idxArmed = r) := by decide +kernel

theorem test_witness_compare_and_passthrough_forms :
    (let s := up.setReg (maReg 0 Reg.CMP_CFG) 2#32; s.maF 0 Reg.CMP_CFG 0 2 = 2 ∧ s.maR 0 Reg.CMP_COUNT = 0#32 ∧ s.ma[(0 : Ma)].c.disDue = false ∧ s.time.running = false)
    ∧ ((up.setReg (maReg 0 Reg.CMP_CFG) 1#32).maF 0 Reg.CMP_CFG 0 2 = 1 ∧ up.maF 0 Reg.CMP_CFG 0 2 = 0)
    ∧ (on.ma[(0 : Ma)].c.armed = false)
    ∧ (let s := on.modCmp 0 fun c => { c with until_ := 5 }; ((s.advance 8).now / 8 : Nat) < s.ma[(0 : Ma)].c.until_)
    ∧ (let s := ((on.modCmp 0 fun c => { c with armed := true, v := 7, p := -1, clk := 1 }).setReg (maReg 0 Reg.CMP_CFG) 9#32);
      ¬(s.ma[(0 : Ma)].c.p < s.ma[(0 : Ma)].c.v ∧ s.ma[(0 : Ma)].c.v ≤ microOf (s.ma[(0 : Ma)].m.accAt (s.ma[(0 : Ma)].c.clk + 1))))
    ∧ (let s := on.setReg (maReg 0 Reg.FWD_CFG) 1#32; (s.advance 0).maF 0 Reg.FWD_CFG 0 2 = 1 ∧ s.ma[(0 : Ma)].f.bits = none ∧ s.ma[(0 : Ma)].e.rawOk = false)
    ∧ (on.advance 0).maF 0 Reg.FWD_CFG 0 2 ≠ 1
    ∧ (let s := on.modFwd 0 fun f => { f with bits := some [], highAt := some 0 }; s.ma[(0 : Ma)].f.bits ≠ some [true]
      ∧ ∀ h : Int, s.ma[(0 : Ma)].f.highAt = some h → ((s.advance 0).now : Nat) < h + (800 * (s.advance 0).maF 0 Reg.FWD_CFG 8 8 : Nat)) := by
  refine ⟨by decide +kernel, by decide +kernel, by decide +kernel, by decide +kernel, by decide +kernel, by decide +kernel, by decide +kernel, by decide +kernel, ?_⟩
  intro h hh; cases hh; decide +kernel

/-- A drop of a strobe whose test pulse is open, and the forms beside it. -/
theorem test_witness_strobes_asked :
    (let s := (chain fun i => { i with testAt := some (8, 888) }).setReg (illReg Reg.STB_DELAY) 3#32; let a := s.advance 80;
      a.illCams 0 = [] ∧ a.nDrv 0 ≠ 0 ∧ a.illDead = false ∧ s.ill[(0 : Fin 4)].pendAt = none ∧ s.ill[(0 : Fin 4)].openAt = none
      ∧ s.ill[(0 : Fin 4)].testAt = some (8, 888) ∧ (a.now : Int) < 888 ∧ (0 : Int) < (8 * a.illF 0 Reg.STB_DELAY 0 16 : Nat))
    ∧ (let s := on; let a := s.advance 0; a.nDrv 0 = 0 ∧ s.ill[(0 : Fin 4)].pendAt = none ∧ s.ill[(0 : Fin 4)].openAt = none ∧ s.ill[(0 : Fin 4)].testAt = none
      ∧ s.ill[(0 : Fin 4)].testWait = false)
    ∧ (∀ r ∈ [chain id, { chain id with time := up.time }], rowOk r (.illUpdate .host0 0 0) = true ∧ r.ill[(0 : Fin 4)].shift = none)
    ∧ (chain fun i => { i with shift := some ([0#32], 100, 0) }).ill[(0 : Fin 4)].shift ≠ none := by decide +kernel
theorem test_witness_strobes_close :
    (∀ g ∈ [0x102, 0x10102, 0x20102], let s := (chain fun i => { i with openAt := some (0, 80) }).setReg (illReg Reg.ILL_CFG) (BitVec.ofNat 32 g); let a := s.advance 80;
      a.nDrv 0 ≠ 0 ∧ a.illCams 0 = [] ∧ (80 : Int) ≤ (a.now : Nat) ∧ (bit (a.illR 0 Reg.ILL_CFG) 17 = false ∨ (a.now : Int) < 80 + 8) ∧ s.ill[(0 : Fin 4)].shift = none)
    ∧ (let s := (chain fun i => { i with openAt := some (0, 80), limited := 2 }).setReg (luxReg 1 Reg.LUX_CFG) 1#32; (∃ k : Fin 4, s.ill[k].limited.testBit 1 = true))
    ∧ (∀ g ∈ [false, true], let s := chain fun i => { i with shift := some ([0x1005#32], 100, 0), again := g }; let a := s.advance 200;
      s.ill[(0 : Fin 4)].again = g ∧ (100 : Int) + (2 * a.chainClk 0 : Nat) ≤ (a.now : Nat) ∧ s.ill[(0 : Fin 4)].testWait = false
      ∧ ((s.advance 99).now : Int) < 100 + (2 * a.chainClk 0 : Nat)) := by decide +kernel

theorem test_witness_tag_transfers :
    (let s := (tagged fun x => { x with job := .xfer 0 }).setReg (tagReg Reg.XFER_CTRL) 0x80000200#32; let a := s.advance 0;
      s.halted = false ∧ s.tags.tag[(0 : Fin 26)].job = .xfer 0 ∧ bit (a.reg (tagReg Reg.XFER_CTRL)) 30 = false ∧ fld (a.reg (tagReg Reg.XFER_CTRL)) 8 8 = 2
      ∧ tagResp 2 [tagFrame [1#8, 2#8]] = some [1#8, 2#8] ∧ tagResp 2 [] = none ∧ s.tags.tag[(0 : Fin 26)].wb = none ∧ s.tags.tag[(0 : Fin 26)].pollDue = false
      ∧ s.tags.tag[(0 : Fin 26)].authDue = false ∧ s.tags.tag[(0 : Fin 26)].xferDue = false)
    ∧ (∀ l ∈ [2, 33], let s := (tagged fun x => { x with job := .xfer 0 }).setReg (tagReg Reg.XFER_CTRL) (BitVec.ofNat 32 (0xC0000000 + 256 * l)); let a := s.advance 0;
      bit (a.reg (tagReg Reg.XFER_CTRL)) 30 = true ∧ fld (a.reg (tagReg Reg.XFER_CTRL)) 8 8 = l ∧ tagResp 1 [tagFrame [0#8]] = some [0#8] ∧ tagResp 1 [] ≠ some [0#8])
    ∧ on.tags.tag[(0 : Fin 26)].job = .none ∧ on.tags.tag[(0 : Fin 26)].st ≠ .ready ∧ on.tags.tag[(0 : Fin 26)].st ≠ .expired
    ∧ (∀ z ∈ [TagSt.ready, .expired], (tagged fun x => { x with st := z, id := some 5, seen := some 5 }).tags.tag[(0 : Fin 26)].st = z)
    ∧ (let s := issued fun x => { x with st := .expired, cause := 8, seen := some 5, job := .judge none }; s.tags.tag[(0 : Fin 26)].st = .expired
      ∧ (s.advance 0).tagJudge 0 5 none ≠ 0) := by decide +kernel
theorem test_witness_banked_counts : { on with time := { on.time with cnt := 65535 } }.time.running = true ∧ (65535 + 1) % 65536 = 0
    ∧ ({ on with time := { on.time with cnt := 65535 } }.advance last).stokeCyc ≤ ({ on with time := { on.time with cnt := 65535 } }.advance last).now + 1 := by decide +kernel

theorem test_witness_ring_and_link_forms :
    ((up.modMa 0 fun m => { m with drive := .jog 5, st := .moving }).time.running = false ∧ (up.modMa 0 fun m => { m with drive := .jog 5, st := .moving }).ma[(0 : Ma)].m.going = true
      ∧ up.halted = false ∧ up.ma[(0 : Ma)].m.going = false)
    ∧ (on.advance 0).rings[(0 : Ring)].age = none ∧ ¬((on.advance 0).rings[(0 : Ring)].st = .run ∧ (on.advance 0).rings[(0 : Ring)].closing = true)
    ∧ (let s := (on.modRing 0 fun r => { r with st := .run, age := some 5 }).setReg (ringReg 0 Reg.RING_INT_CFG) 0x60001#32; let a := s.advance 0;
      a.rings[(0 : Ring)].age = some 5 ∧ 5 < fld (a.reg (ringReg 0 Reg.RING_INT_CFG)) 16 16) := by decide +kernel

theorem test_witness_lane_forms :
    (∀ x ∈ [PortSt.off, .train, .align, .link, .up, .fault], let s := east fun p => { p with st := x, probes := 64 };
      s.halted = false ∧ s.lanes.port[(0 : Fin 2)].st = x ∧ 64 ≤ s.lanes.port[(0 : Fin 2)].probes)
    ∧ (∀ w ∈ on.bad, regionOf w ≠ 9)
    ∧ (let f : GangFrame := ⟨0, 7, false, [], [], [], []⟩; f.dev.val = on.devNum)
    ∧ (let s := { east (fun p => { p with st := .up }) with gm := { on.gm with frames := [(⟨1, 7, false, [], [], [], []⟩, true)] } };
      s.lanes.port[(0 : Fin 2)].st = .up ∧ ∃ x ∈ s.gm.frames, x.1.dev = 1 ∧ x.1.stoke = 7)
    ∧ (let s := east fun p => { p with st := .fault }; s.portLooped 0 = false ∧ receivedB s (.portRetrain .host0 0 false 0) = true
      ∧ (s.setReg (portReg 0 Reg.LANE0_TEST) 1#32).portLooped 0 = true)
    ∧ (on.advance 0).rings[(9 : Ring)].st ≠ .run ∧ (0x00#8 : Byte).toNat / 4 % 4 = on.devNum := by decide +kernel
/-- Ring 9 takes the messages of member 2, full or not. -/
def mailbox (h : Nat) : State := (on.modRing 9 fun r => { r with st := .run, dev := h }).setReg (ringReg 9 Reg.RING_BIND) 0x20B#32
theorem test_witness_own_messages :
    (∀ h ∈ [0, 100000], let a := (mailbox h).advance 0; (0x02#8 : Byte).toNat % 4 = 2 ∧ (0x02#8 : Byte).toNat / 4 % 4 = on.devNum ∧ a.findRing 0x0B 2 = some 9
      ∧ a.rings[(9 : Ring)].st = .run ∧ a.rings[(9 : Ring)].closing = false ∧ a.ringFull 9 = decide (h = 100000) ∧ (mailbox h).lanes.msgs = []) := by decide +kernel

theorem test_witness_safety_port_before_run :
    (up.time.running = false ∧ up.safe.holdDue = [] ∧ up.halted = false ∧ (5#16 : BitVec 16).toNat ≤ fld ((up.advance 0).reg (chReg 0 Reg.LAS_PCAP)) 0 16
      ∧ bit (((up.setReg (accReg Reg.SAFE_CFG) 0x10064#32).advance 0).reg (accReg Reg.SAFE_CFG)) 16 = true)
    ∧ 24 ≤ (0x18#8 : BitVec 8).toNat ∧ 3 < (4#8 : BitVec 8).toNat ∧ (on.advance 0).time.running = true ∧ on.svc.challenge = none
    ∧ { on with svc := { on.svc with lockout := true } }.svc.lockout = true
    ∧ (let s := { on with lanes := { on.lanes with route := on.lanes.route.set 1 (some 0) } }; (1 : Fin 4).val ≠ (s.advance 0).devNum
      ∧ (s.advance 0).lanes.route[(1 : Fin 4)] = some 0 ∧ (on.advance 0).lanes.route[(1 : Fin 4)] = none ∧ (0 : Fin 4).val = (s.advance 0).devNum) := by decide +kernel

theorem test_witness_housekeeping_rounds :
    (let s := { on with time := { on.time with cnt := 511 } }; s.time.cnt % 512 = 511 ∧ (s.advance last).stokeCyc ≤ (s.advance last).now + 1
      ∧ (s.advance 3998).now + 1 < (s.advance 3998).stokeCyc)
    ∧ (up.time.running = false ∧ on.time.cnt % 512 ≠ 511 ∧ (List.replicate 22 ((40 : Int), 0)).length = 22 ∧ (List.replicate 12 ((0 : Nat), false, false)).length = 12)
    ∧ on.boot.stage ≠ .rom ∧ on.boot.stage ≠ .sram ∧ on.boot.stage ≠ .fetch ∧ on.boot.stage ≠ .verify ∧ on.boot.stage ≠ .apply ∧ on.fuse.job = none
    ∧ (let b := boots .fetch fun b => { b with fromHost := true }; b.boot.fromHost = true ∧ b.boot.fetching = false)
    ∧ (let b := boots .fetch fun b => { b with fromHost := true, fetching := true }; b.boot.stage = .fetch ∧ b.boot.fetching = true) := by decide +kernel
theorem test_witness_shutdown_and_reset_forms :
    State.reset.halted = true
    ∧ (let s := { State.reset with hk := { State.reset.hk with shut := true } }; s.hk.shut = true ∧ s.hk.shutLost = false ∧ s.boot.inReset = true)
    ∧ (let s := { on with hk := { on.hk with shut := true, shutLost := true } }; s.hk.shut = true ∧ s.hk.shutLost = true ∧ s.boot.rstLow = false)
    ∧ (let s := { on with hk := { on.hk with temps := Vector.replicate 22 ⟨40, true, 0, 0⟩ } }; 3 ≤ s.dieValid ∧ s.hk.shut = false)
    ∧ (let s := boots .held fun b => { b with railHold := [3, 5], inReset := true }; (3 : Fin 12).val ∈ s.boot.railHold ∧ ∃ r ∈ s.boot.railHold, r ≠ (3 : Fin 12).val)
    ∧ (let s := boots .held fun b => { b with railHold := [3], inReset := true, rstLow := true }; s.boot.rstLow = true ∧ s.boot.railHold ≠ [])
    ∧ (∀ z ∈ [Stage.held, .ready], let s := { boots z id with damper := { on.damper with frozen := true } };
      s.damper.frozen = true ∧ s.damper.pinLow = false ∧ s.damper.cmd = false ∧ s.boot.inReset = false ∧ s.hk.shut = false ∧ s.boot.stage = z)
    ∧ (let s := { on with damper := { on.damper with frozen := true, space := 2, addr := 0x1004 } };
      s.damper.frozen = true ∧ s.damper.space = 2 ∧ s.damper.addr / 0x1000 = (1 : Fin 28).val ∧ ((s.eng[(1 : Fin 28)]).itemAt (s.damper.addr % 0x800 / 4)).isSome = true) := by decide +kernel

theorem test_rearm_in_the_clock_of_a_trigger :
    (let s := up.prbTrigger 0; s.prbSame 0 = true ∧ (s.prbRearm 1#32).prb[(0 : Fin 4)].full = true
      ∧ (let l : State := { s with now := s.now + 8 }; l.prbSame 0 = false ∧ (l.prbRearm 1#32).prb[(0 : Fin 4)].full = false)) := by decide +kernel

end Sys2Proof.Tests
end

namespace Sys2Proof.Machine
open Sys2Proof

/-! The issue of an instruction that writes one register. -/

/-- What a write of a register leaves of the program counter and the loops. -/
@[simp] theorem Core.put_pc (u : Core) (d : Reg) (v : Word) : (u.put d v).pc = u.pc := by
  unfold Core.put
  split <;> rfl
@[simp] theorem Core.put_loops (u : Core) (d : Reg) (v : Word) : (u.put d v).loops = u.loops := by
  unfold Core.put
  split <;> rfl
/-- Writing a register and spending the cost commute. -/
theorem Core.put_atIssue_cycle (u : Core) (d : Reg) (v : Word) (t cost : Nat) :
    { (u.atIssue t).put d v with cycle := t + cost } = (u.issued t cost).put d v := by
  unfold Core.put
  split <;> rfl

section
variable {s : State} {c : Ch} {uses : List Reg} {all ctrl : Bool} {cost : Nat} {act : Core → Fin 28 → Act}

/-- An instruction that writes one register, with a value known at its issue. -/
theorem putReg_retires {d : Reg} {v : Word} (h : Issues s c uses all ctrl cost) (hb : s.staysInBank c)
    (ha : act ((s.engC c).atIssue ((s.engC c).issueAt uses all)) (s.engOf c) = .go cost (putReg (s.engOf c) d v) .seq) :
    .next (s.tuikin c uses all ctrl act) = s.retires c uses all cost fun u => u.put d v :=
  tuikin_retires (g := fun u => u.put d v) h hb ha (Core.put_atIssue_cycle ..) (Core.put_pc ..) (Core.put_loops ..)

/-- An instruction that writes one register and leaves `v` of the state beside its engine. -/
theorem tuikin_retires_beside {d : Reg} {x : Word} {f : Core → Word} {v : State} {eff : State → State}
    (h : Issues s c uses all ctrl cost) (hb : s.staysInBank c)
    (ha : act ((s.engC c).atIssue ((s.engC c).issueAt uses all)) (s.engOf c) = .go cost eff .seq)
    (he : ∀ g, eff (s.modEng (s.engOf c) g) = v.modEng (s.engOf c) fun u => (g u).put d x) (hv : v.eng = s.eng) (ho : v.engOf c = s.engOf c)
    (hf : f ((s.engC c).issued ((s.engC c).issueAt uses all) cost) = x) :
    .next (s.tuikin c uses all ctrl act) = v.retires c uses all cost fun u => u.put d (f u) := by
  have hbud := h.budget
  have hu : v.eng[s.engOf c] = s.engC c := by rw [hv]; rfl
  rw [tuikin_issue h]
  simp only [ha, he]
  rw [if_neg (by omega), modEng_modEng, modEng_modEng, engPast_stays]
  · unfold State.retires
    rw [ho]
    congr 1
    apply modEng_congr
    rw [hu, Core.put_atIssue_cycle, ← hf]
  · rw [modEng_eng_same]
    exact Nat.le_trans (Nat.le_of_eq (seqNext_pc_congr (u := s.engC c) (Core.put_pc ..) (Core.put_loops ..))) hb
end

/-! Instruction words of format I (R59). -/

section
variable {op imm : Nat} (d a : Reg)

theorem opOf_encI (ho : op < 64) (hi : imm < 65536) : opOf (encI op d a imm) = op := by
  unfold opOf encI; omega
theorem regOf_encI_d (hi : imm < 65536) : regOf (encI op d a imm) 21 = d := by
  ext; simp only [regOf, encI]; omega
theorem regOf_encI_a (hi : imm < 65536) : regOf (encI op d a imm) 16 = a := by
  ext; simp only [regOf, encI]; omega
theorem encI_imm (hi : imm < 65536) : encI op d a imm % 65536 = imm := by
  unfold encI; omega
end

theorem decodeWord_bf (c : Ch) (d a : Reg) {imm : Nat} (hi : imm < 65536) : decodeWord c (encI 10 d a imm) = decBf c d a imm := by
  simp only [decodeWord, opOf_encI, regOf_encI_d, regOf_encI_a, encI_imm, hi, Nat.reduceLT]
theorem decodeWord_lut (c : Ch) (d a : Reg) {imm : Nat} (hi : imm < 65536) : decodeWord c (encI 27 d a imm) =
    onlyIf (imm % 4096 == 0) (.lut c d a ⟨imm / 8192 % 8, Nat.mod_lt _ (by decide)⟩ (imm / 4096 % 2 == 1)) := by
  simp only [decodeWord, opOf_encI, regOf_encI_d, regOf_encI_a, encI_imm, hi, Nat.reduceLT]
theorem decodeWord_mfs (c : Ch) (d a : Reg) {imm : Nat} (hi : imm < 65536) : decodeWord c (encI 39 d a imm) =
    onlyIf (a == 0 && decide (imm ≤ 6)) (.mfs c d ⟨imm % 32, Nat.mod_lt _ (by decide)⟩) := by
  simp only [decodeWord, opOf_encI, regOf_encI_d, regOf_encI_a, encI_imm, hi, Nat.reduceLT]
theorem decodeWord_mts (c : Ch) (d a : Reg) {imm : Nat} (hi : imm < 65536) : decodeWord c (encI 40 d a imm) =
    onlyIf (d == 0 && imm == 0) (.mts c a 0) := by
  simp only [decodeWord, opOf_encI, regOf_encI_d, regOf_encI_a, encI_imm, hi, Nat.reduceLT]

/-! The divisions (R65, R66). -/

/-- Saturation (R65), with the bounds written as powers. -/
theorem sat32_eq_max_min (i : Int) : sat32 i = BitVec.ofInt 32 (max (-(2 ^ 31)) (min (2 ^ 31 - 1) i)) := by
  have : clampI (-2147483648) 2147483647 i = max (-(2 ^ 31)) (min (2 ^ 31 - 1) i) := by
    unfold clampI
    split
    · omega
    · split <;> omega
  rw [sat32, this]; rfl
/-- A word's own value is not saturated. -/
theorem sat32_toInt (x : Word) : sat32 x.toInt = x := by
  have h1 := x.toInt_lt
  have h2 := x.le_toInt
  have : clampI (-2147483648) 2147483647 x.toInt = x.toInt := by
    unfold clampI
    rw [if_neg (by omega), if_neg (by omega)]
  rw [sat32, this]
  exact BitVec.ofInt_toInt

/-- The quotient by zero takes the sign bit alone (R66). -/
theorem divZero_eq (x : Word) : divZero x = if x.msb then 0x80000000#32 else 0x7FFFFFFF#32 := by
  unfold divZero
  rw [BitVec.msb_eq_toInt]
  simp
/-- The one quotient out of range is that of R66's table; no other saturates. -/
theorem divW_eq (x y : Word) : divW x y = if y = 0#32 then divZero x
    else if x = 0x80000000#32 ∧ y = 0xFFFFFFFF#32 then 0x7FFFFFFF#32 else BitVec.ofInt 32 (x.toInt.tdiv y.toInt) := by
  unfold divW
  split
  · rfl
  · split
    case isTrue h => obtain ⟨rfl, rfl⟩ := h; decide
    case isFalse h =>
      have hq : (x.sdiv y).toInt = x.toInt.tdiv y.toInt := BitVec.toInt_sdiv_of_ne_or_ne x y (Decidable.not_and_iff_not_or_not.mp h)
      rw [← hq, sat32_toInt, BitVec.ofInt_toInt]
theorem remW_eq (x y : Word) : remW x y = if y = 0#32 then x
    else if x = 0x80000000#32 ∧ y = 0xFFFFFFFF#32 then 0#32 else BitVec.ofInt 32 (x.toInt.tmod y.toInt) := by
  unfold remW
  split
  · rfl
  · split
    case isTrue h => obtain ⟨rfl, rfl⟩ := h; decide
    case isFalse => rfl

theorem qdivW_eq (x y : Word) (n : Nat) : qdivW x y n = if y = 0#32 then divZero x
    else BitVec.ofInt 32 (max (-(2 ^ 31)) (min (2 ^ 31 - 1) ((x.toInt * 2 ^ n).tdiv y.toInt))) := by
  rw [qdivW, sat32_eq_max_min]

section
variable {s : State} {c : Ch} {uses : List Reg} {d x y : Reg} {cost : Nat}

/-- An instruction whose result is computed from at most two registers. -/
theorem exec_alu_retires {i : Instr} (f : Word → Word → Word) {g : Core → Word} (h : Issues s c (d :: uses) false false cost) (hb : s.staysInBank c)
    (hi : exec i s = .next (s.aluOp c uses d cost fun u => f (u.r x) (u.r y))) (hg : ∀ u : Core, f (u.r x) (u.r y) = g u) :
    exec i s = s.retires c (d :: uses) false cost fun u => u.put d (g u) := by
  simp only [← hg]
  exact hi.trans (aluOp_retires h hb fun u v e => by simp only [Core.r, e])
end

/-- Settles O3: each division is an operation of the ALU, whose value R66's table gives case by case. -/
theorem divisionAndItsCornersR66 : Obligations.DivisionAndItsCornersR66 := by
  unfold Obligations.DivisionAndItsCornersR66
  intro s c d a b sh h hb
  simp only [← divZero_eq]
  exact ⟨exec_alu_retires divW h hb rfl fun _ => divW_eq .., exec_alu_retires divuW h hb rfl fun _ => rfl,
    exec_alu_retires remW h hb rfl fun _ => remW_eq .., exec_alu_retires remuW h hb rfl fun _ => rfl,
    exec_alu_retires (qdivW · · sh.val) h hb rfl fun _ => qdivW_eq ..⟩

/-! Immediates and bit fields (R67, R68). -/

theorem zextImm_shl (imm : BitVec 16) : zextImm imm <<< 16 = BitVec.ofNat 32 (imm.toNat * 2 ^ 16) := by
  apply BitVec.eq_of_toNat_eq
  have := imm.isLt
  simp [zextImm, Nat.shiftLeft_eq]

theorem rorW_eq_rotateRight (x : Word) {n : Nat} (hn : n < 32) : rorW x n = x.rotateRight n := by
  rw [BitVec.rotateRight_def, Nat.mod_eq_of_lt hn]
  unfold rorW
  split
  case isTrue h => subst h; simp
  case isFalse => rfl

theorem fld_eq_div_mod (x : Word) (lo n : Nat) : fld x lo n = x.toNat / 2 ^ lo % 2 ^ n := by
  rw [fld, Nat.shiftRight_eq_div_pow]

theorem bfLen_pos (pos l : Fin 32) : 0 < bfLen pos l := by unfold bfLen; omega
theorem bfLen_le (pos l : Fin 32) : bfLen pos l ≤ 32 := by unfold bfLen; omega

theorem intW_natCast (n : Nat) : intW (n : Int) = BitVec.ofNat 32 n := BitVec.ofInt_natCast 32 n

/-- A field of `n` bits, sign-extended to a word by its top bit. -/
theorem intW_sx {n f : Nat} (h0 : 0 < n) (h32 : n ≤ 32) (hf : f < 2 ^ n) :
    intW (sx n f) = if f.testBit (n - 1) then BitVec.ofNat 32 (f + 2 ^ 32 - 2 ^ n) else BitVec.ofNat 32 f := by
  have hn : 2 ^ n ≤ 2 ^ 32 := Nat.pow_le_pow_right (by decide) h32
  rw [sx, Nat.mod_eq_of_lt hf]
  by_cases h : f < 2 ^ (n - 1)
  · rw [if_pos h, Nat.testBit_lt_two_pow h, intW_natCast]
    rfl
  · have htop : f.testBit (n - 1) = true :=
      Nat.testBit_of_two_pow_le_and_two_pow_add_one_gt (by omega) (by rwa [Nat.sub_add_cancel h0])
    have hwrap : ((f + 2 ^ 32 - 2 ^ n : Nat) : Int) = (f : Int) - 2 ^ n + 2 ^ 32 := by
      have hpow : ((2 ^ n : Nat) : Int) = 2 ^ n := Int.natCast_pow 2 n
      omega
    rw [if_neg h, if_pos htop, ← intW_natCast, hwrap]
    simp [intW, BitVec.ofInt_add]

theorem getLsbD_toW (n : Nat) {i : Nat} (hi : i < 32) : (toW n).getLsbD i = n.testBit i := by
  rw [toW, BitVec.getLsbD_ofNat, decide_eq_true hi, Bool.true_and]

/-- INS replaces the field by the low bits of its source and keeps the rest (R68). -/
theorem getLsbD_insW (v w : Word) (pos l : Fin 32) {i : Nat} (hi : i < 32) : (insW v w pos l).getLsbD i =
    if pos.val ≤ i ∧ i < pos.val + bfLen pos l then w.getLsbD (i - pos.val) else v.getLsbD i := by
  have hmask : (toW ((2 ^ bfLen pos l - 1) * 2 ^ pos.val)).getLsbD i = (decide (pos.val ≤ i) && decide (i - pos.val < bfLen pos l)) := by
    rw [getLsbD_toW _ hi, Nat.testBit_mul_two_pow, Nat.testBit_two_pow_sub_one]
  have hfield : (toW (fld w 0 (bfLen pos l) * 2 ^ pos.val)).getLsbD i =
      (decide (pos.val ≤ i) && (decide (i - pos.val < bfLen pos l) && w.getLsbD (i - pos.val))) := by
    rw [getLsbD_toW _ hi, Nat.testBit_mul_two_pow, fld, Nat.shiftRight_zero, Nat.testBit_mod_two_pow, BitVec.testBit_toNat]
  simp only [insW, BitVec.getLsbD_or, BitVec.getLsbD_and, BitVec.getLsbD_not, hmask, hfield, hi, decide_true, Bool.true_and]
  by_cases hp : pos.val ≤ i
  · by_cases hl : i - pos.val < bfLen pos l
    · rw [if_pos ⟨hp, by omega⟩]; simp [hp, hl]
    · rw [if_neg (by omega)]; simp [hl]
  · rw [if_neg (by omega)]; simp [hp]

theorem extuW_eq (x : Word) (pos l : Fin 32) : extuW x pos l = BitVec.ofNat 32 (x.toNat / 2 ^ pos.val % 2 ^ bfLen pos l) := by
  rw [extuW, fld_eq_div_mod]; rfl

theorem extsW_eq (x : Word) (pos l : Fin 32) : extsW x pos l =
    let f := x.toNat / 2 ^ pos.val % 2 ^ bfLen pos l
    if f.testBit (bfLen pos l - 1) then BitVec.ofNat 32 (f + 2 ^ 32 - 2 ^ bfLen pos l) else BitVec.ofNat 32 f := by
  rw [extsW, fld_eq_div_mod]
  exact intW_sx (bfLen_pos pos l) (bfLen_le pos l) (Nat.mod_lt _ (Nat.two_pow_pos _))

/-- The operations of BF (R68). -/
def bfInstr (c : Ch) (d a : Reg) (pos len1 : Fin 32) : Nat → Option Instr
  | 0 => some (.extu c d a pos len1)
  | 1 => some (.exts c d a pos len1)
  | 2 => some (.ins c d a pos len1)
  | _ => none

/-- BF reads the operation above, the position and the length from its immediate. -/
theorem decBf_eq (c : Ch) (d a : Reg) (imm : Nat) :
    decBf c d a imm = bfInstr c d a ⟨imm / 32 % 32, Nat.mod_lt _ (by decide)⟩ ⟨imm % 32, Nat.mod_lt _ (by decide)⟩ (imm / 1024) := rfl

/-- The word of a bit field instruction is of format I, with operation, position and length in its immediate (R68). -/
theorem bfWord_eq_encI (d a : Reg) (op : Nat) (pos len1 : Fin 32) :
    0x0A * 2 ^ 26 + d.val * 2 ^ 21 + a.val * 2 ^ 16 + op * 2 ^ 10 + pos.val * 2 ^ 5 + len1.val
      = encI 10 d a (op * 1024 + pos.val * 32 + len1.val) := by
  unfold encI; omega

theorem decodeWord_bfWord (c : Ch) (d a : Reg) (op : Nat) (pos len1 : Fin 32) (ho : op < 64) :
    decodeWord c (0x0A * 2 ^ 26 + d.val * 2 ^ 21 + a.val * 2 ^ 16 + op * 2 ^ 10 + pos.val * 2 ^ 5 + len1.val) =
      bfInstr c d a pos len1 op := by
  have hop : (op * 1024 + pos.val * 32 + len1.val) / 1024 = op := by omega
  have hpos : (op * 1024 + pos.val * 32 + len1.val) / 32 % 32 = pos.val := by omega
  have hlen : (op * 1024 + pos.val * 32 + len1.val) % 32 = len1.val := by omega
  rw [bfWord_eq_encI, decodeWord_bf c d a (by omega), decBf_eq]
  simp only [hop, hpos, hlen]

/-- Settles O4: the words by the fields of format I, the results by the values of R67 and R68, INS bit by bit. -/
theorem immediatesAndBitFieldsR67R68 : Obligations.ImmediatesAndBitFieldsR67R68 := by
  unfold Obligations.ImmediatesAndBitFieldsR67R68
  intro s c d a imm n pos len1
  refine ⟨decodeWord_bfWord c d a _ pos len1 (by decide), decodeWord_bfWord c d a _ pos len1 (by decide),
    decodeWord_bfWord c d a _ pos len1 (by decide), fun op h3 h64 => ?_, fun hb h => ?_⟩
  · refine (decodeWord_bfWord c d a op pos len1 h64).trans ?_
    match op, h3 with
    | _ + 3, _ => rfl
  · have one (f : Word → Word) {i : Instr} {g : Core → Word} (hi : exec i s = .next (s.aluOp c [a] d 1 fun u => f (u.r a)))
        (hg : ∀ u : Core, f (u.r a) = g u) : exec i s = s.retires c [d, a] false 1 fun u => u.put d (g u) :=
      exec_alu_retires (y := a) (fun x _ => f x) h hb hi hg
    exact ⟨one (· + sextImm imm) rfl fun _ => rfl, one (· &&& zextImm imm) rfl fun _ => rfl, one (· ||| zextImm imm) rfl fun _ => rfl,
      one (· ^^^ zextImm imm) rfl fun _ => rfl,
      fun hd => exec_alu_retires (x := a) (y := a) (fun _ _ => zextImm imm <<< 16) hd hb rfl fun _ => zextImm_shl imm,
      one (shiW 0 · n.val) rfl fun _ => rfl, one (shiW 1 · n.val) rfl fun _ => rfl, one (shiW 2 · n.val) rfl fun _ => rfl,
      one (shiW 3 · n.val) rfl fun u => rorW_eq_rotateRight _ n.isLt,
      one (extuW · pos len1) rfl fun _ => extuW_eq .., one (extsW · pos len1) rfl fun _ => extsW_eq ..,
      (insW · · pos len1), exec_alu_retires (insW · · pos len1) h hb rfl fun _ => rfl, fun v w i hi => getLsbD_insW v w pos len1 hi⟩

/-! The special registers (R56, R85). -/

/-- A named special register is read as it stands at the issue. -/
theorem mfs_retires {s : State} {c : Ch} {d : Reg} {k : Fin 32} (hk : k.val ≤ 6) (h : Issues s c [d] (k.val == 0) false 1) (hb : s.staysInBank c) :
    exec (.mfs c d k) s = s.retires c [d] (k.val == 0) 1 fun v =>
      v.put d (s.special c ((s.engC c).atIssue ((s.engC c).issueAt [d] (k.val == 0))) k.val) :=
  putReg_retires h hb (if_neg (Nat.not_lt.mpr hk))

/-- FSTAT takes the low five bits. -/
theorem mts_retires {s : State} {c : Ch} {a : Reg} (h : Issues s c [a] true false 1) (hb : s.staysInBank c) :
    exec (.mts c a 0) s = s.retires c [a] true 1 fun v => { v with fstat := (v.r a).setWidth 5 } := by
  have low5 (x : Word) : x.extractLsb' 0 5 = x.setWidth 5 := BitVec.eq_of_toNat_eq (by simp)
  refine tuikin_retires (g := fun u => { u with fstat := ((s.engC c).r a).setWidth 5 }) h hb ?_ rfl rfl rfl
  rw [← low5]
  rfl

/-- Settles O17: the words of MFS and MTS, and what each special register reads and FSTAT takes. -/
theorem specialRegistersR56R85 : Obligations.SpecialRegistersR56R85 := by
  unfold Obligations.SpecialRegistersR56R85
  intro s c d a u
  have reg0 : (0 : Reg).val = 0 := rfl
  have mfsWord (n : Nat) : 0x27 * 2 ^ 26 + d.val * 2 ^ 21 + n = encI 39 d 0 n := by
    unfold encI; omega
  have mtsWord (n : Nat) : 0x28 * 2 ^ 26 + a.val * 2 ^ 16 + n = encI 40 0 a n := by
    unfold encI; omega
  refine ⟨fun k hk => ?_, ?_, fun n hn h5 => ⟨?_, ?_⟩, fun hb => ⟨fun h => mfs_retires (k := 0) (by decide) h hb, fun h => ?_, fun h => mts_retires h hb⟩⟩
  · rw [mfsWord, decodeWord_mfs c d 0 (by omega)]
    simp [onlyIf, hk, Nat.mod_eq_of_lt k.isLt]
  · rw [← Nat.add_zero (_ + a.val * 2 ^ 16), mtsWord, decodeWord_mts c 0 a (by decide)]
    rfl
  · rw [mfsWord, decodeWord_mfs c d 0 hn, decide_eq_false (by omega), Bool.and_false]
    rfl
  · rw [mtsWord, decodeWord_mts c 0 a hn, beq_false_of_ne (show n ≠ 0 by omega), Bool.and_false]
    rfl
  · refine ⟨mfs_retires (k := 1) (by decide) h hb, mfs_retires (k := 2) (by decide) h hb, mfs_retires (k := 3) (by decide) h hb, ?_,
      mfs_retires (k := 5) (by decide) h hb, mfs_retires (k := 6) (by decide) h hb⟩
    refine (mfs_retires (k := 4) (by decide) h hb).trans (congrArg (fun x => s.retires c [d] false 1 fun v => v.put d x) ?_)
    change toW (entryCode u.entry) = _
    cases u.entry <;> rfl

/-! LUT (R81, R19). -/

section
variable (s : State) (c : Ch) (t : Nat)

theorem lutMet_cons (i : Nat) (is : List Nat) : s.lutMet c t (i :: is) =
    (if s.isBad (lutSetAt c.val + 4096 * t + 4 * i) then s.countUe (lutSetAt c.val + 4096 * t + 4 * i) else s).lutMet c t is := rfl

/-- What a look-up has met shows in registers and in the notes of the clock alone. -/
theorem lutMet_frame (is : List Nat) : s.lutMet c t is = { s with regs := (s.lutMet c t is).regs, clk := (s.lutMet c t is).clk } := by
  induction is generalizing s with
  | nil => rfl
  | cons i is ih =>
    rw [lutMet_cons]
    split
    · exact ih (s.countUe _)
    · exact ih s
theorem lutMet_eng (is : List Nat) : (s.lutMet c t is).eng = s.eng := by rw [lutMet_frame]
theorem lutMet_engOf (is : List Nat) : (s.lutMet c t is).engOf c = s.engOf c := by rw [lutMet_frame]; rfl

/-- The engine's own change and what the look-up meets do not touch each other. -/
theorem lutMet_modEng (is : List Nat) (e : Fin 28) (f : Core → Core) : (s.modEng e f).lutMet c t is = (s.lutMet c t is).modEng e f := by
  induction is generalizing s with
  | nil => rfl
  | cons i is ih =>
    have hbad (x : Nat) : (s.modEng e f).isBad x = s.isBad x := rfl
    rw [lutMet_cons, lutMet_cons, hbad]
    split
    · exact ih (s.countUe _)
    · exact ih s

/-- Good entries leave nothing. -/
theorem lutMet_of_good {is : List Nat} (h : ∀ i ∈ is, s.isBad (lutSetAt c.val + 4096 * t + 4 * i) = false) : s.lutMet c t is = s := by
  induction is with
  | nil => rfl
  | cons i is ih =>
    obtain ⟨hi, his⟩ := List.forall_mem_cons.mp h
    rw [lutMet_cons, hi]
    exact ih his
end

/-- A look-up reads entries of its table alone. -/
theorem lt_length_of_mem_lutReads {tab : List Word} {m : Bool} {x : Word} {i : Nat} (h : i ∈ lutReads tab m x) : i < tab.length := by
  unfold lutReads at h
  dsimp only at h
  split at h
  · simp at h
  · split at h
    · have : i = min x.toNat (tab.length - 1) := by simpa using h
      omega
    · split at h
      · have : i = tab.length - 1 := by simpa using h
        omega
      · have : i = x.toNat / 1024 ∨ i = x.toNat / 1024 + 1 := by simpa using h
        omega

theorem getElem?_eq_some_nthD {α : Type} {l : List α} {i : Nat} (h : i < l.length) (d : α) : l[i]? = some (nthD l i d) := by
  simp [nthD, h]
theorem nthD_of_getElem? {α : Type} {l : List α} {i : Nat} {x : α} (h : l[i]? = some x) (d : α) : nthD l i d = x := by
  simp [nthD, h]

section
variable {tab : List Word} {x : Word}

@[simp] theorem lutW_nil (m : Bool) (x : Word) : lutW [] m x = 0#32 := rfl
/-- A direct look-up holds its index inside the table. -/
theorem lutW_direct (h : tab ≠ []) : tab[min x.toNat (tab.length - 1)]? = some (lutW tab false x) := by
  have := List.length_pos_iff.mpr h
  rw [getElem?_eq_some_nthD (by omega) 0#32]
  simp [lutW, h]
/-- At the last entry and past it an interpolation reads the last entry. -/
theorem lutW_last (h : tab ≠ []) (hx : tab.length - 1 ≤ x.toNat / 1024) : tab[tab.length - 1]? = some (lutW tab true x) := by
  have := List.length_pos_iff.mpr h
  rw [getElem?_eq_some_nthD (by omega) 0#32]
  simp [lutW, h, hx]

/-- A rounded interpolation lies between its ends. -/
theorem interpolation_between (y z : Int) {r : Nat} (hr : r < 1024) :
    min y z ≤ y + ((z - y) * r + 512) / 1024 ∧ y + ((z - y) * r + 512) / 1024 ≤ max y z := by
  rcases Int.le_total y z with h | h
  · have h0 : 0 ≤ (z - y) * r := Int.mul_nonneg (by omega) (by omega)
    have h1 : (z - y) * r ≤ (z - y) * 1023 := Int.mul_le_mul_of_nonneg_left (by omega) (by omega)
    omega
  · have h0 : (z - y) * r ≤ 0 := Int.mul_nonpos_of_nonpos_of_nonneg (by omega) (by omega)
    have h1 : (z - y) * 1023 ≤ (z - y) * r := Int.mul_le_mul_of_nonpos_left (by omega) (by omega)
    omega

/-- Between two entries the look-up interpolates, rounded; no bit of the result is lost. -/
theorem toInt_lutW_between {y z : Word} (hy : tab[x.toNat / 1024]? = some y) (hz : tab[x.toNat / 1024 + 1]? = some z) :
    (lutW tab true x).toInt = y.toInt + ((z.toInt - y.toInt) * (x.toNat % 1024 : Nat) + 512) / 1024 := by
  obtain ⟨hlen, -⟩ := List.getElem?_eq_some_iff.mp hz
  have hne : tab.length ≠ 0 := by omega
  have hin : ¬ tab.length - 1 ≤ x.toNat / 1024 := by omega
  have hval : lutW tab true x = intW (y.toInt + ((z.toInt - y.toInt) * (x.toNat % 1024 : Nat) + 512) / 1024) := by
    simp only [lutW, if_neg hne, if_neg hin, nthD_of_getElem? hy, nthD_of_getElem? hz]
    rw [Int.fdiv_eq_ediv_of_nonneg _ (by decide)]
    rfl
  obtain ⟨hlo, hhi⟩ := interpolation_between y.toInt z.toInt (Nat.mod_lt x.toNat (by decide : 1024 > 0))
  have := y.le_toInt; have := y.toInt_lt; have := z.le_toInt; have := z.toInt_lt
  rw [hval, intW, BitVec.toInt_ofInt_eq_self (by decide) (by omega) (by omega)]
end

/-- LUT retires beside what the look-up has met. -/
theorem lut_retires {s : State} {c : Ch} {d a : Reg} {k : Fin 8} {m : Bool} (h : Issues s c [d, a] false false 2) (hb : s.staysInBank c) :
    let tab := nthD s.ch[c].luts k.val []
    exec (.lut c d a k m) s = (s.lutMet c k.val (lutReads tab m ((s.engC c).r a))).retires c [d, a] false 2 fun u => u.put d (lutW tab m (u.r a)) := by
  intro tab
  refine tuikin_retires_beside (x := lutW tab m ((s.engC c).r a)) h hb rfl (fun g => ?_) (lutMet_eng ..) (lutMet_engOf ..) rfl
  rw [lutMet_modEng]
  exact modEng_modEng ..

/-- LUT's word: table and mode stand above twelve bits that are 0 (R81). -/
theorem decodeWord_lutWord (c : Ch) (d a : Reg) (k : Fin 8) (m : Bool) {n : Nat} (hn : n < 2 ^ 12) :
    decodeWord c (0x1B * 2 ^ 26 + d.val * 2 ^ 21 + a.val * 2 ^ 16 + k.val * 2 ^ 13 + (if m then 2 ^ 12 else 0) + n)
      = onlyIf (n == 0) (.lut c d a k m) := by
  obtain ⟨j, hj, hm, hw⟩ : ∃ j, j < 2 ∧ (j == 1) = m ∧ (if m then 2 ^ 12 else 0) = j * 4096 := by
    cases m
    · exact ⟨0, by decide, rfl, rfl⟩
    · exact ⟨1, by decide, rfl, rfl⟩
  have hword : 0x1B * 2 ^ 26 + d.val * 2 ^ 21 + a.val * 2 ^ 16 + k.val * 2 ^ 13 + j * 4096 + n = encI 27 d a (k.val * 8192 + j * 4096 + n) := by
    unfold encI; omega
  have hlow : (k.val * 8192 + j * 4096 + n) % 4096 = n := by omega
  have hmode : (k.val * 8192 + j * 4096 + n) / 4096 % 2 = j := by omega
  have htab : (k.val * 8192 + j * 4096 + n) / 8192 % 8 = k.val := by omega
  rw [hw, hword, decodeWord_lut c d a (by omega)]
  simp only [hlow, hmode, htab, hm]

/-- Settles O15: LUT's word, its look-up, and what it leaves when an entry is uncorrectable. -/
theorem lutReadsItsTableR81 : Obligations.LutReadsItsTableR81 := by
  unfold Obligations.LutReadsItsTableR81
  intro s c d a k m
  refine ⟨decodeWord_lutWord c d a k m (n := 0) (by decide), fun n h0 hn => ?_, fun h hb => ?_⟩
  · rw [decodeWord_lutWord c d a k m hn, beq_false_of_ne (Nat.ne_of_gt h0)]
    rfl
  · intro tab
    refine ⟨lutW tab m, s.lutMet c k.val (lutReads tab m ((s.engC c).r a)), lut_retires h hb, lutMet_frame .., fun hg => ?_, ?_, ?_, ?_, ?_⟩
    · exact lutMet_of_good _ _ _ fun i hi => hg i (lt_length_of_mem_lutReads hi)
    · intro ht x
      rw [ht, lutW_nil]
    · rintro ht rfl x
      exact lutW_direct ht
    · rintro rfl x ht hx
      exact lutW_last ht hx
    · rintro rfl x y z hy hz
      rw [toInt_lutW_between hy hz]
      exact ⟨rfl, interpolation_between _ _ (Nat.mod_lt _ (by decide))⟩

end Sys2Proof.Machine
